-- ==== Sys2Proof/Word.lean ====
section
/-! DEFINITION. The plain types of the model: 32-bit registers (R8, R9), bytes, and the sparse table that every
memory, register file and numbered resource of the device is held in. -/

namespace Sys2Proof

/-- A BAR0 register: 32 bits, bit 0 the least significant (R8, Table 00-2 "Native register width"). -/
abbrev Word := BitVec 32

/-- A byte of a frame, a payload or a memory. -/
abbrev Byte := BitVec 8

/-- A sparse table: pairs of a number and what stands there, numbers strictly rising. What an unlisted number
holds is the table's own default, named where the table is read. -/
abbrev Tab (α : Type) := List (Nat × α)

end Sys2Proof
end

