-- ==== Sys2Proof/Syntax.lean ====
section
/-! DEFINITION. The commands and events of the VQ512: one constructor for each row of spec/opcode_table.json, in
the table's order. A mailbox command names its channel only: its flags, tag and payload are those of the slot that
COMMAND_FETCH took (Table 12-3). Operands that a row takes beside it are what the outside world decides: a result
of a measurement, a failure of a memory, a level of a pin. One that has a default stands for nothing met where it is left out. -/

namespace Sys2Proof

/-- What a host access to BAR0, BAR2 or configuration space carries (R629 to R633, R641). -/
structure Access where
  /-- BAR number, 0 or 2; 3 stands for a configuration request. -/
  bar : Nat
  /-- Byte offset in the BAR or in configuration space. -/
  off : Nat
  /-- Length in bytes. -/
  len : Nat
  /-- The four byte enables of a write. -/
  be : Nat
  /-- True for a write. -/
  write : Bool
  /-- The written word. -/
  value : Nat
  /-- PCIe requester ID. -/
  req : Nat
  /-- What a read of a scratchpad window meets there: 0 no error, 1 one that is corrected, 2 one that is not (R604). -/
  ecc : Nat := 0
  deriving DecidableEq, Repr

/-- What a thread's access does (R567, R593). -/
inductive AccKind where
  | load | store
  /-- The fetch of the instruction at an address. -/
  | fetch
  deriving DecidableEq, Repr

/-- An access of a running thread to its address map (Table 10-1). -/
structure ThrAccess where
  kind : AccKind
  /-- Core address and size in bytes: 1, 2 or 4. -/
  addr : Nat
  size : Nat
  /-- Destination register of a load, and whether it extends the sign. -/
  rd : Nat
  signed : Bool
  /-- Data of a store; the instruction bits of a fetch. -/
  data : Nat
  /-- The load or store is a compressed instruction of 2 bytes. -/
  short : Bool
  /-- What the access meets in a scratchpad: 0 no error, 1 one that is corrected, 2 one that is not (R604). -/
  ecc : Nat
  deriving DecidableEq, Repr

/-- A write through port B of a core's scratchpad in the cycle of a command's own access through port A: first byte and
bytes, all in one word (R601 to R603). -/
structure SpmWrite where
  addr : Nat
  data : List Byte
  deriving DecidableEq, Repr

/-- A read through port B in that cycle: first byte, size, and the thread and register that the data returns to, `none` for the host's
window. -/
structure SpmRead where
  addr : Nat
  size : Nat
  dest : Option (Nat × Nat)
  deriving DecidableEq, Repr

/-- What port B does in the cycle of a command's own access. -/
inductive SpmOther where
  | write (b : SpmWrite)
  | read (r : SpmRead)
  deriving DecidableEq, Repr

/-- An ECC error met in a cell of a copy as the device reads or writes it (R245): the cell's index in its frame, whether the error
lies in the link word, and whether it cannot be corrected. -/
structure CellErr where
  copy : Nat
  cell : Nat
  link : Bool
  bad : Bool
  deriving DecidableEq, Repr

/-- What a port's PCS and FEC have met since its last frame: error blocks, codewords corrected and codewords that could not be. -/
structure LineErrs where
  pcs : Nat
  corr : Nat
  uncorr : Nat
  deriving DecidableEq, Repr

/-- What one run of the margin plan measured and chose (Table 14-9); the plan's rules for choosing are not given. -/
structure MarginPlan where
  vddAfter : Nat
  worstRo : Nat
  worstPair : Nat
  stackLow : Bool
  eye : Nat
  eyeLane : Nat
  hbm : Nat
  hbmStack : Nat
  life : Nat
  /-- The clock target in kHz that the plan sets for each tile (R16), and the lanes' equalisation targets that it sets: lane and
  target (R773). -/
  tileClk : List Nat
  laneEq : List (Nat × Nat)
  /-- Every monitor is within margin. -/
  clean : Bool
  deriving DecidableEq, Repr

inductive Instr where
  | getInfo (ch : Nat)
  | configStage (ch : Nat)
  | configStageRestart (ch : Nat)
  | configCommit (ch : Nat)
  | configCommitCheck (ch : Nat)
  | configCommitAbandon (ch : Nat)
  | stagingTimeout
  | getVintage (ch : Nat)
  | portSet (ch : Nat)
  | busRecover (ch : Nat)
  /-- `tries`: for each lane of the port the attempt that succeeded, 1 to 3, or 0 when all three were abandoned. -/
  | laneTrain (ch : Nat) (tries : List Nat)
  | trainingAttemptAbandon (port : Nat)
  | fdbInsert (ch : Nat)
  | fdbDelete (ch : Nat)
  | fdbSearch (ch : Nat)
  | fdbNext (ch : Nat)
  | fdbFlushByPort (ch : Nat)
  | lpmAdd (ch : Nat)
  | lpmDelete (ch : Nat)
  | lpmSearch (ch : Nat)
  | ruleWrite (ch : Nat)
  | ruleChunkWrite (ch : Nat)
  | ruleWriteMeter (ch : Nat)
  | matchStep (ch : Nat)
  | patternLoad (ch : Nat)
  | queueSet (ch : Nat)
  | shaperSet (ch : Nat)
  | gateListSet (ch : Nat)
  | timeAdjustFrequency (ch : Nat)
  | timeAdjustSlew (ch : Nat)
  | timeAdjustStep (ch : Nat)
  | timeAdjustSet (ch : Nat)
  | refSelect (ch : Nat)
  | safetyEditOpen (ch : Nat)
  | safetyStreamSet (ch : Nat)
  | telegramLoad (ch : Nat)
  | safetyCommit (ch : Nat)
  /-- `mramOk`: the image written to MRAM read back without a difference (R550). -/
  | safetyCommitConfirm (ch : Nat) (mramOk : Bool)
  | safetyCommitAbandon (ch : Nat)
  | safetyEditTimeout
  | safetyBankSwitch
  | claimSet (ch : Nat)
  /-- `pass`: the outcome of the full test of R513. -/
  | claimSetProof (ch : Nat) (pass : Bool)
  | stopAck (ch : Nat)
  | snapshot (ch : Nat)
  | mirrorSet (ch : Nat)
  | blackboxRead (ch : Nat)
  | marginPlanRun (ch : Nat) (plan : MarginPlan)
  | guestLoad (ch : Nat)
  | guestStart (ch : Nat)
  | guestStop (ch : Nat)
  | mbxPost (ch : Nat) (value : Nat)
  /-- `slot`: the 32 bytes of the slot, `payload`: its payload; the flags say whether the two reads, and later the
  write of the command's response, succeed (R687). -/
  | commandFetch (ch : Nat) (slot : List Byte) (payload : List Byte) (slotOk payloadOk rspOk : Bool)
  | mbxEnable (ch : Nat) (value : Nat)
  /-- `applied`: part of the command had been applied when its thread faulted (R704). -/
  | commandThreadFault (ch : Nat) (applied : Bool)
  /-- `other`, here and below: what port B does in the cycle of one of the command's own scratchpad accesses; `ecc`: what the read of the
  frame meets, as in `ThrAccess` (R604). -/
  | tret (thr : Nat) (other : Option SpmOther := none) (ecc : Nat := 0)
  /-- `rd` and the numbers of rs1 and rs2 (R576: rs1 = x0 waits for events alone). -/
  | twait (thr rd rs1 rs2 : Nat)
  | twaitWake (thr : Nat)
  | tyield (thr : Nat)
  | tpost (thr rs1 rs2 : Nat)
  /-- `code` of Table 10-7 and tval; a code 16 carries the denied address as tval. -/
  | trap (thr code tval : Nat) (other : Option SpmOther := none) (acc : Option ThrAccess := none)
  /-- `acc`: the access that leaves the scratchpad; `none` for any other stall of 24 cycles (R570). -/
  | longStall (thr : Nat) (acc : Option ThrAccess := none) (other : Option SpmOther := none)
  | stallEnd (thr : Nat)
  | thrCmdStart (writer thr : Nat) (other : Option SpmOther := none)
  | thrCmdStop (writer thr : Nat) (other : Option SpmOther := none)
  | thrCmdRestart (writer thr : Nat) (other : Option SpmOther := none)
  | cmWdog (writer : Nat)
  | cellarmasterWatchdog
  | firmwareThreadRestart (thr : Nat)
  /-- `cycles`: consecutive cycles the guest has been RUNNING. -/
  | guestRunLimit (thr cycles : Nat)
  /-- n occurrences of an event that no other command counts: 1 an instruction retired, 3 and 4 stall cycles (Table 10-12). -/
  | sampleCountdown (thr n : Nat) (ev : Nat := 1)
  /-- `skid`: instructions of the thread from the sample's falling due to the trap; those that have not retired by other commands retire
  in this one. -/
  | sampleTrap (thr skid : Nat) (other : Option SpmOther := none)
  | coreClockStop (core : Nat)
  | spmRetentionEntry (core : Nat)
  /-- `island`: 0 to 3 a control core, 4 to 7 a cellar controller. -/
  | islandWake (island : Nat)
  /-- `size` 1, 2 or 4; `addr` is the byte offset in the scratchpad; a load leaves its word in x`rd` of thread `thr`. -/
  | spmBitsetAccess (thr addr size : Nat) (load : Bool) (rd data : Nat) (other : Option SpmOther := none)
  | spmBitclearAccess (thr addr size : Nat) (load : Bool) (rd data : Nat) (other : Option SpmOther := none)
  /-- `bad`: index of the first failing word of the region, if the march test failed. -/
  | spmBackgroundTest (core : Nat) (bad : Option Nat)
  /-- One cooper cycle: the requests that reach it (requester and n) and the frees of that cycle (requester and offset); `regs`: destination
  registers of the threads' loads. -/
  | cooperAlloc (reqs frees : List (Nat × Nat)) (regs : List (Nat × Nat) := [])
  | cooperFree (req off : Nat)
  | perfUserPageRead (thr e : Nat)
  | registerWrite (acc : Access)
  | irqArm (value : Nat)
  | msixUnmask (vec : Nat)
  | hostInterfaceReset
  | busMasterDisable
  /-- `inj` selects the inject ring of engine `e`; `value` is the word written to the ring's CFG. -/
  | ringEnable (inj : Bool) (e value : Nat)
  | ringPost (inj : Bool) (e value : Nat)
  /-- The host's descriptor (bytes 0 to 11 of Table 11-6) and the outcome of the accesses: 0 good, 1 descriptor
  read failed, 2 buffer access failed. -/
  | trapRingDeliver (queue : Nat) (desc : List Byte) (err : Nat)
  | trapRingNobuf (queue : Nat)
  /-- The host's descriptor (Table 11-7), the frame's bytes without FCS, and the outcome of the reads as above. -/
  | injectDescriptor (e : Nat) (desc : List Byte) (frame : List Byte) (err : Nat)
  | injectComplete (e : Nat)
  /-- The BAR0 address of the register whose parity the scrubber finds wrong. -/
  | parityScrub (addr : Nat)
  | parityRecord (island : Nat)
  | parityRewrite (addr : Nat)
  | tsuLoadInc
  | tsuArmStep
  | tsuStartSlew
  | tsuStopSlew
  | tsuStepApply
  | tsuSlewEnd
  | tsuCapCmd
  | slaveRealign (die : Nat)
  | ppsOutEdge
  /-- `b`: PPS_B instead of PPS_A; `offset`: time of the edge less the expected time, in ns, by the local oscillator. -/
  | ppsInEdge (b : Bool) (offset : Int)
  | ppsMissing (b : Bool)
  /-- `raw`: the raw offset measured over the gate, in 0.01 ppm. -/
  | refGateEnd (ref : Nat) (raw : Int)
  | refLossOfSignal (ref : Nat)
  | calSecondStep
  | calLoad
  | calLoadApply
  | vstbyApplied
  | vstbyLoss
  | vddHkUp
  | resetNFall
  | resetRelease
  /-- Whether the header and CRC of image A and of image B are good (R761). -/
  | bootImageLoad (aOk bOk : Bool)
  | lifelineStart
  | stopPathArm
  /-- The start configuration's records as flash holds them (R762), `none` where flash holds none. -/
  | startConfigCommit (recs : Option (List Byte))
  | guardsStart
  /-- Bit s of `stackFail`: cellar stack s failed its training (R765).
  `trained`: ports that firmware itself has trained since the start configuration, each with its lanes' attempts as in `laneTrain`. -/
  | fullService (stackFail : Nat) (trained : List (Nat × List Nat) := [])
  /-- `clock`: an island clock departed (argument: island); otherwise a supply (argument: rail), with its mV.
  `readFail`: an AVSBus readback that fails (R792). -/
  | monitorDeparture (clock : Bool) (which mv : Nat) (readFail : Bool := false)
  | monitorRelease
  | pwrFailFall
  | pwrFailRise
  | standbyEntry
  /-- A frame from destination address through FCS, `pre` a preemptable frame (its fragments reassembled),
  `assyErr` a reassembly error (R77), `frags` its continuation fragments, `verify` 0 none, 1 an SMD-V mPacket. Ports 512
  and 513 are MGMT0 and MGMT1. -/
  | frameReceive (port : Nat) (bytes : List Byte) (pre assyErr : Bool) (frags verify : Nat) (line : LineErrs := ⟨0, 0, 0⟩)
  | pauseFrameReceive (port : Nat) (bytes : List Byte)
  | pauseExpiry (port cls : Nat)
  /-- Frames whose keys a complex takes in one cycle, each with its lookup slot (R375). -/
  | keySearch (keys : List (Nat × Nat))
  /-- `errs`, here and below: the ECC errors that the command's reads and writes of cells meet (R245). -/
  | rackWrite (tile voq : Nat) (errs : List CellErr := [])
  | refillRequest (tile voq : Nat)
  /-- `bad`: frames whose bytes met an uncorrectable cellar error. -/
  | refillDone (tile voq : Nat) (bad : List Nat)
  | cellarStop (stack : Nat)
  | xoffRepeat (port cls : Nat)
  | frameTail (frame : Nat)
  | learnSync (cplx : Nat)
  | ageingSweep
  | trapHandle (queue : Nat)
  | guardDecide (guard frame : Nat)
  | outputStageAccept (copy : Nat)
  | decisionMissing (copy guard : Nat)
  /-- `cause`: bit number of Table 09-14, 0 to 8. -/
  | claimForce (guard cause : Nat)
  | degradeLimitExpiry
  | proofTestStart (guard : Nat)
  | proofTestDone (guard : Nat) (pass : Bool)
  /-- Channel B when `b`; the electrical level, and for how many µs it has been held. -/
  | safeStopChange (b level : Bool) (heldUs : Nat)
  | discrepancyFault
  | stopAckNEdge
  | ackStuck
  | telegramRepeat
  | trellisSlot (errs : List CellErr := [])
  /-- Lands the oldest bunch in flight toward `tile`; `parityErr` its sideband parity; `errs` those found as its pieces are
  written (R313). -/
  | bunchLand (tile : Nat) (parityErr : Bool) (errs : List CellErr)
  | egressQueueJoin (copy : Nat)
  /-- The express MAC's boundary, or the preemptable MAC's when `pre`. -/
  | frameBoundary (port : Nat) (pre : Bool) (errs : List CellErr := [])
  | gateEvent (port : Nat)
  | gateListSwitch (port : Nat)
  | mmVerifySend (port : Nat)
  | mmRespondReceive (port : Nat)
  /-- Ports 512 and 513 are MGMT0 and MGMT1, here and in `linkDown` and `trainingAttemptAbandon`. -/
  | linkUp (port : Nat)
  /-- `pcs`, `fec`: the PCS, or the FEC alone, still has its lock. -/
  | linkDown (port : Nat) (pcs fec : Bool := false)
  | memberReassign (lag : Bool) (group member : Nat)
  | memberAdd (lag : Bool) (group member : Nat)
  | overagePass
  /-- Cells or racks that a fault has left neither free nor owned beside those the state knows of, and cells or racks that a fault
  has cross-linked, with the frames that own them; `mirrors` the mirror copies that own them. -/
  | leesCellPass (tile : Nat) (orphans : List Nat) (crossed : List (Nat × List Nat)) (mirrors : List (Nat × List Nat) := [])
  | leesRackPass (stack : Nat) (orphans : List Nat) (crossed : List (Nat × List Nat)) (mirrors : List (Nat × List Nat) := [])
  | tasteLogDrain
  | snapCmd
  | snapshotTick
  | snapshotDone
  | totalsPublish
  | hhSwap
  /-- `none`: the oldest record that `island` has queued arrives; otherwise a record that the island raises on an
  event no other row states, with its code and up to 16 argument bytes (Table 13-6).
  `others`: further islands whose records arrive in the same cycle (R741). -/
  | blackboxRecord (island : Nat) (own : Option (Nat × List Byte)) (others : List Nat := [])
  | mramCopyTrigger (trigger : Nat)
  | mramCopyDone
  /-- Sensor readings in °C; `none` a sensor that fails its self-check (R779). -/
  | thermalReading (readings : List (Option Nat))
  | marginPlanDaily (plan : MarginPlan)
  | wearIntegrate
  | beaconSend (port : Nat)
  /-- A trapped beacon at the head of a trap queue. -/
  | beaconReceive (queue : Nat)
  | peerStateUpdate
  | modBusStuck (bus : Nat)
  /-- `released`: SDA went high during this bus clear. -/
  | modBusClear (bus : Nat) (released : Bool)
  | modBusStretchLimit (bus : Nat)
  | slaveAlignmentLoss (die : Nat)
  | refSignalReturn (ref : Nat)
  /-- True: into D3hot. -/
  | pciePowerStateChange (d3 : Bool)
  | busMasterEnable
  | lifelineBridgeAgeing
  | stopAckNFall
  | ackStuckClear
  | emitterHeartbeatLoss (emitter : Nat)
  | tokenBucketRefill (port bucket : Nat)
  deriving DecidableEq, Repr

end Sys2Proof
end

