-- ==== Sys2Proof/WellFormed.lean ====
section
/-! DEFINITION. Which commands name something the device has: instance numbers within the counts of chapters 01 to 14
(16 channels, 512 ports and 2 management ports, 16 tiles, 4 complexes, 4 stacks, 32 threads, 8 trap queues, 36 vectors),
words of 32 bits. -/

namespace Sys2Proof

/-- A host access: a window of BAR0, BAR2 or configuration space, four byte enables, a 32-bit word, a 16-bit requester ID. -/
def Access.wf (a : Access) : Bool :=
  decide ((a.bar = 0 ∧ a.off < 0x4000000 ∨ a.bar = 2 ∧ a.off < 0x1000 ∨ a.bar = 3 ∧ a.off < 0x1000) ∧ a.be < 16 ∧ a.value < 0x100000000 ∧ a.req < 0x10000 ∧ a.ecc < 3)

/-- What a margin plan measures fits the fields of Table 14-9, and its clock targets lie within R16. -/
def MarginPlan.wf (p : MarginPlan) : Bool :=
  decide (p.vddAfter < 0x10000 ∧ p.worstRo < 0x10000 ∧ p.worstPair < 96 ∧ p.eye < 0x10000 ∧ p.eyeLane < 1024 ∧ p.hbm < 0x10000 ∧
    p.hbmStack < 4 ∧ p.life < 0x100000000 ∧ p.tileClk.length = 16) &&
    p.tileClk.all (fun k => decide (1590000 ≤ k ∧ k ≤ 1625000)) && p.laneEq.all (·.1 < 1024)

/-- Port B writes 1 to 4 bytes of one word of the scratchpad. -/
def SpmWrite.wf (b : SpmWrite) : Bool := decide (b.data ≠ [] ∧ b.addr % 4 + b.data.length ≤ 4 ∧ b.addr + b.data.length ≤ 524288)

/-- Port B reads 1, 2 or 4 bytes of one word of the scratchpad, the host's window all 4. -/
def SpmRead.wf (r : SpmRead) : Bool :=
  decide ((r.size = 1 ∨ r.size = 2 ∨ r.size = 4) ∧ r.addr % 4 + r.size ≤ 4 ∧ r.addr + r.size ≤ 524288) &&
    match r.dest with
    | none => decide (r.size = 4)
    | some (m, x) => decide (m < 32 ∧ x < 32)

def SpmOther.wf (o : SpmOther) : Bool :=
  match o with
  | .write b => b.wf
  | .read r => r.wf

def otherOk (o : Option SpmOther) : Bool := (o.map SpmOther.wf).getD true

/-- A thread's access of 1, 2 or 4 bytes in the 32-bit address space. -/
def ThrAccess.wf (a : ThrAccess) : Bool :=
  decide ((a.size = 1 ∨ a.size = 2 ∨ a.size = 4) ∧ a.addr < 0x100000000 ∧ a.rd < 32 ∧ a.data < 0x100000000 ∧ a.ecc < 3)

def accOk (o : Option ThrAccess) : Bool := (o.map ThrAccess.wf).getD true

/-- Bytes 8 to 11 of an inject descriptor give the frame's length (Table 11-7). -/
def injectLen (desc : List Byte) : Nat := ((desc.drop 8).take 4).foldr (fun b a => b.toNat + 256 * a) 0 % 16384

/-- A command names only instances the device has and words of the width they have. -/
def Instr.wf (i : Instr) : Bool :=
  match i with
  | .getInfo ch => decide (ch < 16)
  | .configStage ch => decide (ch < 16)
  | .configStageRestart ch => decide (ch < 16)
  | .configCommit ch => decide (ch < 16)
  | .configCommitCheck ch => decide (ch < 16)
  | .configCommitAbandon ch => decide (ch < 16)
  | .stagingTimeout => true
  | .getVintage ch => decide (ch < 16)
  | .portSet ch => decide (ch < 16)
  | .busRecover ch => decide (ch < 16)
  | .laneTrain ch tries => decide (ch < 16 ∧ tries.all (· ≤ 3) = true)
  | .trainingAttemptAbandon port => decide (port < 514)
  | .fdbInsert ch => decide (ch < 16)
  | .fdbDelete ch => decide (ch < 16)
  | .fdbSearch ch => decide (ch < 16)
  | .fdbNext ch => decide (ch < 16)
  | .fdbFlushByPort ch => decide (ch < 16)
  | .lpmAdd ch => decide (ch < 16)
  | .lpmDelete ch => decide (ch < 16)
  | .lpmSearch ch => decide (ch < 16)
  | .ruleWrite ch => decide (ch < 16)
  | .ruleChunkWrite ch => decide (ch < 16)
  | .ruleWriteMeter ch => decide (ch < 16)
  | .matchStep ch => decide (ch < 16)
  | .patternLoad ch => decide (ch < 16)
  | .queueSet ch => decide (ch < 16)
  | .shaperSet ch => decide (ch < 16)
  | .gateListSet ch => decide (ch < 16)
  | .timeAdjustFrequency ch => decide (ch < 16)
  | .timeAdjustSlew ch => decide (ch < 16)
  | .timeAdjustStep ch => decide (ch < 16)
  | .timeAdjustSet ch => decide (ch < 16)
  | .refSelect ch => decide (ch < 16)
  | .safetyEditOpen ch => decide (ch < 16)
  | .safetyStreamSet ch => decide (ch < 16)
  | .telegramLoad ch => decide (ch < 16)
  | .safetyCommit ch => decide (ch < 16)
  | .safetyCommitConfirm ch _ => decide (ch < 16)
  | .safetyCommitAbandon ch => decide (ch < 16)
  | .safetyEditTimeout => true
  | .safetyBankSwitch => true
  | .claimSet ch => decide (ch < 16)
  | .claimSetProof ch _ => decide (ch < 16)
  | .stopAck ch => decide (ch < 16)
  | .snapshot ch => decide (ch < 16)
  | .mirrorSet ch => decide (ch < 16)
  | .blackboxRead ch => decide (ch < 16)
  | .marginPlanRun ch plan => decide (ch < 16) && plan.wf
  | .guestLoad ch => decide (ch < 16)
  | .guestStart ch => decide (ch < 16)
  | .guestStop ch => decide (ch < 16)
  | .mbxPost ch value => decide (ch < 16 ∧ value < 0x100000000)
  | .commandFetch ch slot _ _ _ _ => decide (ch < 16 ∧ slot.length = 32)
  | .mbxEnable ch value => decide (ch < 16 ∧ value < 0x100000000)
  | .commandThreadFault ch _ => decide (ch < 16)
  | .tret thr other ecc => decide (thr < 32 ∧ ecc < 3) && otherOk other
  | .twait thr rd rs1 rs2 => decide (thr < 32 ∧ rd < 32 ∧ rs1 < 32 ∧ rs2 < 32)
  | .twaitWake thr => decide (thr < 32)
  | .tyield thr => decide (thr < 32)
  | .tpost thr rs1 rs2 => decide (thr < 32 ∧ rs1 < 0x100000000 ∧ rs2 < 0x100000000)
  | .trap thr code tval other acc => decide (thr < 32 ∧ code < 32 ∧ tval < 0x100000000) && otherOk other && accOk acc
  | .longStall thr acc other => decide (thr < 32) && accOk acc && otherOk other
  | .stallEnd thr => decide (thr < 32)
  | .thrCmdStart writer thr other => decide (writer < 32 ∧ thr < 32) && otherOk other
  | .thrCmdStop writer thr other => decide (writer < 32 ∧ thr < 32) && otherOk other
  | .thrCmdRestart writer thr other => decide (writer < 32 ∧ thr < 32) && otherOk other
  | .cmWdog writer => decide (writer < 32)
  | .cellarmasterWatchdog => true
  | .firmwareThreadRestart thr => decide (thr < 32)
  | .guestRunLimit thr _ => decide (thr < 32)
  | .sampleCountdown thr _ ev => decide (thr < 32 ∧ (ev = 1 ∨ ev = 3 ∨ ev = 4))
  | .sampleTrap thr _ other => decide (thr < 32) && otherOk other
  | .coreClockStop core => decide (core < 4)
  | .spmRetentionEntry core => decide (core < 4)
  | .islandWake island => decide (island < 8)
  | .spmBitsetAccess thr addr size _ rd data other => decide (thr < 32 ∧ addr < 524288 ∧ rd < 32 ∧ data < 0x100000000 ∧ (size = 1 ∨ size = 2 ∨ size = 4)) && otherOk other
  | .spmBitclearAccess thr addr size _ rd data other => decide (thr < 32 ∧ addr < 524288 ∧ rd < 32 ∧ data < 0x100000000 ∧ (size = 1 ∨ size = 2 ∨ size = 4)) && otherOk other
  | .spmBackgroundTest core _ => decide (core < 4)
  | .cooperAlloc reqs frees regs => (reqs ++ frees).all (·.1 < 64) && regs.all (·.2 < 32)
  | .cooperFree req _ => decide (req < 64)
  | .perfUserPageRead thr e => decide (thr < 32 ∧ e < 16)
  | .registerWrite acc => acc.wf
  | .irqArm value => decide (value < 0x100000000)
  | .msixUnmask vec => decide (vec < 64)
  | .hostInterfaceReset => true
  | .busMasterDisable => true
  | .ringEnable _ e value => decide (e < 8 ∧ value < 0x100000000)
  | .ringPost _ e value => decide (e < 8 ∧ value < 0x100000000)
  | .trapRingDeliver queue desc _ => decide (queue < 8 ∧ 12 ≤ desc.length)
  | .trapRingNobuf queue => decide (queue < 8)
  | .injectDescriptor e desc frame err => decide (e < 8 ∧ 16 ≤ desc.length ∧ (err = 0 → frame.length = injectLen desc))
  | .injectComplete e => decide (e < 8)
  | .parityScrub addr => decide (addr < 0x4000000)
  | .parityRecord island => decide (island < 43)
  | .parityRewrite addr => decide (addr < 0x4000000)
  | .tsuLoadInc => true
  | .tsuArmStep => true
  | .tsuStartSlew => true
  | .tsuStopSlew => true
  | .tsuStepApply => true
  | .tsuSlewEnd => true
  | .tsuCapCmd => true
  | .slaveRealign die => decide (die < 8)
  | .ppsOutEdge => true
  | .ppsInEdge _ _ => true
  | .ppsMissing _ => true
  | .refGateEnd ref _ => decide (ref < 4)
  | .refLossOfSignal ref => decide (ref < 4)
  | .calSecondStep => true
  | .calLoad => true
  | .calLoadApply => true
  | .vstbyApplied => true
  | .vstbyLoss => true
  | .vddHkUp => true
  | .resetNFall => true
  | .resetRelease => true
  | .bootImageLoad _ _ => true
  | .lifelineStart => true
  | .stopPathArm => true
  | .startConfigCommit _ => true
  | .guardsStart => true
  | .fullService _ trained => trained.all fun e => decide (e.1 < 514) && e.2.all (· ≤ 3)
  | .monitorDeparture clock which mv _ => decide ((clock = true ∧ which < 43 ∨ clock = false ∧ which < 11) ∧ mv < 0x10000)
  | .monitorRelease => true
  | .pwrFailFall => true
  | .pwrFailRise => true
  | .standbyEntry => true
  | .frameReceive port _ _ _ _ _ _ => decide (port < 514)
  | .pauseFrameReceive port _ => decide (port < 512)
  | .pauseExpiry port cls => decide (port < 512 ∧ cls < 8)
  | .keySearch keys => keys.all (·.2 < 12)
  | .rackWrite tile voq _ => decide (tile < 16 ∧ voq < 4096)
  | .refillRequest tile voq => decide (tile < 16 ∧ voq < 4096)
  | .refillDone tile voq _ => decide (tile < 16 ∧ voq < 4096)
  | .cellarStop stack => decide (stack < 4)
  | .xoffRepeat port cls => decide (port < 512 ∧ cls < 8)
  | .frameTail _ => true
  | .learnSync cplx => decide (cplx < 4)
  | .ageingSweep => true
  | .trapHandle queue => decide (queue < 8)
  | .guardDecide guard _ => decide (guard < 2)
  | .outputStageAccept _ => true
  | .decisionMissing _ guard => decide (guard < 2)
  | .claimForce guard cause => decide (guard < 2 ∧ cause < 9)
  | .degradeLimitExpiry => true
  | .proofTestStart guard => decide (guard < 2)
  | .proofTestDone guard _ => decide (guard < 2)
  | .safeStopChange _ _ _ => true
  | .discrepancyFault => true
  | .stopAckNEdge => true
  | .ackStuck => true
  | .telegramRepeat => true
  | .trellisSlot _ => true
  | .bunchLand tile _ _ => decide (tile < 16)
  | .egressQueueJoin _ => true
  | .frameBoundary port _ _ => decide (port < 512)
  | .gateEvent port => decide (port < 512)
  | .gateListSwitch port => decide (port < 512)
  | .mmVerifySend port => decide (port < 512)
  | .mmRespondReceive port => decide (port < 512)
  | .linkUp port => decide (port < 514)
  | .linkDown port _ _ => decide (port < 514)
  | .memberReassign _ _ _ => true
  | .memberAdd _ _ _ => true
  | .overagePass => true
  | .leesCellPass tile orphans crossed mirrors => decide (tile < 16) && (orphans ++ (crossed ++ mirrors).map (·.1)).all (· < 49152)
  | .leesRackPass stack orphans crossed mirrors => decide (stack < 4) && (orphans ++ (crossed ++ mirrors).map (·.1)).all (· < 4161536)
  | .tasteLogDrain => true
  | .snapCmd => true
  | .snapshotTick => true
  | .snapshotDone => true
  | .totalsPublish => true
  | .hhSwap => true
  | .blackboxRecord island _ others => (island :: others).all (· < 43)
  | .mramCopyTrigger trigger => decide (trigger < 8)
  | .mramCopyDone => true
  | .thermalReading readings => decide (readings.length = 37) && readings.all fun r => decide (r.getD 0 ≤ 150)
  | .marginPlanDaily plan => plan.wf
  | .wearIntegrate => true
  | .beaconSend port => decide (port < 512)
  | .beaconReceive queue => decide (queue < 8)
  | .peerStateUpdate => true
  | .modBusStuck bus => decide (bus < 16)
  | .modBusClear bus _ => decide (bus < 16)
  | .modBusStretchLimit bus => decide (bus < 16)
  | .slaveAlignmentLoss die => decide (die < 8)
  | .refSignalReturn ref => decide (ref < 4)
  | .pciePowerStateChange _ => true
  | .busMasterEnable => true
  | .lifelineBridgeAgeing => true
  | .stopAckNFall => true
  | .ackStuckClear => true
  | .emitterHeartbeatLoss emitter => decide (emitter < 3)
  | .tokenBucketRefill port bucket => decide (port < 512 ∧ bucket < 9)

end Sys2Proof
end

