-- ==== Sys2Proof/Decode.lean ====
section
/-! DEFINITION. The command that a word of the table's bits spells. No row of spec/opcode_table.json gives bits, so
no word spells a command by them; and what the words of the threads' custom-0 opcode spell (R575). -/

namespace Sys2Proof

/-- No row of the table gives bits. -/
def decodeTableWord (_nbits _w : Nat) : Option Instr := none

/-- What a fetched word of the custom-0 opcode is: R-type with funct7 0 and funct3 0 to 3 of Table 10-4, and otherwise an illegal
instruction (R575); `x` reads the thread's registers, whose values `TPOST` takes. `none` for a word of another opcode. -/
def threadWord (thr : Nat) (x : Nat → Nat) (w : Nat) : Option Instr :=
  if w % 128 ≠ 0xB then none
  else if w / 2 ^ 25 ≠ 0 then some (.trap thr 2 w)
  else
    let rd := w / 2 ^ 7 % 32
    let rs1 := w / 2 ^ 15 % 32
    let rs2 := w / 2 ^ 20 % 32
    match w / 2 ^ 12 % 8 with
    | 0 => some (.tret thr)
    | 1 => some (.twait thr rd rs1 rs2)
    | 2 => some (.tyield thr)
    | 3 => some (.tpost thr (x rs1) (x rs2))
    | _ => some (.trap thr 2 w)

end Sys2Proof
end

