-- ==== Sys2Proof/Config.lean ====
section
/-! DEFINITION. What one part fixes for itself and what the manual leaves open. Every constant here is opaque:
no proof can see a value of it. -/

namespace Sys2Proof.Config

/-- Values the manual leaves open, one fresh value for each number (the step supplies `Dev.freeCtr`). Log entry 3. -/
opaque freeNat : Nat → Nat

/-- The 64-bit serial number behind `SYS_SERIAL_LO` and `SYS_SERIAL_HI` (Table 11-9). Log entry 4. -/
opaque serial : BitVec 64

/-- `SYS_ORDER`: true for VQ512-LC2, false for VQ512-LC1 (Table 00-1, Table 11-9). Log entry 4. -/
opaque isLC2 : Bool

/-- Patch number of Ralku 3.2 that `GET_INFO` reports (Table 12-8). Log entry 4. -/
opaque fwPatch : BitVec 16

/-- CRC-32C of the firmware image that `GET_INFO` reports (Table 12-8). Log entry 4. -/
opaque fwImageCrc : BitVec 32

/-- Firmware's per-device default hash seed, A (false) and B (true), taken where a seed of 0 is configured
(Table 12-6 type 7). Log entry 4. -/
opaque defaultSeed : Bool → BitVec 32

/-- The 8 check bits of the SECDED code over a 64-bit word (R243, R244): the manual names the code (72,64) and not its matrix. Log
entry 95. -/
opaque secded : BitVec 64 → BitVec 8

/-- How far the slave counter of a lane die stands from the master counter at a time in ps (R27, R414). Log entry 102. -/
opaque slaveFree : Nat → Nat → Nat

/-- The byte layout of the canonical safety configuration whose CRC-64 is `SAFE_DIGEST` (R548): the manual does
not give it, so it is an unknown function of this model's own listing of that configuration. Log entry 5. -/
opaque safeLayout : List Byte → List Byte

/-- The entry that the boot ROM gives thread 0 of core 0 (R569). Log entry 4. -/
opaque bootEntry : BitVec 32

/-- Vangenquel's PCI-SIG vendor ID and, in the upper half, the subsystem vendor ID and subsystem ID that xSPI flash holds, 0 if it holds
none (Tables 11-1 and 14-3). Log entry 4. -/
opaque vendorId : BitVec 16
opaque subsystemIds : BitVec 32

/-- A module management bus runs at 400 kHz rather than 100 kHz (R99): the manual gives both rates and nothing that selects one. Log
entry 99. -/
opaque busFast : Nat → Bool

end Sys2Proof.Config
end

