-- ==== Sys2Proof/Machine/State.lean ====
section
/-! DEFINITION. The state of the VQ512: its register file (every BAR0 register under its address) and every memory,
table, queue, pin, timer and piece of work in progress that the manual names, as plain data; the queue of waiting
commands; and the reasons a step can stop. -/

namespace Sys2Proof.Machine

/-! ## Ports, parser and frames (chapters 02, 03) -/

/-- Inner header of a VXLAN frame, with the L4 ports where they were parsed. -/
structure Inner where
  fam : Nat
  src : Nat
  dst : Nat
  proto : Nat
  ports : Option (Nat × Nat)
  deriving DecidableEq, Repr

/-- What the parser finds in a frame (Tables 03-1 to 03-5). Offsets count from byte 0 of the destination address. -/
structure Parse where
  fail : Nat := 0
  tagCount : Nat := 0
  tpid1 : Nat := 0
  tci1 : Nat := 0
  tci2 : Nat := 0
  macsec : Bool := false
  rtag : Option Nat := none
  labels : List Nat := []
  l3 : Nat := 0
  l4 : Nat := 0
  etype : Nat := 0
  rtIdx : Option Nat := none
  l2End : Nat := 0
  l3Off : Option Nat := none
  l4Off : Option Nat := none
  payOff : Option Nat := none
  src : Nat := 0
  dst : Nat := 0
  proto : Nat := 0
  tos : Nat := 0
  ttl : Nat := 0
  options : Bool := false
  frag : Nat := 0
  exts : Nat := 0
  flow : Nat := 0
  sport : Nat := 0
  dport : Nat := 0
  tcpFlags : Nat := 0
  vni : Option Nat := none
  ptpOff : Option Nat := none
  ptpType : Nat := 0
  inner : Option Inner := none
  deriving DecidableEq, Repr

/-- A frame the device holds: Table 05-1 and the findings that travel with it. -/
structure Frame where
  bytes : List Byte
  len : Nat
  inPort : Nat
  cls : Nat := 0
  tenant : Nat := 0
  colour : Nat := 0
  arrival : Nat := 0
  arrivalExt : Nat := 0
  fcsOk : Bool := true
  tailIn : Bool := false
  pre : Bool := false
  parse : Parse := {}
  hits : Nat := 0
  /-- Bridging VID, PCP and DEI, and whether the frame arrived with a bridging tag (R832, R176). -/
  vid : Nat := 0
  pcp : Nat := 0
  dei : Nat := 0
  tagged : Bool := false
  /-- KEY_SEARCH has been done, or the guards' decisions have been used. -/
  keyed : Bool := false
  /-- Condemned: it makes no further copy and its remaining ones are discarded. -/
  dead : Bool := false
  /-- FID of its source at a good tail, and whether the source may be learned there (R189, R191). -/
  learn : Option Nat := none
  mayLearn : Bool := false
  departIntent : Nat := 0
  /-- Injected by DMA engine, the descriptor's number, and whether through lookup (R670). -/
  inject : Option (Nat × Nat × Bool) := none
  tsReq : Bool := false
  /-- Cells of its ingress tile that hold it, in order: until its first copy takes them over, and for a TC7 frame until its
  copies have crossed (R242, R244). -/
  chain : List Nat := []
  /-- Ports that a TC7 frame has been sent to (R492). -/
  sentTo : List Nat := []
  deriving DecidableEq, Repr

/-- The part of a tile's cell buffer that admitted a frame (Table 05-2, R252). -/
inductive Part where
  | reservation | guarantee | shared | headroom | tc7
  deriving DecidableEq, Repr

/-- Where a copy of a frame stands. -/
inductive Loc where
  | voq | staging | cellar | crossing | landed | queued | sending | preempted
  deriving DecidableEq, Repr

/-- The rewrites of a routed frame (R226): destination and source address, VID. -/
structure Rewrite where
  dmac : Nat
  smac : Nat
  vid : Nat
  deriving DecidableEq, Repr

/-- A guard's decision word (Table 09-2). -/
structure DecWord where
  egress : List (Option Nat)
  tagged : Nat
  outVid : Nat
  queue : Nat := 7
  bank : Bool
  forward : Bool
  stream : Nat
  seq : Nat
  digest : Nat
  due : Nat
  deriving DecidableEq, Repr

/-- A copy of a frame on its way to one egress port. -/
structure Copy where
  frame : Nat
  tile : Nat
  port : Nat
  cls : Nat
  cells : Nat
  part : Part
  tenant : Nat
  loc : Loc := .voq
  ct : Bool := false
  /-- Cells placed in bunches, and cells landed in the destination tile. -/
  sent : Nat := 0
  landed : Nat := 0
  /-- Slot number from which the copy has waited in its VOQ. -/
  since : Nat := 0
  rewrite : Option Rewrite := none
  /-- Mirror session, if the copy is a mirror copy, with the bytes it carries. -/
  mirror : Option Nat := none
  bytes : Option (List Byte) := none
  corked : Bool := false
  /-- Cells of the ingress tile that hold what has not crossed yet, and cells of the destination tile that hold what has landed,
  each in the order of the frame (R242, R244). -/
  chain : List Nat := []
  land : List Nat := []
  /-- Cells (by index in the frame) whose bytes an error has destroyed, and those of them that are not in the destination tile: a
  discarded bunch carried them, or they lay beyond a broken link word there. -/
  holes : List Nat := []
  missed : List Nat := []
  /-- Bytes that non-final fragments have carried, and their number (R76, R84). -/
  fragBytes : Nat := 0
  frags : Nat := 0
  /-- The word an output stage accepted for a TC7 copy, and guard B's or A's other word when both are there. -/
  accepted : Option (DecWord × DecWord) := none
  /-- When it lay whole in the destination tile. -/
  landedAt : Nat := 0
  stamp : Nat := 0
  /-- It lies in the lifeline bridge's queues, which do not cross the trellis (R310, Table 14-2). -/
  lifeline : Bool := false
  deriving DecidableEq, Repr

/-- Internals of one port that its registers do not show (chapter 02). -/
structure PortSt where
  /-- MAC merge verification: verify frames sent since it began, `none` when it does not run (R74, R821). -/
  verify : Option Nat := none
  verifyAt : Nat := 0
  /-- A port below 8 not admitted to forwarding during the change to full service (R764, R823). -/
  closedUntil : Nat := 0
  /-- Lanes that its last training left trained (`HK_STATE.LANES_TRAINED`). -/
  lanesTrained : Nat := 0
  /-- A training of the port as it is set now has finished, successfully or not (R763). -/
  trainDone : Bool := false
  deriving DecidableEq, Repr

/-- A module management bus (R98 to R105). -/
structure ModBus where
  stuck : Bool := false
  clears : Nat := 0
  failed : Bool := false
  /-- When the next bus clear begins. -/
  nextAt : Nat := 0
  /-- Clock pulses and stop conditions that the clears of this recovery have put on the pins (an output). -/
  pulses : Nat := 0
  stops : Nat := 0
  deriving DecidableEq, Repr

/-! ## Rules, patterns and tables (chapters 03, 04) -/

/-- A pattern entry (Table 03-3). -/
structure PatEnt where
  value : List Byte
  byteMask : Nat
  len : Nat
  anchor : Nat
  minOff : Nat
  maxOff : Nat
  hit : Nat
  valid : Bool
  deriving DecidableEq, Repr

/-- A rule entry: 320-bit value and mask and the action word (R135, Table 03-6). -/
structure RuleEnt where
  value : Nat := 0
  mask : Nat := 0
  action : Nat := 0
  deriving DecidableEq, Repr

/-- A token bucket: tokens in units of its own scale and the time (ps) up to which they are counted (R365). -/
structure Bucket where
  tokens : Int := 0
  since : Nat := 0
  deriving DecidableEq, Repr

/-- A meter entry (Table 07-2) with its two buckets. -/
structure MeterEnt where
  mode : Nat := 0
  aware : Bool := false
  rate1 : Nat := 0
  burst1 : Nat := 0
  rate2 : Nat := 0
  burst2 : Nat := 0
  t1 : Bucket := {}
  t2 : Bucket := {}
  deriving DecidableEq, Repr

/-- A slot of the MAC/host table (Tables 04-2 and 04-3). `ty` 0 MAC, 1 IPv4 host, 2 and 3 the parts of an IPv6 host. -/
structure MacEnt where
  ty : Nat := 0
  static : Bool := false
  hit : Bool := false
  router : Bool := false
  discardDa : Bool := false
  discardSa : Bool := false
  isLag : Bool := false
  isMcast : Bool := false
  dest : Nat := 0
  fid : Nat := 0
  mac : Nat := 0
  origin : Nat := 0
  ts : Nat := 0
  addr : Nat := 0
  route : Nat := 0
  deriving DecidableEq, Repr

/-- A configuration record (R699): type, index, value. -/
structure CfgRec where
  ty : Nat
  idx : Nat
  val : List Byte
  deriving DecidableEq, Repr

/-- Where a prefix stands (R211 to R213). -/
inductive Place where
  | host | hash | cam | dflt
  deriving DecidableEq, Repr

/-- An installed prefix with its route result (Table 04-4). -/
structure Prefix where
  fam : Nat
  len : Nat
  addr : Nat
  route : Nat
  place : Place
  deriving DecidableEq, Repr

/-- A complex's prefixes, and the pages of 4,096 units that each length's hash table has in its LPM store: 256 × family +
length → pages (R211 to R216). -/
structure Lpm where
  prefixes : List Prefix := []
  pages : Tab Nat := []
  deriving DecidableEq, Repr

/-- The forwarding state. Every complex holds a copy of its own of each table (R18): `mac`, `learnQ`, `rules`, `meters`,
`lpm`, `paths` and `buckets` are listed by complex. -/
structure Fwd where
  mac : Tab (Tab MacEnt) := []
  learnQ : Tab (List MacEnt) := []
  rules : Tab (Tab RuleEnt) := []
  meters : Tab (Tab MeterEnt) := []
  /-- Pattern sets: number 2 × tile + set (R119). -/
  pats : Tab (Tab PatEnt) := []
  lpm : Tab Lpm := []
  /-- VLANs, router MACs, next hops, ECMP groups, LAGs and multicast port sets, as records of types 1 to 6. -/
  paths : Tab (List CfgRec) := []
  /-- Buckets of an ECMP group (number) and of a LAG (16,384 + number): member of each bucket (Table 04-6). -/
  buckets : Tab (Tab (List Nat)) := []
  /-- Complex whose learn queue the learning-sync threads served last (R199). -/
  learnTurn : Nat := 3
  /-- `BASE` of a stream filter as extended time: 1,024 × tile + filter (R390). -/
  filterBase : Tab Nat := []
  /-- Ageing: time of the last sweep (R195). -/
  sweepAt : Nat := 0
  /-- A `RULE_WRITE` partly written: channel and chunks × complexes already written (R154). -/
  ruleJob : Option (Nat × Nat) := none
  /-- Time each complex's last chunk began (R155). -/
  chunkAt : Tab Nat := []
  /-- Count-min sketch (R735): number 2 × complex + bank, counters at 4,096 × row + column; totals; active bank. -/
  sketch : Tab (Tab Nat) := []
  hhTotal : Tab Nat := []
  hhBank : Bool := true
  /-- The window, `TSU_NS`[31:27], that the active bank counts. -/
  hhWindow : Nat := 0
  deriving DecidableEq, Repr

/-! ## Buffer, cellar and trellis (chapters 05, 06) -/

/-- A frame's record in the packed stream of a VOQ's cellar segment (Table 05-6). -/
structure CellarRec where
  copy : Nat
  len : Nat
  packed : Bool
  /-- Byte offset of the record in the segment's stream. -/
  start : Nat
  deriving DecidableEq, Repr

/-- A rack of a cellar segment: its stack, number and position, with the records that begin in it as its descriptor gives them
(Table 05-5); whether its writing is held at the crossing into a stopped controller (R38), and whether it has been requested
back. -/
structure Rack where
  stack : Nat
  rack : Nat
  seq : Nat
  /-- Byte of the rack where the first record that begins in it does, and how many begin in it. -/
  firstRec : Option Nat := none
  recCount : Nat := 0
  held : Bool := false
  asked : Bool := false
  back : Bool := false
  deriving DecidableEq, Repr

/-- A spilled VOQ's cellar segment (R271 to R290). -/
structure Segment where
  recs : List CellarRec := []
  racks : List Rack := []
  /-- Stream bytes written, and stream bytes of records laid out (written or waiting in staging). -/
  written : Nat := 0
  laid : Nat := 0
  /-- Frame bytes of the last record laid out, the next one's previous record (R289), and where it begins. -/
  prev : Option (List Byte × Nat) := none
  deriving DecidableEq, Repr

/-- A cross-linked cell or rack with what owns it: frames, and mirror copies, which are frames of their own (R305, log entry 97). -/
structure CrossLink where
  num : Nat
  frames : List Nat
  mirrors : List Nat
  deriving DecidableEq, Repr

/-- Buffer state beside the copies themselves, from which every use count is taken. -/
structure Buf where
  frames : Tab Frame := []
  copies : Tab Copy := []
  nextFrame : Nat := 0
  nextCopy : Nat := 0
  /-- Cells of a tile that no queue owns and that are not free (R245, R314), until the audit returns them. -/
  lost : Tab (List Nat) := []
  /-- Cross-linked cells of a tile and racks of a stack, off the free list while a frame that owned them is there (R305). -/
  crossCells : Tab (List CrossLink) := []
  crossRacks : Tab (List CrossLink) := []
  /-- Cells found unowned by the last audit pass of the tile (R304); racks of the stack likewise; and when those passes ended. -/
  leesCells : Tab (List Nat) := []
  leesRacks : Tab (List Nat) := []
  leesCellAt : Tab Nat := []
  leesRackAt : Tab Nat := []
  /-- Cellar segments by 4,096 × tile + VOQ. -/
  segs : Tab Segment := []
  /-- Racks in use by stack: their numbers. -/
  usedRacks : Tab (List Nat) := []
  /-- Next stack in the tile's rotation (R283). -/
  rackTurn : Tab Nat := []
  /-- VOQ last served in the tile by racking and by refill (R297), tiles last served (R296). -/
  rackVoq : Tab Nat := []
  refillVoq : Tab Nat := []
  rackTile : Nat := 15
  refillTile : Nat := 15
  /-- When the wake request that a stopped controller has not answered yet was raised (R34, R35). -/
  stackWake : Tab Nat := []
  /-- Racking requests held at the crossing into a stopped controller, in order: segment key and position of the rack (R38). -/
  rackQ : Tab (List (Nat × Nat)) := []
  /-- Stacks whose controller runs, and stacks left stopped by a failed training (R37, R765). -/
  running : List Nat := []
  failed : List Nat := []
  /-- Pairs (8 × port + class) in XOFF and when their PFC frame is due again (R263, R265). -/
  xoff : Tab Nat := []
  /-- Cells of a tile freed in the tile cycle that runs, not yet available (R251); none between commands. -/
  freeing : Tab (List Nat) := []
  /-- Over-age passes done (R301). -/
  overPass : Nat := 0
  deriving DecidableEq, Repr

/-- A run of cells of one copy in a bunch: the copy, its frame, whether it is a mirror copy, the first cell and how many, and the piece
bytes. It names the frame because the copy may be gone before it lands. -/
structure BunchPiece where
  copy : Nat
  frame : Nat
  mirror : Bool
  first : Nat
  cells : Nat
  bytes : Nat
  deriving DecidableEq, Repr

/-- A bunch in flight: its channels and the pieces it carries. -/
structure Bunch where
  src : Nat
  dst : Nat
  pieces : List BunchPiece
  deriving DecidableEq, Repr

/-- Which pass of Table 06-2 granted a bunch. -/
inductive Pass where
  | tc7 | tc7Late | cont | iter1 | iter2 | iter3
  deriving DecidableEq, Repr

/-- A grant: source channel, destination channel, pass, and the ready vector it carries (R323). -/
structure Grant where
  src : Nat
  dst : Nat
  pass : Pass
  ready : Nat
  deriving DecidableEq, Repr

/-- The trellis master and the source tiles' pointers (chapter 06). -/
structure Trellis where
  slot : Nat := 0
  /-- Matches being built for the coming transfer slots, the nearest first. -/
  matching : List (List Grant) := []
  grantPtr : Tab Nat := []
  acceptPtr : Tab Nat := []
  contPtr : Tab Nat := []
  /-- VOQ after which the next turn begins: 32 × source + 2 × destination + group (R317). -/
  turn : Tab Nat := []
  /-- Landing-area free cells as last reported (R321), and the ready vectors as the sources last received them (R831). -/
  freeRep : Tab Nat := []
  readyRep : Tab Nat := []
  flight : List Bunch := []
  /-- Requests as the sources last sent them: 16 × source + destination → Table 06-1 word. -/
  req : Tab Nat := []
  deriving DecidableEq, Repr

/-! ## Egress (chapter 07) -/

/-- An entry of a gate control list (Table 07-4). -/
structure GateEnt where
  gates : Nat
  op : Nat
  interval : Nat
  deriving DecidableEq, Repr

/-- A gate control list in extended time. -/
structure GateList where
  base : Nat
  cycle : Nat
  ext : Nat
  entries : List GateEnt
  deriving DecidableEq, Repr

/-- What waits at the express MAC beside queued frames. -/
inductive Ctl where
  | verify | respond
  /-- Priority-enable vector and time of a PFC frame. -/
  | pfc (classes time : Nat)
  deriving DecidableEq, Repr

/-- A port's egress state beside its registers. -/
structure EgrPort where
  /-- Copies that have joined, by class 0 to 7, in order (R343). -/
  queues : Tab (List Nat) := []
  /-- Start tag and finish tag of each class's head (R352). -/
  start : Tab Nat := []
  fin : Tab Nat := []
  /-- The copy that each class's tags belong to. -/
  head : Tab Nat := []
  /-- Buckets: 0 to 6 class shapers, 7 the port shaper, 8 the governor's. -/
  buckets : Tab Bucket := []
  /-- Copy in transmission on the express MAC and on the preemptable MAC. -/
  express : Option Nat := none
  preempt : Option Nat := none
  /-- Class c paused until this time (ps) (R268). -/
  paused : Tab Nat := []
  gates : Option GateList := none
  pending : Option (GateList × Nat) := none
  /-- Start of the running gate cycle and the entry in force (R377). -/
  cycleAt : Nat := 0
  entry : Nat := 0
  ctl : List Ctl := []
  /-- Telegrams offered and not yet sent (R538). -/
  tele : List Nat := []
  /-- What was last put on the wire, a frame or a fragment: its preamble with SFD or SMD, and its bytes with FCS or mCRC
  (outputs of the device). -/
  lead : List Byte := []
  out : List Byte := []
  /-- Preemptable frames started, modulo 4 (IEEE 802.3br's SMD-S number). -/
  smd : Nat := 0
  deriving DecidableEq, Repr

/-! ## Time (chapter 08) -/

/-- An entry of the epoch table (R423). -/
structure Epoch where
  origin : Nat
  sec : Nat
  ns : Nat
  deriving DecidableEq, Repr

/-- A frequency reference beside its registers: raw offsets of its gates, newest first, and PPS counting. -/
structure RefSt where
  raw : List Int := []
  /-- Average that it froze on when it became SUSPECT, and the one that it left when it was last disqualified (Table 08-7, R460). -/
  frozen : Int := 0
  gone : Int := 0
  /-- When the gate in progress began. -/
  gateAt : Nat := 0
  ppsMissRun : Nat := 0
  /-- Time of the PPS input's previous expected edge (R455). -/
  ppsAt : Option Nat := none
  deriving DecidableEq, Repr

/-- The time-stamping unit and the standby calendar beside their registers. -/
structure TimeSt where
  frac : Nat := 0
  incNs : Nat := 1
  incFrac : Nat := 0x47AE147B
  /-- Fraction units that a tick of the running slew adds, and the ticks left are `TSU_SLEW_LEFT`. -/
  slewFrac : Int := 0
  /-- Extended time from which on an armed step is applied (R418, R419). -/
  stepExt : Nat := 0
  epochs : List Epoch := []
  /-- `PPS_OUT_NEXT` is still to be written for the last set. -/
  ppsSet : Bool := false
  /-- When each lane die's slave counter lost its alignment (R414). -/
  slaveAt : Tab Nat := []
  refs : Tab RefSt := []
  /-- Holdover's frozen offset in 0.01 ppm, `none` until a reference was selected (R460). -/
  holdover : Option Int := none
  holdSince : Nat := 0
  /-- Seconds since 2000-01-01, oscillator cycles in the second at time `calAt`, flags (R463 to R475). -/
  calSec : Nat := 0
  calSub : Nat := 0
  calAt : Nat := 0
  calWrapped : Bool := false
  calNotSet : Bool := true
  /-- Captured loads on their way to the standby domain: time, CAL_STAGE0 and CAL_STAGE1 (R467). -/
  calLoads : List (Nat × Nat × Nat) := []
  /-- `VDD_HK` has come up once since `VSTBY` was applied when the device is first in reset (R476). -/
  stbyEpoch : Nat := 1
  deriving DecidableEq, Repr

/-! ## Safety plane (chapter 09) -/

/-- A safety stream entry (Table 09-1). -/
structure Stream where
  inPort : Nat := 0
  da : Nat := 0
  vid : Nat := 0
  maxLen : Nat := 64
  budget : Nat := 1
  deadline : Nat := 500
  base : Nat := 0
  cycle : Nat := 1000
  opn : Nat := 0
  cls : Nat := 0
  tol : Nat := 0
  rtag : Bool := false
  rcvy : Nat := 0
  hist : Nat := 1
  resetMs : Nat := 1
  egress : List (Option Nat) := []
  tagged : Nat := 0
  outVid : Nat := 0
  /-- `BASE` as extended time, fixed at the commit (R390, R841). -/
  baseExt : Nat := 0
  deriving DecidableEq, Repr

/-- A sealed telegram (Table 09-8). -/
structure Tele where
  port : Nat
  kind : Nat
  len : Nat
  bytes : List Byte
  sealCrc : Nat
  deriving DecidableEq, Repr

/-- A safety configuration: valid streams by number, VID map bits, telegrams by index, and the two settings words. -/
structure SafeCfg where
  streams : Tab Stream := []
  vids : Nat := 0
  teles : Tab Tele := []
  stopCfg : Nat := 21075920
  degradeCfg : Nat := 3600 + 12 * 262144 + 8 * 4194304
  deriving DecidableEq, Repr

/-- A holder's own two banks of the safety configuration: what was in force before T_sw, what is from T_sw on, and the number of the
bank that holds the latter (R25, R534, R551). -/
structure Banks where
  old : SafeCfg := {}
  new : SafeCfg := {}
  act : Bool := false
  deriving DecidableEq, Repr

/-- Vector recovery state of one recovery function in one guard (R489 check 4, IEEE 802.1CB). -/
structure Recov where
  seq : Nat
  hist : Nat
  since : Nat
  deriving DecidableEq, Repr

/-- One guard's own state: it shares no configuration storage and no table memory with the other (R25). -/
structure Guard where
  /-- Its stream table, VID map, telegrams and settings. -/
  banks : Banks := {}
  /-- Frames assigned to a stream's window: stream → (window, count). -/
  windows : Tab (Int × Nat) := []
  recov : Tab Recov := []
  /-- Decision words by frame. -/
  words : Tab DecWord := []
  /-- When it delivered each word (R493, R494). -/
  wordAt : Tab Nat := []
  /-- Frames already decided unknown, to be trapped when both or the only guard says so (R488). -/
  unknown : List Nat := []
  forcedAt : Option Nat := none
  failedAt : Option Nat := none
  /-- The temperature of its island departs from specification (R482). -/
  hot : Bool := false
  deriving DecidableEq, Repr

/-- The edit session: its staged copy, the time of its last safety command, and step one's digest and time. -/
structure Edit where
  cfg : SafeCfg
  last : Nat
  armed : Option (Nat × Nat) := none
  deriving DecidableEq, Repr

/-- The safety plane. -/
structure Safe where
  /-- The committed configuration: the MRAM image. -/
  cfg : SafeCfg := {}
  /-- The hardwired stop path's own copy. -/
  hk : Banks := {}
  /-- The safety VID map of each tile and of each egress output stage, before T_sw and from it on (R484). -/
  tileVids : Tab (Nat × Nat) := []
  stageVids : Tab (Nat × Nat) := []
  /-- T_sw of the last commit; its banks are loaded and T_sw has not come (R551). -/
  tsw : Option Nat := none
  loaded : Bool := false
  guards : Tab Guard := []
  edit : Option Edit := none
  /-- The hardwired stop path is armed (R542). -/
  armedHk : Bool := false
  /-- When degraded operation began (R511). -/
  degradeFrom : Option Nat := none
  /-- When each proof test of the last 24 h ceases to count, newest first. -/
  proofs : List Nat := []
  /-- The image's digest when Ralku last started: what `SAFE_DIGEST` counts as unchanged from (R762, log entry 5). -/
  startDigest : Nat := 0
  /-- Discrepancy count in progress: first channel is B, toward stop, since when, latched (R525). -/
  disc : Option (Bool × Bool × Nat × Bool) := none
  /-- Both channels have been seen at stop together since the fault (R531). -/
  clearing : Bool := false
  ackFallAt : Option Nat := none
  ackRiseAt : Option Nat := none
  /-- Last sending of telegram j, and when it is due again (R536, R540). -/
  teleAt : Tab Nat := []
  teleDue : Tab Nat := []
  /-- Last frame sent by an output stage: 4,096 × port + stream → ARRIVAL (R497). -/
  lastSent : Tab Nat := []
  deriving DecidableEq, Repr

/-! ## Control complex (chapter 10) -/

inductive ThrState where
  | off | ready | running | stalled | waiting | faulted
  deriving DecidableEq, Repr

/-- A hardware thread beside its registers of Table 10-14. -/
structure Thr where
  state : ThrState := .off
  depth : Nat := 0
  ie : Bool := true
  sampleHeld : Bool := false
  sampleDue : Bool := false
  /-- Instructions retired since the sample fell due (R622). -/
  skid : Nat := 0
  restarts : Nat := 0
  pc : Word := 0
  /-- General registers x1 to x31. -/
  x : Tab Word := []
  /-- What is left of the sample countdown; 0 when it is to be loaded (R621). -/
  sampleLeft : Nat := 0
  /-- Destination register of the `TWAIT` in progress, and whether it has a timer target. -/
  rd : Nat := 0
  timed : Bool := false
  /-- The data of the last load came marked as poisoned (R604). -/
  poison : Bool := false
  /-- Codes of the traps that the thread is in, innermost first. -/
  codes : List Nat := []
  /-- A stop waits for the access in flight (Table 10-3). -/
  stopping : Bool := false
  /-- `now` up to which the cycle counters of its state count (Table 10-12). -/
  since : Nat := 0
  /-- When it last became RUNNING (R597). -/
  runAt : Nat := 0
  /-- Times of the last faults, newest first (Table 10-8), whether it was left FAULTED, and the last hardware restart (R592). -/
  faults : List Nat := []
  left : Bool := false
  restartAt : Option Nat := none
  deriving DecidableEq, Repr

/-- A write of `THR_CMD` (Table 10-14). -/
inductive ThrCmd where
  | start | stop | restart
  deriving DecidableEq, Repr

/-- A control core and its scratchpad. -/
structure Core where
  stopped : Bool := false
  retained : Bool := false
  /-- Since when no thread has been READY, RUNNING or STALLED; since when port B has had no access. -/
  idleAt : Nat := 0
  portBAt : Nat := 0
  stoppedAt : Nat := 0
  /-- Thread that last left RUNNING (R572). -/
  last : Nat := 7
  /-- Region that the background test comes to next, and when it last tested one (R608). -/
  region : Nat := 0
  testAt : Nat := 0
  spm : Tab Byte := []
  /-- Time of the wake request that waits at a stopped core, and the signals that its crossings hold for it: event bits by
  thread, which merge, and thread commands, the oldest first (R32, R34, R42). -/
  wakeAt : Option Nat := none
  posts : Tab Nat := []
  cmds : List (Nat × ThrCmd) := []
  deriving DecidableEq, Repr

/-- A held buffer of the control buffer memory: its requester, pool, and the bytes written to it. -/
structure Held where
  req : Nat
  pool : Nat
  data : List Byte := []
  deriving DecidableEq, Repr

structure Ctrl where
  /-- After reset every thread is OFF except thread 0 of core 0 (R569, Table 10-16). -/
  thr : Tab Thr := [(0, { state := .ready, pc := Config.bootEntry })]
  core : Tab Core := []
  /-- Held buffers by offset, fewest free of each pool since reset. -/
  held : Tab Held := []
  fewest : Tab Nat := []
  /-- Bytes of the control buffer memory that lie in no held buffer, where a thread has touched them. -/
  cbuf : Tab Byte := []
  wdogAt : Nat := 0
  cmFatal : Bool := false
  /-- Result word of the last request that reached the cooper (an output). -/
  answer : Nat := 0
  /-- Result words of the last cooper cycle's requests, by requester (an output). -/
  answers : Tab Nat := []
  deriving DecidableEq, Repr

/-! ## Host interface and mailbox (chapters 11, 12) -/

/-- A command slot taken by the engine (Table 12-3) with its payload. `pool` is the cooper's answer, 0 good. -/
structure Slot where
  opcode : Nat
  flags : Nat
  len : Nat
  tag : Nat
  expVint : Nat
  rspLen : Nat
  payload : List Byte
  pool : Nat := 0
  buf : Option Nat := none
  /-- Where the engine read the slot, and the addresses in its bytes 16 to 31: of the payload and of the response buffer (R681). -/
  slotAddr : Nat := 0
  payloadAddr : Nat := 0
  rspAddr : Nat := 0
  payloadOk : Bool := true
  /-- The write of its response into host memory succeeds (R687). -/
  rspOk : Bool := true
  /-- Its firmware thread faults once the command has taken effect (R704). -/
  faulted : Bool := false
  deriving DecidableEq, Repr

/-- A response (Table 12-4) with the payload bytes written to the host. -/
structure Rsp where
  status : Nat
  len : Nat
  tag : Nat
  vintage : Nat
  detail : Nat
  reason : Nat
  payload : List Byte
  /-- Where the payload goes. -/
  addr : Nat := 0
  deriving DecidableEq, Repr

structure Chan where
  inflight : List Slot := []
  /-- The last responses in the host's response ring, by slot. -/
  ring : Tab Rsp := []
  /-- Responses held while bus mastering is off, and whether their writes succeed (R703). -/
  held : List (Rsp × Bool) := []
  /-- Taken commands whose responses are discarded (R680), and an enable that waits for `ACTIVE` to fall. -/
  discard : Nat := 0
  enPending : Bool := false
  deriving DecidableEq, Repr

structure Staging where
  owner : Nat
  recs : List CfgRec
  last : Nat
  deriving DecidableEq, Repr

/-- A frame in a trap queue (R160 to R168). -/
structure TrapFrame where
  frame : Frame
  cause : Nat
  since : Nat
  buf : Nat
  deriving DecidableEq, Repr

/-- A notification entry (Table 12-7). -/
structure Note where
  kind : Nat
  seq : Nat
  time : Nat
  args : List Byte
  deriving DecidableEq, Repr

/-- A descriptor that an inject ring has fetched: its 16 bytes from the host, and its status and stamp once known. -/
structure InjDesc where
  desc : List Byte
  res : Option (Nat × Nat)
  deriving DecidableEq, Repr

/-- What a ring has written to host memory: the descriptor and the bytes of its buffer. -/
structure DoneDesc where
  desc : List Byte
  data : List Byte
  deriving DecidableEq, Repr

/-- The function's configuration space (R629): MSI-X enable and function mask (R656), Unsupported Request reporting, the AER record of
an Unsupported Request (R640), and the words that the host writes and no other rule reads. -/
structure PcieCfg where
  msixOn : Bool := false
  fnMask : Bool := false
  urReport : Bool := false
  aerUr : Bool := false
  /-- Writable bits with no other home, by word, where the word has been written (Table 11-1). -/
  words : Tab Nat := []
  /-- `ERR_NONFATAL` messages sent (an output). -/
  nonfatal : Nat := 0
  /-- How the last host read was completed (an output): 0 with its data, 1 Unsupported Request, 2 with poisoned data (R604, R640). -/
  cpl : Nat := 0
  deriving DecidableEq, Repr

structure HostIf where
  chan : Tab Chan := []
  busMaster : Bool := false
  d3 : Bool := false
  pcie : PcieCfg := {}
  /-- Vectors that are not armed (R655); masked in the MSI-X table, all of them after a PCIe reset; pending in the PBA. -/
  disarmed : List Nat := []
  masked : List Nat := List.range 64
  pba : List Nat := []
  /-- Address and data words of the MSI-X table by BAR2 offset. -/
  msix : Tab Word := []
  /-- Vectors whose MSI-X message the last command sent (an output of the device). -/
  msgs : List Nat := []
  /-- Host's notification ring, by slot. -/
  notes : Tab Note := []
  trapQ : Tab (List TrapFrame) := []
  /-- Trap-queue buckets: 2 × queue the frame bucket, 2 × queue + 1 the byte bucket; `none` still full. -/
  trapBkt : Tab Bucket := []
  /-- Descriptors an inject ring has fetched and not completed, by engine and descriptor number. -/
  inject : Tab (Tab InjDesc) := []
  /-- Host memory behind the rings (an output): ring (trap ring e at e, inject ring e at 8 + e), by position. -/
  done : Tab (Tab DoneDesc) := []
  /-- Registers whose stored parity is wrong, and faulty ones already recorded (R651). -/
  parBad : List Nat := []
  /-- Parity records on their way to the system block, by island number (R649). -/
  parQ : Tab (List Nat) := []
  staging : Option Staging := none
  /-- Data that the last host read returned (an output). -/
  rdata : Nat := 0
  /-- The committed configuration in canonical order, and its vintage (R691, R696). -/
  cfg : List CfgRec := []
  vintage : Nat := 1
  deriving DecidableEq, Repr

/-! ## Telemetry, bring-up and health (chapters 13, 14) -/

/-- A black-box record (Table 13-5). -/
structure BbRec where
  seq : Nat
  ns : Nat
  cal : Nat
  island : Nat
  code : Nat
  args : List Byte
  deriving DecidableEq, Repr

/-- An MRAM copy slot (Table 13-8). -/
structure MramSlot where
  num : Nat
  trigger : Nat
  epoch : Nat
  recs : List BbRec
  teles : Tab Tele
  safeVintage : Nat
  safeDigest : Nat
  vintage : Nat
  deriving DecidableEq, Repr

structure Telem where
  ring : Tab BbRec := []
  /-- Records waiting in a source island's queue (R743). -/
  bbQ : Tab (List (Nat × List Byte)) := []
  /-- Sequence number of the last record written. -/
  seq : Nat := 0
  slots : Tab MramSlot := []
  /-- The copy that runs, its trigger and the last record it holds; triggers held for the next one, each with its record's number
  (R745, R747). -/
  copy : Option (Nat × Nat) := none
  heldTrig : List (Nat × Nat) := []
  /-- Triggers of R744 that have arisen and whose record is not written yet, one entry for each. -/
  trigDue : List Nat := []
  /-- Wraps of each counter since core-die reset (R721). -/
  wraps : Tab Nat := []
  /-- When the request that started the snapshot that runs was made. -/
  snapAt : Nat := 0
  /-- Counters latched at the tick of the snapshot that runs: register address → word, their wraps, and its time. -/
  shot : Option (Tab Word × Tab Nat × Nat) := none
  /-- The snapshot bank's hardware region by register address, and the wraps that stood at its snapshot. -/
  bank : Tab Word := []
  bankWraps : Tab Nat := []
  /-- `SNAPSHOT` commands that wait: channel → the snapshot number that serves it (R719). -/
  snapWait : Tab Nat := []
  /-- Published 64-bit totals by the counter's register address (R721, R722). -/
  totals : Tab Nat := []
  /-- Tasting: frames dequeued per 8 × tile + class; the log by entry: sample, tile, position (Table 13-2). -/
  tasteN : Tab Nat := []
  tasteLog : Tab (Nat × Nat × Nat) := []
  /-- Settings of a mirror session, newest first, each with the number of the first frame it applies to (R729). -/
  mirrors : Tab (List (Nat × List Byte)) := []
  deriving DecidableEq, Repr

/-- The last beacon kept for a port (R769), with when it came and since when its digest has differed. -/
structure Peer where
  serial : Nat
  group : Nat
  vintage : Nat
  digest : Nat
  since : Nat
  diffSince : Option Nat := none
  deriving DecidableEq, Repr

/-- An entry of the lifeline bridge (R759). -/
structure Bridge where
  mac : Nat
  port : Nat
  seen : Nat
  deriving DecidableEq, Repr

/-- Power state (Table 14-1). -/
inductive Phase where
  | off | standby | reset | lifeline | full | quiesced
  deriving DecidableEq, Repr

structure Health where
  /-- Governor steps active, as their temperatures, and since when the reading has been below each release level. -/
  steps : List Nat := []
  below : Tab Nat := []
  /-- Time of the last thermal reading; ps spent at or above 95 and 103 °C beyond the whole seconds counted. -/
  readAt : Nat := 0
  hot95 : Nat := 0
  hot103 : Nat := 0
  /-- Sensors that failed their self-check (R779). -/
  excluded : List Nat := []
  /-- Equivalent wear in units of 2^−32 s, and when it was last integrated (R774). -/
  wear : Nat := 0
  wearAt : Nat := 0
  /-- When the last daily margin plan ran; what plans have set beside `VDD_CORE`: tiles' clock targets in kHz where they are not
  1,625,000, and lanes' equalisation targets (R773). -/
  planAt : Nat := 0
  tileClk : Tab Nat := []
  laneEq : Tab Nat := []
  /-- AVSBus readbacks that have failed in a row, and the setpoint of `VDD_CORE` last confirmed by one, in mV (R789, R792). -/
  avsFails : Nat := 0
  avsSet : Nat := 720
  peers : Tab Peer := []
  peerAt : Nat := 0
  bridge : List Bridge := []
  /-- The time at which the last beacon of a port was due (R768). -/
  beaconAt : Tab Nat := []
  deriving DecidableEq, Repr

structure Boot where
  phase : Phase := .reset
  fwRunning : Bool := false
  imageB : Bool := false
  startCfg : Bool := false
  startDone : Bool := false
  lifeline : Bool := false
  releasedAt : Nat := 0
  /-- A departure holds the device in reset, and since when it has been absent (R756). -/
  monitor : Bool := false
  monitorAt : Nat := 0
  /-- Rails, in the order of Table 15-1, that the monitors do not see valid (R756, R796). -/
  invalid : List Nat := []
  deriving DecidableEq, Repr

/-- Levels of the input pins that commands act on. -/
structure Pins where
  resetN : Bool := false
  pwrFailN : Bool := true
  safeStopA : Bool := true
  safeStopB : Bool := true
  stopAckN : Bool := true
  /-- The pulse on `PPS_OUT` lasts until this time (R443). -/
  ppsOutUntil : Nat := 0
  /-- Extended time at which the output stage launched the last edge, `PPS_OUT_DELAY` ahead of the ball (R444). -/
  ppsLaunch : Nat := 0
  vstby : Bool := true
  deriving DecidableEq, Repr

/-- The device: everything but the queue of waiting commands. -/
structure Dev where
  /-- Every BAR0 register that is stored, by its byte address; an unlisted one holds its reset value. -/
  regs : Tab Word := []
  /-- Time in ps since the model's first reset; no reset turns it back (log entry 7). -/
  now : Nat := 0
  /-- The model's own counter behind `Config.freeNat`. -/
  freeCtr : Nat := 0
  pins : Pins := {}
  boot : Boot := {}
  ports : Tab PortSt := []
  modBus : Tab ModBus := []
  fwd : Fwd := {}
  buf : Buf := {}
  trl : Trellis := {}
  egr : Tab EgrPort := []
  time : TimeSt := {}
  safe : Safe := {}
  cc : Ctrl := {}
  host : HostIf := {}
  tel : Telem := {}
  health : Health := {}
  deriving DecidableEq, Repr

/-- The machine: the device and the commands that wait, first in first out. -/
structure State where
  dev : Dev := {}
  pending : List Instr := []
  deriving DecidableEq, Repr

/-- The machine right after reset: supplies valid, `RESET_N` about to be released, every register at its reset value
(Tables 02-5 to 14-13), every memory and queue empty, no command waiting. -/
def State.reset : State := {}

/-- Faults: the device runs every command it is sent, so no meaning raises one. Kept closed and empty of causes but
for the one the interface needs. -/
inductive Fault where
  /-- Raised by no meaning: the manual names no condition that halts the whole device with no further step. Safe. -/
  | halted
  deriving DecidableEq, Repr

/-- Why a command has no meaning. -/
inductive Refusal where
  /-- Raised by an arm of `exec` that has no meaning yet. Safe. -/
  | notModelled (mnemonic : String)
  /-- Raised by every meaning whose operand names a port, tile, thread or other instance the device does not have
  (Table 00-2 and the instance table of chapter 00). Safe: no such command exists. -/
  | illFormed
  deriving DecidableEq, Repr

end Sys2Proof.Machine
end

