-- ==== Sys2Proof/Machine/Bits.lean ====
section
/-! DEFINITION. Sparse tables, bit fields, byte order and the check sums that every chapter uses. -/

namespace Sys2Proof.Machine

/-! ## Sparse tables -/

/-- What a table lists for a number. -/
def tfind {α : Type} (t : Tab α) (k : Nat) : Option α :=
  match t with
  | [] => none
  | (a, v) :: r => if a = k then some v else tfind r k

/-- What stands at a number: the table's default where it lists nothing. -/
def tget {α : Type} (dflt : α) (t : Tab α) (k : Nat) : α := (tfind t k).getD dflt

/-- List a value at a number, in rising order. -/
def tins {α : Type} (t : Tab α) (k : Nat) (v : α) : Tab α :=
  match t with
  | [] => [(k, v)]
  | (a, w) :: r =>
    if k < a then (k, v) :: (a, w) :: r else if k = a then (k, v) :: r else (a, w) :: tins r k v

/-- Take a number out of a table. -/
def tdel {α : Type} (t : Tab α) (k : Nat) : Tab α :=
  match t with
  | [] => []
  | (a, w) :: r => if a = k then tdel r k else (a, w) :: tdel r k

/-- Write a value, keeping the canonical form: the default is not listed. -/
def tput {α : Type} [DecidableEq α] (dflt : α) (t : Tab α) (k : Nat) (v : α) : Tab α :=
  if v = dflt then tdel t k else tins t k v

/-- Change what stands at a number. -/
def tmod {α : Type} [DecidableEq α] (dflt : α) (t : Tab α) (k : Nat) (f : α → α) : Tab α :=
  tput dflt t k (f (tget dflt t k))

/-- Numbers strictly rise from a bound on. -/
def risingFrom {α : Type} (b : Nat) (t : Tab α) : Bool :=
  match t with
  | [] => true
  | (a, _) :: r => decide (b ≤ a) && risingFrom (a + 1) r

/-- The canonical form: numbers rise and nothing listed equals the default. -/
def tcanon {α : Type} [DecidableEq α] (dflt : α) (t : Tab α) : Bool :=
  risingFrom 0 t && t.all fun e => decide (e.2 ≠ dflt)

/-! ## Bits -/

/-- Bits [lo + w − 1 : lo] of a value. -/
def bits (v lo w : Nat) : Nat := (v >>> lo) % 2 ^ w

/-- Bit i of a value. -/
def bit (v i : Nat) : Bool := (v >>> i) % 2 = 1

/-- A value with bits [lo + w − 1 : lo] replaced. -/
def setBits (v lo w x : Nat) : Nat := v - (bits v lo w) <<< lo + (x % 2 ^ w) <<< lo

def b2n (b : Bool) : Nat := if b then 1 else 0

/-- A w-bit pattern read as a signed value. -/
def signed (w v : Nat) : Int := if v % 2 ^ w < 2 ^ (w - 1) then (v % 2 ^ w : Nat) else (v % 2 ^ w : Nat) - (2 ^ w : Nat)

/-- The w-bit pattern of a signed value. -/
def unsigned (w : Nat) (i : Int) : Nat := (i % (2 ^ w : Nat)).toNat

def two32 : Nat := 4294967296

/-- (a − b) mod 2^32. -/
def sub32 (a b : Nat) : Nat := (a % two32 + two32 - b % two32) % two32

/-- (a − b) mod 2^32, read as a signed 32-bit value. -/
def diff32 (a b : Nat) : Int := signed 32 (sub32 a b)

def ceilDiv (a b : Nat) : Nat := (a + b - 1) / b

/-- Saturate at a bound. -/
def sat (m v : Nat) : Nat := if v < m then v else m

/-- The bits of a value that are 1, in ascending order, among the lowest n. -/
def ones (n v : Nat) : List Nat := (List.range n).filter fun i => bit v i

/-- A bit set of numbers. -/
def bitSet (l : List Nat) : Nat := l.foldl (fun a i => a ||| (1 <<< i)) 0

/-! ## Bytes -/

/-- Little-endian value of a list of bytes. -/
def leVal (l : List Byte) : Nat := l.foldr (fun b a => b.toNat + 256 * a) 0

/-- Big-endian value of a list of bytes. -/
def beVal (l : List Byte) : Nat := l.foldl (fun a b => 256 * a + b.toNat) 0

/-- Little-endian value of n bytes at an offset (R9); bytes beyond the end count as 0. -/
def le (l : List Byte) (off n : Nat) : Nat := leVal ((l.drop off).take n)

/-- Network-order value of n bytes at an offset, all within the list. -/
def be (l : List Byte) (off n : Nat) : Nat := beVal ((l.drop off).take n)

def toLe (n v : Nat) : List Byte :=
  match n with
  | 0 => []
  | n + 1 => BitVec.ofNat 8 v :: toLe n (v / 256)

def toBe (n v : Nat) : List Byte := (toLe n v).reverse

def zeros (n : Nat) : List Byte := List.replicate n 0

/-- A list of bytes cut or padded with zeros to n bytes. -/
def padTo (n : Nat) (l : List Byte) : List Byte := l.take n ++ zeros (n - l.length)

/-- Bytes of a list with those from an offset replaced. -/
def overlay (l : List Byte) (off : Nat) (x : List Byte) : List Byte :=
  l.take off ++ x ++ l.drop (off + x.length)

/-! ## Check sums -/

/-- One bit of a reflected CRC. -/
def crcBitR (poly c : Nat) : Nat := if c % 2 = 1 then (c / 2) ^^^ poly else c / 2

def iter {α : Type} (n : Nat) (f : α → α) (x : α) : α :=
  match n with
  | 0 => x
  | n + 1 => iter n f (f x)

/-- Reflected CRC over bytes, without the final complement. -/
def crcR (poly init : Nat) (l : List Byte) : Nat :=
  l.foldl (fun c b => iter 8 (crcBitR poly) (c ^^^ b.toNat)) init

/-- The Ethernet CRC-32 of R89. -/
def crc32 (l : List Byte) : Nat := crcR 0xEDB88320 0xFFFFFFFF l ^^^ 0xFFFFFFFF

/-- The CRC-32C of R183. -/
def crc32c (l : List Byte) : Nat := crcR 0x82F63B78 0xFFFFFFFF l ^^^ 0xFFFFFFFF

/-- One bit of an unreflected CRC of w bits. -/
def crcBitN (w poly c : Nat) : Nat :=
  if bit c (w - 1) then ((c * 2) % 2 ^ w) ^^^ poly else (c * 2) % 2 ^ w

def crcN (w poly init : Nat) (l : List Byte) : Nat :=
  l.foldl (fun c b => iter 8 (crcBitN w poly) (c ^^^ (b.toNat <<< (w - 8)))) init

/-- CRC-64/ECMA-182 (R696). -/
def crc64 (l : List Byte) : Nat := crcN 64 0x42F0E1EBA9EA3693 0 l

/-- The black-box record's CRC (Table 13-5). -/
def crc16 (l : List Byte) : Nat := crcN 16 0x1021 0xFFFF l

/-- The FCS of a frame's bytes, in transmission order: least significant byte first. -/
def fcsOf (l : List Byte) : List Byte := toLe 4 (crc32 l)

/-- A frame, destination address through FCS, has a good FCS. -/
def fcsGood (l : List Byte) : Bool :=
  decide (4 ≤ l.length) && decide (l.drop (l.length - 4) = fcsOf (l.take (l.length - 4)))

/-- The ones' complement sum of 16-bit words in network order (IPv4 header checksum). -/
def sum16 (l : List Byte) : Nat :=
  match l with
  | [] => 0
  | [a] => a.toNat * 256
  | a :: b :: r => a.toNat * 256 + b.toNat + sum16 r

def fold16 (n : Nat) : Nat := iter 4 (fun v => v % 65536 + v / 65536) n

/-- An address is a group address: bit 0 of its first byte (network order, 48 bits). -/
def isGroup (mac : Nat) : Bool := bit mac 40

def broadcast : Nat := 0xFFFFFFFFFFFF

/-- First element that satisfies a test, with its position. -/
def findIdx {α : Type} (p : α → Bool) (l : List α) (i : Nat := 0) : Option Nat :=
  match l with
  | [] => none
  | x :: r => if p x then some i else findIdx p r (i + 1)

/-- Replace element i. -/
def setNth {α : Type} (l : List α) (i : Nat) (x : α) : List α :=
  l.take i ++ (if i < l.length then [x] else []) ++ l.drop (i + 1)

/-- Insert before the first element of a greater key. -/
def insertBy {α : Type} (k : α → Nat) (x : α) (l : List α) : List α :=
  match l with
  | [] => [x]
  | y :: r => if k x ≤ k y then x :: y :: r else y :: insertBy k x r

/-- Rising keys, equal ones in their order. -/
def sortBy {α : Type} (k : α → Nat) (l : List α) : List α := l.foldr (insertBy k) []

/-- floor(log2 x), 0 for 0. -/
def log2 (x : Nat) : Nat := Nat.log2 x

end Sys2Proof.Machine
end

