-- ==== Sys2Proof/Machine/RegMap.lean ====
section
/-! DEFINITION. The register map of BAR0: where every register of Tables 02-5 to 14-13 lies, its type (Table 11-3),
its reset value, and which of them the host writes (Table 11-4). Addresses are byte addresses in BAR0. -/

namespace Sys2Proof.Machine

/-- Register types (Tables 00-4 and 11-3). -/
inductive RegType where
  | cfg | mcfg | sts | cnt | evc | ack | cmd | ro
  deriving DecidableEq, Repr

namespace Reg

/-! ## Bases (R15, R17, chapters 02 to 14) -/

def port (p : Nat) : Nat := 0x80_0000 + 0x1000 * p
def tile (t : Nat) : Nat := 0x100_0000 + 0x10_0000 * t
def cplx (k : Nat) : Nat := 0x200_0000 + 0x10_0000 * k
def egr (p : Nat) : Nat := tile (p / 32) + 0x4000 + 0x80 * (p % 32)
def chan (n : Nat) : Nat := 0x40_0000 + 0x100 * n
def core (c : Nat) : Nat := 0x264_0000 + 0x4000 * c
def thr (n : Nat) : Nat := core (n / 8) + 0x40 * (n % 8)
def trapq (q : Nat) : Nat := 0x261_0000 + 0x20 * q
def ring (inj : Bool) (e : Nat) : Nat := (if inj then 0x1200 else 0x1000) + 0x40 * e
def mgmt (n : Nat) : Nat := 0x20_0A00 + 0x80 * n
def outStage (t : Nat) : Nat := 0x30_2000 + 0x40 * t
def guard (g : Nat) : Nat := 0x30_1000 + 0x100 * g

/-! ## System block (Table 11-9) -/

def sysScratch : Nat := 0x10
def parEvc : Nat := 0x40
def parAck : Nat := 0x44
def parLast : Nat := 0x48
def parRec : Nat := 0x4C
def parLost : Nat := 0x50
def parHist (i : Nat) : Nat := 0x80 + 4 * i
def buserrEvc : Nat := 0xC0
def buserrAck : Nat := 0xC4
def buserrLast : Nat := 0xC8
def buserrReq : Nat := 0xCC
def fwEvc : Nat := 0xD0
def fwAck : Nat := 0xD4
def irqEn (v : Nat) : Nat := 0x100 + 4 * v
def irqSts (v : Nat) : Nat := 0x200 + 4 * v
def irqArm : Nat := 0x300
def irqArmedLo : Nat := 0x304
def irqArmedHi : Nat := 0x308
def irqMsgCnt : Nat := 0x30C
def irqLinkSum (t : Nat) : Nat := 0x400 + 4 * t

/-! ## Ring registers (Table 11-11): offsets from `Reg.ring` -/

def rCfg : Nat := 0x08
def rPost : Nat := 0x0C
def rEvc : Nat := 0x10
def rAck : Nat := 0x14
def rSts : Nat := 0x18
def rBad : Nat := 0x1C

/-! ## Time-stamping unit (Table 08-8) -/

def tsu : Nat := 0x10_0000
def tsuNs : Nat := tsu
def tsuWrap : Nat := tsu + 0x04
def tsuCtl : Nat := tsu + 0x08
def tsuIncFrac : Nat := tsu + 0x0C
def tsuSlewFrac : Nat := tsu + 0x10
def tsuCmd : Nat := tsu + 0x20
def tsuSlewTicks : Nat := tsu + 0x14
def tsuStep : Nat := tsu + 0x18
def tsuStepAt : Nat := tsu + 0x1C
def tsuSts : Nat := tsu + 0x24
def tsuAdjEvc : Nat := tsu + 0x28
def tsuCapCmd : Nat := tsu + 0x30
def tsuCapNs : Nat := tsu + 0x34
def tsuCapWrap : Nat := tsu + 0x38
def tsuCapFrac : Nat := tsu + 0x3C
def tsuCapSeq : Nat := tsu + 0x40
def tsuSlewLeft : Nat := tsu + 0x44
def ppsOutNext : Nat := tsu + 0x80
def ppsOutCfg : Nat := tsu + 0x84
def ppsOutDelay : Nat := tsu + 0x88
def ppsOutTs : Nat := tsu + 0x8C
def ppsTs (b : Bool) : Nat := tsu + 0x90 + 4 * b2n b
def ppsEvc (b : Bool) : Nat := tsu + 0x98 + 8 * b2n b
def ppsMiss (b : Bool) : Nat := tsu + 0xA8 + 4 * b2n b
def refCfg (r : Nat) : Nat := tsu + 0x100 + 0x20 * r
def refPpsDelay (r : Nat) : Nat := tsu + 0x104 + 0x20 * r
def refSts (r : Nat) : Nat := tsu + 0x108 + 0x20 * r
def refOffset (r : Nat) : Nat := tsu + 0x10C + 0x20 * r
def refAvg16 (r : Nat) : Nat := tsu + 0x110 + 0x20 * r
def refStateEvc (r : Nat) : Nat := tsu + 0x114 + 0x20 * r
def refGates (r : Nat) : Nat := tsu + 0x11C + 0x20 * r
def selCfg : Nat := tsu + 0x180
def selSts : Nat := tsu + 0x184
def selEvc : Nat := tsu + 0x188
def tsPortCfg (p : Nat) : Nat := tsu + 0x1000 + 8 * p
def tsTrim (p : Nat) : Nat := tsu + 0x1004 + 8 * p
def tsLinkDelay (p : Nat) : Nat := tsu + 0x2000 + 8 * p
def tsCfSat (p : Nat) : Nat := tsu + 0x2004 + 8 * p

/-! ## Housekeeping block (Tables 14-12, 08-11, 13-10) -/

def hk : Nat := 0x20_0000
def hkState : Nat := hk
def hkBootMs : Nat := hk + 0x04
def hkFault : Nat := hk + 0x08
def thermSts : Nat := hk + 0x10
def thermEvc : Nat := hk + 0x14
def thermAck : Nat := hk + 0x18
def thermPeak : Nat := hk + 0x1C
def thermSec95 : Nat := hk + 0x20
def thermSec103 : Nat := hk + 0x24
def thermSensor (i : Nat) : Nat := hk + 0x40 + 4 * i
def ageWear : Nat := hk + 0x100
def ageLife : Nat := hk + 0x104
def agePlanSeq : Nat := hk + 0x108
def avsVout : Nat := hk + 0x10C
def ageRo (j : Nat) : Nat := hk + 0x200 + 4 * j
def calNow0 : Nat := hk + 0x400
def calNow1 : Nat := hk + 0x404
def calSecLo : Nat := hk + 0x408
def calSecHi : Nat := hk + 0x40C
def calStage0 : Nat := hk + 0x410
def calStage1 : Nat := hk + 0x414
def calLoadCmd : Nat := hk + 0x418
def calSts : Nat := hk + 0x41C
def calLoadEvc : Nat := hk + 0x420
def calLoadAck : Nat := hk + 0x424
def calRejectEvc : Nat := hk + 0x428
def calRejectAck : Nat := hk + 0x42C
def stbyEpoch : Nat := hk + 0x430
def vintPeer (k : Nat) : Nat := hk + 0x600 + 4 * k
def bbSeq : Nat := hk + 0x800
def bbLost : Nat := hk + 0x804
def bbCopySts : Nat := hk + 0x808
def bbCopyEvc : Nat := hk + 0x80C

/-! ## Safety block (Table 09-12) -/

def safe : Nat := 0x30_0000
def safeSts : Nat := safe
def guardSts (g : Nat) : Nat := safe + 4 + 4 * g
def degradeLeft : Nat := safe + 0x0C
def proofSts : Nat := safe + 0x10
def safeVintage : Nat := safe + 0x14
def safeDigestLo : Nat := safe + 0x18
def safeDigestHi : Nat := safe + 0x1C
def safeStopCfg : Nat := safe + 0x20
def safeDegradeCfg : Nat := safe + 0x24
def safeFaultEvc : Nat := safe + 0x40
def stopEvc : Nat := safe + 0x48
def discEvc : Nat := safe + 0x50
def stopAckIgnored : Nat := safe + 0x58
def hkSealErr : Nat := safe + 0x5C

/-! ## Mailbox channel registers (Table 12-1): offsets from `Reg.chan` -/

def mCfg : Nat := 0x10
def mPost : Nat := 0x14
def mTaken : Nat := 0x18
def mRspEvc : Nat := 0x1C
def mRspAck : Nat := 0x20
def mSts : Nat := 0x24
def mErrCnt : Nat := 0x28
def ntfCfg : Nat := 0x40_0048
def ntfLost : Nat := 0x40_004C

/-! ## Port registers (Tables 02-5 and 02-8): offsets from `Reg.port` -/

def pMode : Nat := 0x04
def pLaneMap : Nat := 0x08
def pMm : Nat := 0x0C
def pSts : Nat := 0x10
def pLinkEvc : Nat := 0x14
def pLinkAck : Nat := 0x18
def pHalfEvc : Nat := 0x1C
def pHalf0 : Nat := 0x24
def pLanePol : Nat := 0x2C
def pGaf (n : Nat) : Nat := 0x800 + 4 * n

def rxFramesOk : Nat := 0x100
def rxBytesOk : Nat := 0x104
def rxUcast : Nat := 0x10C
def rxMcast : Nat := 0x110
def rxBcast : Nat := 0x114
def rxSize (i : Nat) : Nat := 0x118 + 4 * i
def rxUndersize : Nat := 0x13C
def rxFragment : Nat := 0x140
def rxOversize : Nat := 0x144
def rxFcsErr : Nat := 0x148
def rxPause : Nat := 0x158
def rxPfc : Nat := 0x15C
def rxGafDrop : Nat := 0x160
def rxMmFrag : Nat := 0x164
def rxMmAssyErr : Nat := 0x168
def txFramesOk : Nat := 0x16C
def txBytesOk : Nat := 0x170
def txBytesAll : Nat := 0x178
def txUcast : Nat := 0x180
def txMcast : Nat := 0x184
def txBcast : Nat := 0x188
def txSize (i : Nat) : Nat := 0x18C + 4 * i
def txCorked : Nat := 0x1B0
def txPause : Nat := 0x1B4
def txPfc : Nat := 0x1B8
def txMmFrag : Nat := 0x1BC
def txMmPreempt : Nat := 0x1C0
def mmVerifyTx : Nat := 0x1C4
def mmVerifyRx : Nat := 0x1C8
def linkDownCnt : Nat := 0x1CC
def trainAbandon : Nat := 0x1D0
def rxPcsErr : Nat := 0x14C
def rxFecCorr : Nat := 0x150
def rxFecUncorr : Nat := 0x154
def rxDisabledDrop : Nat := 0x1D4
def rxBytesAll : Nat := 0x1D8

/-! ## Tile registers (Tables 03-12, 04-11, 05-8, 07-12, 13-6a): offsets from `Reg.tile` -/

def portRuleCfg (p : Nat) : Nat := tile (p / 32) + 0x2000 + 4 * (p % 32)
def parseRtEtype (i : Nat) : Nat := 0x2100 + 4 * i
def patSts : Nat := 0x2200
def patSwapEvc : Nat := 0x2204
def parseFailCnt (i : Nat) : Nat := 0x2300 + 4 * i
def portL2Cfg (p : Nat) : Nat := tile (p / 32) + 0x2400 + 4 * (p % 32)
def bufSts : Nat := 0x3000
def bufUse0 : Nat := 0x3004
def bufUse1 : Nat := 0x3008
def bufPart : Nat := 0x300C
def tenantBufCfg (t : Nat) : Nat := 0x3040 + 4 * t
def tenantBufUsed (t : Nat) : Nat := 0x3080 + 4 * t
def classBufCfg (c : Nat) : Nat := 0x30C0 + 4 * c
def spillCfg (c : Nat) : Nat := 0x30E0 + 4 * c
def overageLimit (c : Nat) : Nat := 0x3100 + 4 * c
def portTenant (n : Nat) : Nat := 0x3120 + 4 * n
def portPfcCfg (p : Nat) : Nat := tile (p / 32) + 0x3200 + 4 * (p % 32)
def portPfcHr (p : Nat) : Nat := tile (p / 32) + 0x3280 + 4 * (p % 32)
def dropThresh : Nat := 0x3300
def dropTenantCap : Nat := 0x3304
def dropHeadroom : Nat := 0x3308
def dropTc7Pool : Nat := 0x330C
def dropOverage : Nat := 0x3310
def dropCellarQuota : Nat := 0x3314
def dropCellarInteg : Nat := 0x3318
def cellEccCorr : Nat := 0x331C
def cellEccUncorr : Nat := 0x3320
def spillCnt : Nat := 0x3324
def cellarHeadEmpty : Nat := 0x3328
def pfcXoffCnt : Nat := 0x332C
def dropLinkDown : Nat := 0x3330
def leesCellEvc : Nat := 0x3340
def leesCellLast : Nat := 0x3348
def leesCellReclaim : Nat := 0x334C
def tasteCfg (c : Nat) : Nat := 0x5000 + 4 * c
def tasteEvc : Nat := 0x5020
def tasteAck : Nat := 0x5024
def tasteDrop : Nat := 0x5028
/-- Counter w of stream filter f: 0 WIN_PASS, 1 WIN_TOL, 2 WIN_EARLY, 3 WIN_LATE. -/
def winCnt (f w : Nat) : Nat := 0x6000 + 16 * f + 4 * w
def tasteRing (i : Nat) : Nat := 0xA000 + 8 * i
def mirCopies (s : Nat) : Nat := 0xC000 + 8 * s
def mirDrop (s : Nat) : Nat := 0xC004 + 8 * s

/-! ## Egress port registers (Table 07-9): offsets from `Reg.egr` -/

def eCfg : Nat := 0x00
def eSts : Nat := 0x04
def eVtime : Nat := 0x08
def eClass (c : Nat) : Nat := 0x10 + 4 * c
def eShRate (s : Nat) : Nat := 0x30 + 8 * s
def eShBurst (s : Nat) : Nat := 0x34 + 8 * s
def eGateCycle : Nat := 0x70
def eGateSwitchEvc : Nat := 0x74
def eHoldCnt : Nat := 0x7C

/-! ## Complex registers (Tables 04-8, 03-14, 13-11): offsets from `Reg.cplx` -/

def fdbSts : Nat := 0x00
def fdbUsed : Nat := 0x04
def fdbLearnCnt : Nat := 0x08
def fdbMoveCnt : Nat := 0x0C
def fdbLearnDrop : Nat := 0x10
def fdbBucketFull : Nat := 0x14
def fdbStaticViol : Nat := 0x18
def fdbBadSa : Nat := 0x1C
def fdbUnknownDa : Nat := 0x20
def fdbSamePort : Nat := 0x24
def vlanIngressDrop : Nat := 0x28
def learnqEvc : Nat := 0x2C
def learnqAck : Nat := 0x30
def fdbRouterDrop : Nat := 0x34
def lpmUnitsUsed : Nat := 0x40
def lpmCamUsed : Nat := 0x44
def lpmProbeOverrun : Nat := 0x48
def lpmFilterFp : Nat := 0x4C
def routeMissCnt : Nat := 0x50
def nhUnresolvedCnt : Nat := 0x54
def pathFailoverCnt : Nat := 0x58
def pathNoMember : Nat := 0x5C
def hashSeedA : Nat := 0x60
def hashSeedB : Nat := 0x64
def hashCfg : Nat := 0x68
def ruleProfCfg (n : Nat) : Nat := 0x4_0000 + 4 * n
def ruleProfMask (n w : Nat) : Nat := 0x4_0100 + 0x40 * n + 4 * w
def ruleSts : Nat := 0x4_0800
def rulePauseCnt : Nat := 0x4_0804
def ruleMultiCnt : Nat := 0x4_0808
def ruleRedDrop : Nat := 0x4_080C
def ruleHalfEvc : Nat := 0x4_0810
def ruleHalfRing (i : Nat) : Nat := 0x4_0C00 + 4 * i
def ruleFrames (g : Nat) : Nat := 0x8_0000 + 16 * g
def ruleBytes (g : Nat) : Nat := 0x8_0004 + 16 * g
def hhSeed : Nat := 0x5_0000
def hhSts : Nat := 0x5_0004
def hhSwapEvc : Nat := 0x5_0008
def hhTotalLo : Nat := 0x5_0010

/-! ## Trellis (Table 06-4) and cellar (Table 05-11) -/

def trellisCfg : Nat := 0x240_0000
def trellisSts : Nat := 0x240_0004
def trSlots : Nat := 0x240_0010
/-- Bunch counters by pass: 0 TC7, 1 TC7 late, 2 continuation, 3 to 5 iterations 1 to 3. -/
def trBunch (i : Nat) : Nat := 0x240_0014 + 4 * i
def trBunchPart : Nat := 0x240_002C
def trBunchEmpty : Nat := 0x240_0030
def trHoldCnt : Nat := 0x240_0034
def trHdrErr : Nat := 0x240_0038
def trHdrEvc : Nat := 0x240_0040
def trSrcBunch (t : Nat) : Nat := 0x240_0080 + 4 * t
def trDstBunch (t : Nat) : Nat := 0x240_00C0 + 4 * t

def cellar : Nat := 0x250_0000
def cellarSts : Nat := cellar
def cellarFreeRacks (s : Nat) : Nat := cellar + 0x10 + 4 * s
def tenantCellarQuota (t : Nat) : Nat := cellar + 0x40 + 4 * t
def tenantCellarUsed (t : Nat) : Nat := cellar + 0x80 + 4 * t
def cellarFullCnt : Nat := cellar + 0xC0
def rackFrameBytes : Nat := cellar + 0xC4
def rackStreamBytes : Nat := cellar + 0xCC
def cellarWakeCnt : Nat := cellar + 0xD8
def leesRackEvc : Nat := cellar + 0xE0
def leesRackLast : Nat := cellar + 0xE8
def leesRackReclaim : Nat := cellar + 0xEC

/-! ## Guards and output stages (Table 09-12): offsets from `Reg.guard` and `Reg.outStage` -/

def gFrames : Nat := 0x00
def gMasq : Nat := 0x04
def gUnknown : Nat := 0x08
def gLenDrop : Nat := 0x0C
def gWinEarly : Nat := 0x10
def gWinLate : Nat := 0x14
def gWinTol : Nat := 0x18
def gBudgetDrop : Nat := 0x1C
def gDupDrop : Nat := 0x20
def gRogueDrop : Nat := 0x24
def gSealErr : Nat := 0x28
def osFwd : Nat := 0x00
def osMismatch : Nat := 0x04
def osDecMissing : Nat := 0x08
def osTieDrop : Nat := 0x0C
def osSafestateDrop : Nat := 0x10
def osPortErr : Nat := 0x14
def osDigestErr : Nat := 0x18
def osDupDrop : Nat := 0x1C
def osLateDrop : Nat := 0x20
def osLeakDrop : Nat := 0x24
def osTelegrams : Nat := 0x28
def osStopTrunc : Nat := 0x2C

/-! ## Control complex (Tables 10-13, 10-14, 03-16) -/

def cc : Nat := 0x260_0000
def ccSts : Nat := cc
def cmWdog : Nat := cc + 0x18
def ccFaulted : Nat := cc + 0x04
def ccFaultEvc : Nat := cc + 0x08
def ccCycleLo : Nat := cc + 0x10
def ccCycleHi : Nat := cc + 0x14
def cmRestartCnt : Nat := cc + 0x1C
def perfUserPerm : Nat := cc + 0x20
def perfDenied : Nat := cc + 0x24
def coopPoolSts (p : Nat) : Nat := cc + 0x40 + 4 * p
def coopPoolFail (p : Nat) : Nat := cc + 0x60 + 4 * p
def coopQuotaFail : Nat := cc + 0x80
def coopBadFree : Nat := cc + 0x84
def coopBadFreeLast : Nat := cc + 0x88
def coopQuota (r : Nat) : Nat := cc + 0x100 + 4 * r
def coopUsed (r : Nat) : Nat := cc + 0x200 + 4 * r
def ccEvtRoute (s : Nat) : Nat := cc + 0x400 + 4 * s
def tqFrames : Nat := 0x00
def tqOverLimit : Nat := 0x04
def tqOvfDrop : Nat := 0x08
def tqDepth : Nat := 0x0C

/-- Offsets from `Reg.thr`. -/
def tState : Nat := 0x00
def tPc : Nat := 0x04
def tTvec : Nat := 0x08
def tStkLo : Nat := 0x0C
def tStkHi : Nat := 0x10
def tRestartVec : Nat := 0x14
def tTcmp : Nat := 0x18
def tEvtPend : Nat := 0x1C
def tEvtMask : Nat := 0x20
def tFltPc : Nat := 0x24
def tFltCause : Nat := 0x28
def tFltSp : Nat := 0x2C
def tSampleCfg : Nat := 0x34
def tPerfPerm : Nat := 0x38

/-- Guest regions of core 3 (g = thread − 28). -/
def rgnBase (g i : Nat) : Nat := core 3 + 0x200 + 0x80 * g + 8 * i
def rgnLimit (g i : Nat) : Nat := core 3 + 0x204 + 0x80 * g + 8 * i
def rgnPost (g : Nat) : Nat := core 3 + 0x240 + 0x80 * g
def rgnDenied (g : Nat) : Nat := core 3 + 0x244 + 0x80 * g

/-- Offsets from `Reg.core`. -/
def spmSts : Nat := 0x400
def spmColl : Nat := 0x404
def spmEccCorr : Nat := 0x408
def spmEccUncorr : Nat := 0x40C
def spmTestEvc : Nat := 0x410
def spmTestLast : Nat := 0x418
def corePwr : Nat := 0x41C
def coreWakeCnt : Nat := 0x420
/-- Performance counter e of thread n of the device. -/
def perf (n e : Nat) : Nat := core (n / 8) + 0x1000 + 0x40 * (n % 8) + 4 * e

/-! ## Snapshot bank (Tables 13-1 and 13-7) -/

def snapCmd : Nat := 0x3FF_F000
def snapSts : Nat := 0x3FF_F004
def snapSeq : Nat := 0x3FF_F008
def snapTimeLo : Nat := 0x3FF_F00C
def snapTimeHi : Nat := 0x3FF_F010
def totalsSeq : Nat := 0x3FF_F020
def totalsSnap : Nat := 0x3FF_F024
def tasteLogW : Nat := 0x3FF_F030

/-! ## Types by address -/

/-- First range of a table that holds an offset; ranges are (first, last, type). -/
def inTab (l : List (Nat × Nat × RegType)) (o : Nat) : Option RegType :=
  match l with
  | [] => none
  | (a, b, t) :: r => if a ≤ o ∧ o ≤ b then some t else inTab r o

/-- Table 11-9 and the rings (R676). -/
def sysKind (o : Nat) : Option RegType :=
  if 0x1000 ≤ o ∧ o < 0x1400 then
    inTab [(0, 0xC, .cfg), (0x10, 0x10, .evc), (0x14, 0x14, .ack), (0x18, 0x18, .sts), (0x1C, 0x1C, .cnt)] (o % 0x40)
  else
    inTab [(0, 0xC, .ro), (0x10, 0x10, .cfg), (0x40, 0x40, .evc), (0x44, 0x44, .ack), (0x48, 0x48, .sts),
      (0x4C, 0x50, .cnt), (0x80, 0xBC, .sts), (0xC0, 0xC0, .evc), (0xC4, 0xC4, .ack), (0xC8, 0xCC, .sts),
      (0xD0, 0xD0, .evc), (0xD4, 0xD4, .ack), (0x100, 0x18C, .mcfg), (0x200, 0x28C, .sts), (0x300, 0x300, .cmd),
      (0x304, 0x308, .sts), (0x30C, 0x30C, .cnt), (0x400, 0x43C, .sts)] o

/-- Table 08-8 (R478). -/
def tsuKind (o : Nat) : Option RegType :=
  if o < 0x100 then
    inTab [(0, 4, .sts), (8, 0x1C, .cfg), (0x20, 0x20, .cmd), (0x24, 0x24, .sts), (0x28, 0x28, .evc),
      (0x2C, 0x2C, .ack), (0x30, 0x30, .cmd), (0x34, 0x3C, .sts), (0x40, 0x40, .cnt), (0x44, 0x44, .sts),
      (0x80, 0x88, .cfg), (0x8C, 0x94, .sts), (0x98, 0x98, .evc), (0x9C, 0x9C, .ack), (0xA0, 0xA0, .evc),
      (0xA4, 0xA4, .ack), (0xA8, 0xAC, .cnt)] o
  else if o < 0x180 then
    if (o % 0x20 = 4) ∧ 0x140 ≤ o then none
    else inTab [(0, 4, .cfg), (8, 0x10, .sts), (0x14, 0x14, .evc), (0x18, 0x18, .ack), (0x1C, 0x1C, .cnt)] (o % 0x20)
  else if o < 0x190 then inTab [(0x180, 0x180, .cfg), (0x184, 0x184, .sts), (0x188, 0x188, .evc), (0x18C, 0x18C, .ack)] o
  else if 0x1000 ≤ o ∧ o < 0x2000 then some .cfg
  else if 0x2000 ≤ o ∧ o < 0x3000 then some (if o % 8 = 0 then .cfg else .cnt)
  else none

/-- Tables 14-12, 08-11, 13-10 and 02-10 (R786, R478, R751, R62). -/
def hkKind (o : Nat) : Option RegType :=
  if 0xA00 ≤ o ∧ o < 0xB00 then
    inTab [(0, 0, .cfg), (4, 4, .sts), (8, 8, .cfg), (0x10, 0x30, .cnt)] (o % 0x80)
  else
    inTab [(0, 8, .sts), (0x10, 0x10, .sts), (0x14, 0x14, .evc), (0x18, 0x18, .ack), (0x1C, 0x1C, .sts),
      (0x20, 0x24, .cnt), (0x40, 0xD0, .sts), (0x100, 0x10C, .sts), (0x200, 0x37C, .sts), (0x400, 0x40C, .sts),
      (0x410, 0x414, .cfg), (0x418, 0x418, .cmd), (0x41C, 0x41C, .sts), (0x420, 0x420, .evc), (0x424, 0x424, .ack),
      (0x428, 0x428, .evc), (0x42C, 0x42C, .ack), (0x430, 0x430, .sts), (0x600, 0x6FC, .sts), (0x800, 0x800, .sts),
      (0x804, 0x804, .cnt), (0x808, 0x808, .sts), (0x80C, 0x80C, .evc), (0x810, 0x810, .ack),
      (0x1_0000, 0x2_FFFF, .sts), (0x4_0000, 0x5_FFFF, .sts)] o

/-- Table 09-12 (R566). -/
def safeKind (o : Nat) : Option RegType :=
  if 0x1000 ≤ o ∧ o < 0x1200 then inTab [(0, 0x28, .cnt)] (o % 0x100)
  else if 0x2000 ≤ o ∧ o < 0x2400 then inTab [(0, 0x2C, .cnt)] (o % 0x40)
  else inTab [(0, 0x1C, .sts), (0x20, 0x24, .cfg), (0x40, 0x40, .evc), (0x44, 0x44, .ack), (0x48, 0x48, .evc),
      (0x4C, 0x4C, .ack), (0x50, 0x50, .evc), (0x54, 0x54, .ack), (0x58, 0x5C, .cnt)] o

/-- Table 12-1 (R677). -/
def mbxKind (o : Nat) : Option RegType :=
  if 0x1000 ≤ o then none
  else if 0x40 ≤ o % 0x100 ∧ 0x100 ≤ o then none
  else inTab [(0, 0x14, .cfg), (0x18, 0x18, .sts), (0x1C, 0x1C, .evc), (0x20, 0x20, .ack), (0x24, 0x24, .sts),
      (0x28, 0x28, .cnt), (0x40, 0x48, .cfg), (0x4C, 0x4C, .cnt)] (o % 0x100)

/-- Table 02-5 (R91). -/
def portKind (o : Nat) : Option RegType :=
  inTab [(0, 0, .ro), (4, 0xC, .cfg), (0x10, 0x10, .sts), (0x14, 0x14, .evc), (0x18, 0x18, .ack), (0x1C, 0x1C, .evc),
    (0x20, 0x20, .ack), (0x24, 0x28, .sts), (0x2C, 0x2C, .cfg), (0x100, 0x1DC, .cnt), (0x800, 0x9FC, .cfg)] o

/-- Tables 03-12, 04-11, 05-8, 07-9, 07-12 and 13-6a (R170, R241, R309, R409, R751). -/
def tileKind (o : Nat) : Option RegType :=
  if 0x4000 ≤ o ∧ o < 0x5000 then
    inTab [(0, 0, .cfg), (4, 0xC, .sts), (0x10, 0x6C, .cfg), (0x70, 0x70, .cnt), (0x74, 0x74, .evc), (0x78, 0x78, .ack),
      (0x7C, 0x7C, .cnt)] (o % 0x80)
  else
    inTab [(0x2000, 0x207C, .cfg), (0x2100, 0x213C, .cfg), (0x2200, 0x2200, .sts), (0x2204, 0x2204, .evc),
      (0x2208, 0x2208, .ack), (0x2300, 0x2334, .cnt), (0x2400, 0x247C, .cfg), (0x3000, 0x300C, .sts),
      (0x3040, 0x307C, .cfg), (0x3080, 0x30BC, .sts), (0x30C0, 0x30DC, .cfg), (0x30E0, 0x30F8, .cfg),
      (0x3100, 0x3118, .cfg), (0x3120, 0x312C, .cfg), (0x3200, 0x327C, .cfg), (0x3280, 0x32FC, .cfg),
      (0x3300, 0x3330, .cnt), (0x3340, 0x3340, .evc), (0x3344, 0x3344, .ack), (0x3348, 0x3348, .sts),
      (0x334C, 0x334C, .cnt), (0x5000, 0x501C, .cfg), (0x5020, 0x5020, .evc), (0x5024, 0x5024, .ack),
      (0x5028, 0x5028, .cnt), (0x6000, 0x9FFC, .cnt), (0xA000, 0xBFFC, .sts), (0xC000, 0xC07C, .cnt)] o

/-- Tables 04-8, 03-14 and 13-11 (R241, R170, R751). -/
def cplxKind (o : Nat) : Option RegType :=
  if 0x8_0000 ≤ o then if o % 16 = 12 then none else some .cnt
  else if 0x4_0100 ≤ o ∧ o < 0x4_0500 then if o % 0x40 < 0x28 then some .cfg else none
  else
    inTab [(0, 4, .sts), (8, 0x28, .cnt), (0x2C, 0x2C, .evc), (0x30, 0x30, .ack), (0x34, 0x34, .cnt), (0x40, 0x44, .sts),
      (0x48, 0x5C, .cnt), (0x60, 0x68, .cfg), (0x4_0000, 0x4_003C, .cfg), (0x4_0800, 0x4_0800, .sts),
      (0x4_0804, 0x4_080C, .cnt), (0x4_0810, 0x4_0810, .evc), (0x4_0814, 0x4_0814, .ack), (0x4_0C00, 0x4_0FFC, .sts),
      (0x5_0000, 0x5_0000, .cfg), (0x5_0004, 0x5_0004, .sts), (0x5_0008, 0x5_0008, .evc), (0x5_000C, 0x5_000C, .ack),
      (0x5_0010, 0x5_0014, .sts), (0x6_0000, 0x7_FFFF, .sts)] o

/-- Tables 06-4 and 05-11 (R339, R309). -/
def trellisKind (o : Nat) : Option RegType :=
  inTab [(0, 0, .cfg), (4, 4, .sts), (0x10, 0x38, .cnt), (0x40, 0x40, .evc), (0x44, 0x44, .ack), (0x80, 0xFC, .cnt)] o

def cellarKind (o : Nat) : Option RegType :=
  inTab [(0, 0, .sts), (0x10, 0x1C, .sts), (0x40, 0x7C, .cfg), (0x80, 0xBC, .sts), (0xC0, 0xD0, .cnt), (0xD8, 0xD8, .cnt),
    (0xE0, 0xE0, .evc), (0xE4, 0xE4, .ack), (0xE8, 0xE8, .sts), (0xEC, 0xEC, .cnt)] o

/-- Table 10-14: block of core c. -/
def coreKind (c o : Nat) : Option RegType :=
  if o < 0x200 then
    inTab [(0, 4, .sts), (8, 0x14, .cfg), (0x18, 0x2C, .sts), (0x30, 0x30, .cmd), (0x34, 0x38, .cfg)] (o % 0x40)
  else if o < 0x400 then
    if c = 3 then inTab [(0, 0x40, .cfg), (0x44, 0x44, .sts)] (o % 0x80) else none
  else if 0x1000 ≤ o ∧ o < 0x1200 then some .cnt
  else inTab [(0x400, 0x400, .sts), (0x404, 0x40C, .cnt), (0x410, 0x410, .evc), (0x414, 0x414, .ack),
    (0x418, 0x418, .sts), (0x41C, 0x41C, .cfg), (0x420, 0x420, .cnt)] o

/-- Tables 10-11, 10-13, 10-14 and 03-16 (R627). -/
def ccKind (o : Nat) : Option RegType :=
  if 0x20_0000 ≤ o then if o < 0x40_0000 then some .sts else none
  else if 0x4_0000 ≤ o ∧ o < 0x5_0000 then coreKind ((o - 0x4_0000) / 0x4000) (o % 0x4000)
  else if 0x1_0000 ≤ o ∧ o < 0x1_0100 then inTab [(0, 8, .cnt), (0xC, 0xC, .sts)] (o % 0x20)
  else if 0x2_0000 ≤ o ∧ o < 0x2_0800 then some .sts
  else inTab [(0, 4, .sts), (8, 8, .evc), (0xC, 0xC, .ack), (0x10, 0x14, .sts), (0x18, 0x18, .cmd), (0x1C, 0x1C, .cnt),
    (0x20, 0x20, .cfg), (0x24, 0x24, .cnt), (0x40, 0x4C, .sts), (0x60, 0x6C, .cnt), (0x80, 0x84, .cnt), (0x88, 0x88, .sts),
    (0x100, 0x1FC, .cfg), (0x200, 0x2FC, .sts), (0x400, 0x478, .cfg)] o

/-- Registers outside the snapshot bank. -/
def plainKind (a : Nat) : Option RegType :=
  if a < 0x10_0000 then sysKind a
  else if a < 0x20_0000 then tsuKind (a - 0x10_0000)
  else if a < 0x30_0000 then hkKind (a - 0x20_0000)
  else if a < 0x40_0000 then safeKind (a - 0x30_0000)
  else if a < 0x80_0000 then mbxKind (a - 0x40_0000)
  else if a < 0xA0_0000 then portKind ((a - 0x80_0000) % 0x1000)
  else if a < 0x100_0000 then none
  else if a < 0x200_0000 then tileKind (a % 0x10_0000)
  else if a < 0x240_0000 then cplxKind (a % 0x10_0000)
  else if a < 0x250_0000 then trellisKind (a - 0x240_0000)
  else if a < 0x260_0000 then cellarKind (a - 0x250_0000)
  else if a < 0x300_0000 then ccKind (a - 0x260_0000)
  else none

/-- The source of a bank address of the hardware region (Table 13-1). -/
def bankSource (a : Nat) : Option Nat :=
  let o := a - 0x300_0000
  if a < 0x300_0000 then none
  else if o < 0x2_0000 then some (0x80_0000 + 0x1000 * (o / 0x100) + 0x100 + o % 0x100)
  else if o < 0x12_0000 then
    let t := (o - 0x2_0000) / 0x1_0000
    some (tile t + 0x2000 + (o - 0x2_0000) % 0x1_0000)
  else if o < 0x12_2000 then some (o - 0x12_0000)
  else if o < 0x12_3000 then some (0x40_0000 + (o - 0x12_2000))
  else if 0x12_4000 ≤ o ∧ o < 0x12_4100 then some (0x240_0000 + (o - 0x12_4000))
  else if 0x12_5000 ≤ o ∧ o < 0x12_5100 then some (0x250_0000 + (o - 0x12_5000))
  else if 0x13_0000 ≤ o ∧ o < 0x13_3000 then some (0x30_0000 + (o - 0x13_0000))
  else if 0x14_2000 ≤ o ∧ o < 0x14_3000 then some (0x10_0000 + (o - 0x14_0000))
  else if 0x16_0000 ≤ o ∧ o < 0x1B_0000 then some (0x260_0000 + (o - 0x16_0000))
  else if 0x1C_0000 ≤ o ∧ o < 0x1C_4000 then
    let k := (o - 0x1C_0000) / 0x1000
    let r := o % 0x1000
    if r < 0x100 then some (cplx k + r)
    else if 0x800 ≤ r ∧ r < 0x900 then some (cplx k + 0x4_0800 + (r - 0x800)) else none
  else if 0x20_0000 ≤ o ∧ o < 0x40_0000 then
    some (cplx ((o - 0x20_0000) / 0x8_0000) + 0x8_0000 + (o - 0x20_0000) % 0x8_0000)
  else none

/-- The snapshot copies this register: a CNT register that a row of Table 13-1 maps (R712). -/
def snapped (a : Nat) : Bool :=
  decide (plainKind a = some .cnt) && !decide (0x10_0000 ≤ a ∧ a < 0x30_0000 ∧ ¬ (0x10_2000 ≤ a ∧ a < 0x10_3000))

/-- Low word of a 48-bit counter (R94). -/
def isByteCnt (a : Nat) : Bool :=
  if 0x80_0000 ≤ a ∧ a < 0xA0_0000 then [rxBytesOk, txBytesOk, txBytesAll, rxBytesAll].contains (a % 0x1000)
  else if 0x200_0000 ≤ a ∧ a < 0x240_0000 then decide (0x8_0000 ≤ a % 0x10_0000 ∧ a % 16 = 4)
  else decide (a = rackFrameBytes ∨ a = rackStreamBytes)

/-- What a BAR0 word address holds; `none` raises a bus error (R639, R720). -/
def kind (a : Nat) : Option RegType :=
  if a < 0x300_0000 then plainKind a
  else if a < 0x340_0000 then
    match bankSource a with
    | some s => if plainKind s = some .cnt then some .sts else none
    | none => none
  else if a < 0x3C9_0000 then some .sts
  else if 0x3FF_F000 ≤ a ∧ a < 0x3FF_F100 then
    inTab [(0, 0, .cmd), (4, 0x10, .sts), (0x20, 0x24, .sts), (0x30, 0x30, .sts)] (a - 0x3FF_F000)
  else none

/-! ## Reset values -/

/-- First range of a table that holds an offset; ranges are (first, last, value). -/
def resetTab (l : List (Nat × Nat × Nat)) (o : Nat) : Nat :=
  match l with
  | [] => 0
  | (a, b, v) :: r => if a ≤ o ∧ o ≤ b then v else resetTab r o

/-- `PORT_MODE`: `CT_EN` 1 and `MAX_LEN` 9,216 (Table 02-6). -/
def portModeReset : Nat := 0x400 + 9216 * 0x1_0000

/-- The reset value of a register (Tables 02-5 to 14-13). Where a table gives a register no reset value it is 0 (log
entry 6). -/
def reset (a : Nat) : Nat :=
  if a < 0x10_0000 then
    if a = 0 then 0xB0_0512
    else if a = 4 then (if Config.isLC2 then 2 else 1)
    else if a = 8 then Config.serial.toNat % two32
    else if a = 0xC then Config.serial.toNat / two32
    else if 0x1000 ≤ a ∧ a < 0x1400 ∧ a % 0x40 = 8 then 6 else 0
  else if a < 0x20_0000 then
    if 0x10_0100 ≤ a ∧ a < 0x10_0180 ∧ a % 0x20 = 0 then 460 * 4096
    else if 0x10_1000 ≤ a ∧ a < 0x10_2000 ∧ a % 8 = 0 then 4
    else resetTab [(0x10_0008, 0x10_0008, 1), (0x10_000C, 0x10_000C, 0x47AE147B), (0x10_0084, 0x10_0084, 200000),
      (0x10_0180, 0x10_0180, 2 + 0xE4 * 4), (0x10_0184, 0x10_0184, 5)] a
  else if a < 0x30_0000 then
    if a = 0x20_0A00 ∨ a = 0x20_0A80 then 9216 * 0x1_0000
    else resetTab [(0x20_0000, 0x20_0000, 1), (0x20_010C, 0x20_010C, 720 + 720 * 0x1_0000), (0x20_0404, 0x20_0404, 1 + 32 + 5 * 0x4_0000),
      (0x20_0414, 0x20_0414, 33), (0x20_041C, 0x20_041C, 4)] a
  else if a < 0x40_0000 then
    resetTab [(safeSts, safeSts, 0x100), (safeStopCfg, safeStopCfg, 21075920),
      (safeDegradeCfg, safeDegradeCfg, 3600 + 12 * 0x4_0000 + 8 * 0x40_0000)] a
  else if a < 0x80_0000 then if a = ntfCfg then 6 else 0
  else if a < 0xA0_0000 then
    let o := a % 0x1000
    let p := (a - 0x80_0000) / 0x1000
    if o = 0 then p + 0x200 * (p / 32) else if o = pMode then portModeReset else if o = pMm then 4 + 9 * 8 else 0
  else if a < 0x100_0000 then 0
  else if a < 0x200_0000 then
    let o := a % 0x10_0000
    if 0x4000 ≤ o ∧ o < 0x5000 then resetTab [(4, 4, 0xFF), (0x10, 0x24, 1)] (o % 0x80)
    else resetTab [(0x2000, 0x207C, 0x1000), (0x2400, 0x247C, 1 + 0x4000 + 0x8000 + 0x2_0000), (0x3040, 0x307C, 49152 * 0x1_0000),
      (0x30C0, 0x30D4, 0x10 + 0x1000), (0x30D8, 0x30D8, 0x10), (0x30E0, 0x30F8, 4096 + 1024 * 0x1_0000),
      (0x3100, 0x3118, 100000)] o
  else if a < 0x240_0000 then if a % 0x10_0000 = hashCfg then 8 else 0
  else if a < 0x250_0000 then if a = trellisCfg then 1 else 0
  else if a < 0x260_0000 then if cellar + 0x40 ≤ a ∧ a ≤ cellar + 0x7C then 4064 else 0
  else if a < 0x300_0000 then
    if cc + 0x100 ≤ a ∧ a ≤ cc + 0x1FC then
      let r := (a - cc - 0x100) / 4
      if r < 28 then 512 else if r < 32 then 0 else if r < 47 then 512 else if r = 47 then 256
      else if r < 55 then 1024 else if r = 55 then 0 else 1024
    else if 0x264_0000 ≤ a ∧ a < 0x265_0000 ∧ a % 0x4000 = corePwr then 1 else 0
  else 0

/-! ## Host-written registers (Table 11-4) -/

/-- The bits that a host write of a plain CFG or ACK register stores (R638); `none` for a register that Table 11-4
does not list, which a host write leaves unchanged. -/
def hostMask (a : Nat) : Option Nat :=
  if a = sysScratch ∨ a = parAck ∨ a = buserrAck ∨ a = fwAck then some 0xFFFF_FFFF
  else if 0x1000 ≤ a ∧ a < 0x1400 then
    let o := a % 0x40
    if o = 0 then some 0xFFFF_FFC0
    else if o = 4 then some 0xFFFF_FFFF
    else if o = rCfg then some (if a < 0x1200 then 0xFF3F else 0x3F)
    else if o = rPost ∨ o = rAck then some 0xFFFF_FFFF else none
  else if 0x80_0000 ≤ a ∧ a < 0xA0_0000 ∧ a % 0x1000 = pLinkAck then some 0xFFFF_FFFF
  else if a = calStage0 then some 0xFFFF_8000
  else if a = calStage1 then some 0x3_FFFF
  else if a = calLoadAck ∨ a = calRejectAck then some 0xFFFF_FFFF
  else if 0x40_0000 ≤ a ∧ a < 0x40_1000 ∧ (a < 0x40_0100 ∨ a % 0x100 < 0x40) then
    let o := a % 0x100
    if o = 0 ∨ o = 8 then some 0xFFFF_FFC0
    else if o = 4 ∨ o = 0xC ∨ o = mPost ∨ o = mRspAck ∨ o = 0x44 then some 0xFFFF_FFFF
    else if o = mCfg then some 1
    else if o = 0x40 then some 0xFFFF_FFE0
    else if o = 0x48 then some 0x1F else none
  else none

/-- A register that firmware writes and the host may write too (R477). -/
def sharedWrite (a : Nat) : Bool := decide (a = calStage0 ∨ a = calStage1 ∨ a = calLoadAck ∨ a = calRejectAck)

/-- Listed in Table 11-4 (R653, bit 26 of `SYS_PAR_HIST`). -/
def hostWritten (a : Nat) : Bool :=
  (hostMask a).isSome || (decide (0x100 ≤ a ∧ a ≤ 0x18C)) || decide (a = irqArm ∨ a = calLoadCmd ∨ a = tsuCapCmd)

end Reg

end Sys2Proof.Machine
end

