-- ==== Sys2Proof/Machine/Ops.lean ====
section
/-! DEFINITION. The operations that every chapter shares: registers and counters (R634, R94 to R97), free values,
extended time, black-box offers (R743), firmware notifications (R705, R706), hardware event routes (Table 10-15),
interrupts (R654 to R656) and the cooper (R614 to R619). -/

namespace Sys2Proof.Machine

/-! ## Parts of the device -/

def Dev.onPins (d : Dev) (f : Pins → Pins) : Dev := { d with pins := f d.pins }
def Dev.onBoot (d : Dev) (f : Boot → Boot) : Dev := { d with boot := f d.boot }
def Dev.onFwd (d : Dev) (f : Fwd → Fwd) : Dev := { d with fwd := f d.fwd }
def Dev.onBuf (d : Dev) (f : Buf → Buf) : Dev := { d with buf := f d.buf }
def Dev.onTrl (d : Dev) (f : Trellis → Trellis) : Dev := { d with trl := f d.trl }
def Dev.onTime (d : Dev) (f : TimeSt → TimeSt) : Dev := { d with time := f d.time }
def Dev.onSafe (d : Dev) (f : Safe → Safe) : Dev := { d with safe := f d.safe }
def Dev.onCc (d : Dev) (f : Ctrl → Ctrl) : Dev := { d with cc := f d.cc }
def Dev.onHost (d : Dev) (f : HostIf → HostIf) : Dev := { d with host := f d.host }
def Dev.onTel (d : Dev) (f : Telem → Telem) : Dev := { d with tel := f d.tel }
def Dev.onHealth (d : Dev) (f : Health → Health) : Dev := { d with health := f d.health }

def portOf (d : Dev) (p : Nat) : PortSt := tget {} d.ports p
def setPort (d : Dev) (p : Nat) (f : PortSt → PortSt) : Dev := { d with ports := tmod {} d.ports p f }
def egrOf (d : Dev) (p : Nat) : EgrPort := tget {} d.egr p
def setEgr (d : Dev) (p : Nat) (f : EgrPort → EgrPort) : Dev := { d with egr := tmod {} d.egr p f }
def chanOf (d : Dev) (n : Nat) : Chan := tget {} d.host.chan n
def setChan (d : Dev) (n : Nat) (f : Chan → Chan) : Dev := d.onHost fun h => { h with chan := tmod {} h.chan n f }
def thrOf (d : Dev) (n : Nat) : Thr := tget {} d.cc.thr n
def setThr (d : Dev) (n : Nat) (f : Thr → Thr) : Dev := d.onCc fun c => { c with thr := tmod {} c.thr n f }
def coreOf (d : Dev) (c : Nat) : Core := tget {} d.cc.core c
def setCore (d : Dev) (c : Nat) (f : Core → Core) : Dev := d.onCc fun k => { k with core := tmod {} k.core c f }
def guardOf (d : Dev) (g : Nat) : Guard := tget {} d.safe.guards g
def setGuard (d : Dev) (g : Nat) (f : Guard → Guard) : Dev := d.onSafe fun s => { s with guards := tmod {} s.guards g f }

/-- A fresh free value: what the manual leaves open (log entry 3). -/
def fresh (d : Dev) : Nat × Dev := (Config.freeNat d.freeCtr, { d with freeCtr := d.freeCtr + 1 })

/-! ## Registers -/

/-- The stored value of a register: its reset value where nothing else was written. -/
def rd (d : Dev) (a : Nat) : Nat :=
  match tfind d.regs a with
  | some w => w.toNat
  | none => Reg.reset a

/-- Store a register. A write stores value and parity together, so it ends a fault of the register (R646, R651). -/
def wr (d : Dev) (a v : Nat) : Dev :=
  { d with
    regs := if v % two32 = Reg.reset a then tdel d.regs a else tins d.regs a (BitVec.ofNat 32 v)
    host := { d.host with parBad := d.host.parBad.filter (· ≠ a) } }

/-- Bits [lo + w − 1 : lo] of a register. -/
def fld (d : Dev) (a lo w : Nat) : Nat := bits (rd d a) lo w

def flag (d : Dev) (a i : Nat) : Bool := bit (rd d a) i

def setFld (d : Dev) (a lo w x : Nat) : Dev := wr d a (setBits (rd d a) lo w x)

def setFlag (d : Dev) (a i : Nat) (b : Bool) : Dev := setFld d a i 1 (b2n b)

/-- Add to a 32-bit counter, which wraps to 0 (R94); firmware's totals follow each wrap (R721). -/
def cntAdd (d : Dev) (a n : Nat) : Dev :=
  let v := rd d a + n
  let d := if v < two32 then d else d.onTel fun t => { t with wraps := tmod 0 t.wraps a (· + v / two32) }
  wr d a v

/-- Count one event of a CNT or EVC register. -/
def cnt (d : Dev) (a : Nat) : Dev := cntAdd d a 1

/-- Add to a 48-bit counter: low word at `a`, [15:0] of the high word at `a + 4` (R94). -/
def cnt48 (d : Dev) (a n : Nat) : Dev :=
  let v := rd d a + two32 * (rd d (a + 4) % 65536) + n
  let d := if v < 2 ^ 48 then d else d.onTel fun t => { t with wraps := tmod 0 t.wraps a (· + v / 2 ^ 48) }
  wr (wr d a v) (a + 4) (v / two32 % 65536)

/-- HALF of a counter: its most significant bit (R95). -/
def half32 (d : Dev) (a : Nat) : Bool := bit (rd d a) 31
def half48 (d : Dev) (a : Nat) : Bool := bit (rd d (a + 4)) 15

/-- The port has a receive path of its own: its `SPEED` is not 0, and it is neither an absorbed MAC nor the odd MAC of a fused pair
(R52, R823). -/
def ownPath (d : Dev) (p : Nat) : Bool :=
  let m := rd d (Reg.port p + Reg.pMode)
  decide (m % 16 ≠ 0) && !bit m 11 && !bit m 12

/-- A port without a receive path of its own counts nothing (R52, R823). -/
def portCounts (d : Dev) (p : Nat) : Bool := ownPath d p

/-- Add to a 32-bit port counter; `PORT_HALF_EVC` counts a rise of its HALF (R96). -/
def pcntAdd (d : Dev) (p off n : Nat) : Dev :=
  if portCounts d p then
    let a := Reg.port p + off
    let e := cntAdd d a n
    if !half32 d a && half32 e a then cnt e (Reg.port p + Reg.pHalfEvc) else e
  else d

def pcnt (d : Dev) (p off : Nat) : Dev := pcntAdd d p off 1

/-- Add to a 48-bit port counter. -/
def pcnt48 (d : Dev) (p off n : Nat) : Dev :=
  if portCounts d p then
    let a := Reg.port p + off
    let e := cnt48 d a n
    if !half48 d a && half48 e a then cnt e (Reg.port p + Reg.pHalfEvc) else e
  else d

/-- Count in a tile. -/
def tcnt (d : Dev) (t off : Nat) : Dev := cnt d (Reg.tile t + off)

/-- Write a HALF rise into the complex's ring (R149): global index, and [15] for the byte counter (Table 03-14). -/
def ruleHalf (d : Dev) (k g : Nat) (isByte : Bool) : Dev :=
  let e := Reg.cplx k + Reg.ruleHalfEvc
  cnt (wr d (Reg.cplx k + Reg.ruleHalfRing (rd d e % 256)) (g + 32768 * b2n isByte)) e

/-- Count a frame of `len` bytes in rule entry g of complex k (R143, R149). -/
def ruleCount (d : Dev) (k g len : Nat) : Dev :=
  let fa := Reg.cplx k + Reg.ruleFrames g
  let ba := Reg.cplx k + Reg.ruleBytes g
  let e := cnt d fa
  let e := if !half32 d fa && half32 e fa then ruleHalf e k g false else e
  let h := half48 e ba
  let e := cnt48 e ba len
  if !h && half48 e ba then ruleHalf e k g true else e

/-! ## Time -/

def ps_us : Nat := 1000000
def ps_ms : Nat := 1000000000
def ps_s : Nat := 1000000000000

def tsuNs (d : Dev) : Nat := rd d Reg.tsuNs

/-- Extended time: `TSU_WRAP` above `TSU_NS` (R422). -/
def extTime (d : Dev) : Nat := rd d Reg.tsuWrap * two32 + rd d Reg.tsuNs

/-- A TSU tick, 1.28 ns of `now` (Table 01-8). -/
def tickPs : Nat := 1280

/-- The core die runs: out of reset (Table 14-1). -/
def alive (d : Dev) : Bool := decide (d.boot.phase = .lifeline ∨ d.boot.phase = .full ∨ d.boot.phase = .quiesced)

/-- n TSU ticks pass: the counter gains the running increment at each, and the running slew's fraction at each tick of
the slew (R415 to R417). While the core die is in reset the counter stands. -/
def elapse (d : Dev) (n : Nat) : Dev :=
  if !alive d then { d with now := d.now + tickPs * n } else
  let left := rd d Reg.tsuSlewLeft
  let k := min n left
  let t := d.time
  let c : Int := (extTime d * two32 + t.frac : Nat)
  let c := c + (n * (t.incNs * two32 + t.incFrac) : Nat) + (k : Int) * t.slewFrac
  let u := (c % (2 ^ 96 : Nat)).toNat
  let d := { d with now := d.now + tickPs * n, time := { t with frac := u % two32 } }
  let d := wr (wr d Reg.tsuNs (u / two32 % two32)) Reg.tsuWrap (u / two32 / two32)
  if k = 0 then d else wr d Reg.tsuSlewLeft (left - k)

/-- An EVC register whose ACK firmware writes once it has handled the events (R819). The learn queue and the tasting ring are
acknowledged by the steps that empty them. -/
def Reg.fwAcked (a : Nat) : Bool :=
  decide (Reg.plainKind a = some .evc ∧ Reg.plainKind (a + 4) = some .ack) && (Reg.hostMask (a + 4)).isNone &&
    !(decide (0x200_0000 ≤ a ∧ a < 0x240_0000 ∧ a % 0x10_0000 = Reg.learnqEvc) ||
      decide (0x100_0000 ≤ a ∧ a < 0x200_0000 ∧ a % 0x10_0000 = Reg.tasteEvc))

/-- The EVC register of a pair that firmware acknowledges, if `a` is one of the two. -/
def Reg.ackPair (a : Nat) : Option Nat := if Reg.fwAcked a then some a else if Reg.fwAcked (a - 4) then some (a - 4) else none

/-- Firmware acknowledges: Ralku has started and there has been no `CM_FATAL` (R819). -/
def acking (d : Dev) : Bool := d.boot.fwRunning && !d.cc.cmFatal

/-- Whenever time passes, firmware that acknowledges has done so for the events that went before (R819). -/
def fwAcks (d : Dev) : Dev :=
  if acking d then
    d.regs.foldl (fun d e => match Reg.ackPair e.1 with
      | some a => wr d (a + 4) (rd d a)
      | none => d) d
  else d

/-- A time-driven step is its own news that its time has come: time runs on to the deadline if it lies ahead (log entry 7). -/
def reach (d : Dev) (t : Nat) : Dev := if t ≤ d.now then d else fwAcks (elapse d (ceilDiv (t - d.now) tickPs))

/-- Ticks from which on extended time is at least `e`, the running slew counted while it lasts (R416, R417). -/
def ticksTo (d : Dev) (e : Nat) : Nat :=
  let inc := d.time.incNs * two32 + d.time.incFrac
  let fast := (inc + d.time.slewFrac).toNat
  let left := rd d Reg.tsuSlewLeft
  let gap := e * two32 - (extTime d * two32 + d.time.frac)
  if gap ≤ left * fast then ceilDiv gap fast else left + ceilDiv (gap - left * fast) inc

/-- Time runs on to the first tick at which extended time is at least `e` (R379). -/
def reachExt (d : Dev) (e : Nat) : Dev :=
  if e ≤ extTime d ∨ !alive d then d else fwAcks (elapse d (ticksTo d e))

/-! ## Records, notifications, events -/

/-- A source island offers a black-box record; a full queue counts it in `BB_LOST` (R743). -/
def bb (d : Dev) (island code : Nat) (args : List Byte) : Dev :=
  let q := tget [] d.tel.bbQ island
  if q.length < 8 then
    d.onTel fun t => { t with bbQ := tput [] t.bbQ island (q ++ [(code, padTo 16 args)]) }
  else cnt d Reg.bbLost

/-- A trigger of R744 arises. -/
def mramTrigger (d : Dev) (n : Nat) : Dev :=
  d.onTel fun t => { t with trigDue := t.trigDue ++ [n] }

/-- Firmware posts a notification (R705), or counts it lost (R706). While Ralku does not run it posts none. -/
def note (d : Dev) (kind : Nat) (args : List Byte) : Dev :=
  if !d.boot.fwRunning then d
  else
    let k := fld d Reg.ntfCfg 0 4
    let n := rd d Reg.fwEvc
    if flag d Reg.ntfCfg 4 && decide (6 ≤ k ∧ k ≤ 12) && decide (sub32 n (rd d Reg.fwAck) ≠ 2 ^ k) then
      cnt (d.onHost fun h => { h with notes := tins h.notes (n % 2 ^ k) { kind, seq := n, time := extTime d, args := padTo 16 args } })
        Reg.fwEvc
    else cnt d Reg.ntfLost

/-- A crossing into a stopped core raises a wake request; requests merge into the first (R32, R34). -/
def wakeRequest (d : Dev) (c : Nat) : Dev := setCore d c fun k => { k with wakeAt := some (k.wakeAt.getD d.now) }

/-- OR bits into a thread's event word; a thread that is OFF keeps them too (R575, R579). -/
def orBits (d : Dev) (n b : Nat) : Dev := wr d (Reg.thr n + Reg.tEvtPend) (rd d (Reg.thr n + Reg.tEvtPend) ||| (b % two32))

/-- Event bits are posted to thread n; those to a stopped core are held until it has woken (R34). -/
def postBits (d : Dev) (n b : Nat) : Dev :=
  if (coreOf d (n / 8)).stopped then
    setCore (wakeRequest d (n / 8)) (n / 8) fun k => { k with posts := tmod 0 k.posts n (· ||| (b % two32)) }
  else orBits d n b

/-- A hardware event source raises its event (Table 10-15, `CC_EVT_ROUTE`). -/
def raiseEvt (d : Dev) (s : Nat) : Dev :=
  let r := rd d (Reg.ccEvtRoute s)
  if bit r 8 then postBits d (bits r 0 5) (1 <<< (24 + bits r 5 3)) else d

/-! ## Interrupts (R654 to R656) -/

def pairPending (d : Dev) (evc ack : Nat) : Bool := decide (rd d evc ≠ rd d ack)

/-- Bit n: `PORT_LINK_EVC` ≠ `PORT_LINK_ACK` of port 32t + n (R660). -/
def linkSum (d : Dev) (t : Nat) : Nat :=
  bitSet ((List.range 32).filter fun n =>
    pairPending d (Reg.port (32 * t + n) + Reg.pLinkEvc) (Reg.port (32 * t + n) + Reg.pLinkAck))

/-- Pending causes of vector v (Table 11-5). -/
def irqSts (d : Dev) (v : Nat) : Nat :=
  if v < 16 then b2n (pairPending d (Reg.chan v + Reg.mRspEvc) (Reg.chan v + Reg.mRspAck))
  else if v < 32 then
    let r := Reg.ring (decide (24 ≤ v)) (v % 8)
    b2n (pairPending d (r + Reg.rEvc) (r + Reg.rAck)) + 2 * b2n (flag d (r + Reg.rSts) 1)
  else if v = 32 then
    b2n (pairPending d Reg.parEvc Reg.parAck) + 2 * b2n (pairPending d Reg.buserrEvc Reg.buserrAck)
      + 4 * b2n (pairPending d Reg.fwEvc Reg.fwAck) + 8 * b2n (flag d Reg.ccSts 8)
  else if v = 33 then
    let s := rd d Reg.safeSts
    b2n (bit s 8) + 2 * b2n (bit s 9) + 4 * b2n (bit s 10) + 8 * b2n (bit s 13) + 16 * b2n (bit s 14) + 32 * b2n (bit s 21)
  else if v = 34 then
    b2n (pairPending d Reg.calLoadEvc Reg.calLoadAck) + 2 * b2n (pairPending d Reg.calRejectEvc Reg.calRejectAck)
  else if v = 35 then bitSet ((List.range 16).filter fun t => decide (linkSum d t ≠ 0))
  else 0

/-- Summary of vector v (R654). -/
def irqSummary (d : Dev) (v : Nat) : Bool :=
  decide (rd d (Reg.irqEn v) % 65536 ≠ 0) && decide (irqSts d v &&& (rd d (Reg.irqEn v) % 65536) ≠ 0)

def armed (d : Dev) (v : Nat) : Bool := !d.host.disarmed.contains v

/-- A message of vector v goes out at once; otherwise its pending bit is set (R656). -/
def canSend (d : Dev) (v : Nat) : Bool :=
  d.host.busMaster && !d.host.d3 && d.host.pcie.msixOn && !d.host.pcie.fnMask && !d.host.masked.contains v

/-- Armed vectors whose summary is 1. -/
def firing (d : Dev) : List Nat := (List.range 36).filter fun v => armed d v && irqSummary d v

/-- A vector set in rising order. -/
def vecs (p : Nat → Bool) : List Nat := (List.range 64).filter p

/-- Every armed vector with summary 1 is disarmed and sends its message or sets its pending bit (R655, R656). -/
def settle (d : Dev) : Dev :=
  let f := firing d
  let s := f.filter (canSend d)
  let e := d.onHost fun h => { h with
    disarmed := vecs fun v => h.disarmed.contains v || f.contains v
    pba := vecs fun v => h.pba.contains v || (f.contains v && !canSend d v)
    msgs := h.msgs ++ s }
  if s = [] then e else cntAdd e Reg.irqMsgCnt s.length

/-- Send the pending messages that a mask no longer holds back (R656). -/
def sendPending (d : Dev) : Dev :=
  let s := d.host.pba.filter (canSend d)
  let e := d.onHost fun h => { h with pba := h.pba.filter (fun v => !s.contains v), msgs := h.msgs ++ s }
  if s = [] then e else cntAdd e Reg.irqMsgCnt s.length

/-! ## Commands -/

/-- Run a command whose operands name instances of the device: its effect, then the interrupts it makes pending. A
command that names none is refused. -/
def State.runIf (s : State) (wf : Bool) (f : Dev → Dev) : Host.Outcome State Fault Refusal :=
  if wf then .next { s with dev := settle (f (s.dev.onHost fun h => { h with msgs := [] })) } else .refused .illFormed

/-! ## The cooper (R614 to R619) -/

/-- Pool of a request of n × 256 bytes (Table 10-10a, R616). -/
def coopPool (n : Nat) : Nat := if n ≤ 1 then 0 else if n ≤ 4 then 1 else if n ≤ 16 then 2 else 3
def poolSize (p : Nat) : Nat := if p = 0 then 256 else if p = 1 then 1024 else if p = 2 then 4096 else 16384
def poolCount (p : Nat) : Nat := if p = 0 then 16384 else if p = 1 then 4096 else if p = 2 then 768 else 320
def poolBase (p : Nat) : Nat := if p = 0 then 0 else if p = 1 then 0x40_0000 else if p = 2 then 0x80_0000 else 0xB0_0000

/-- Bytes a requester holds, in whole buffers. -/
def coopUse (d : Dev) (r : Nat) : Nat :=
  d.cc.held.foldl (fun a e => if e.2.req = r then a + poolSize e.2.pool else a) 0

def poolHeld (d : Dev) (p : Nat) : Nat := (d.cc.held.filter fun e => decide (e.2.pool = p)).length
def poolFree (d : Dev) (p : Nat) : Nat := poolCount p - poolHeld d p

/-- Lowest free buffer of a pool, from index i on, with the offsets held in rising order (R617). -/
def firstFree (p i : Nat) (held : List Nat) : Option Nat :=
  match held with
  | [] => if i < poolCount p then some (poolBase p + i * poolSize p) else none
  | o :: r => if o = poolBase p + i * poolSize p then firstFree p (i + 1) r
      else if i < poolCount p then some (poolBase p + i * poolSize p) else none

/-- The cooper's answer (R615): status 0 with an offset, 2 E_ARG, 9 E_QUOTA or 8 E_POOL. -/
def coopAlloc (d : Dev) (r n : Nat) : Nat × Nat × Dev :=
  if n = 0 ∨ 64 < n then (2, 0, d)
  else
    let p := coopPool n
    if fld d (Reg.coopQuota r) 0 15 * 1024 < coopUse d r + poolSize p then (9, 0, cnt d Reg.coopQuotaFail)
    else
      match firstFree p 0 ((d.cc.held.filter fun e => decide (e.2.pool = p)).map (·.1)) with
      | none => (8, 0, cnt d (Reg.coopPoolFail p))
      | some o =>
        let e := d.onCc fun c => { c with held := tins c.held o { req := r, pool := p } }
        let f := poolFree e p
        let e := e.onCc fun c => { c with fewest := tput (poolCount p) c.fewest p (min (tget (poolCount p) c.fewest p) f) }
        (0, o, if f < poolCount p / 16 ∧ poolCount p / 16 ≤ f + 1 then raiseEvt e 28 else e)

/-- Free a buffer, or count and record a bad free by requester `by` (R619). -/
def coopFree (d : Dev) (who off : Nat) : Dev :=
  match tfind d.cc.held off with
  | some _ => d.onCc fun c => { c with held := tdel c.held off }
  | none => wr (cnt d Reg.coopBadFree) Reg.coopBadFreeLast (off % 2 ^ 24 + who % 64 * 2 ^ 24)

/-- Put bytes into a held buffer. -/
def coopFill (d : Dev) (off : Nat) (l : List Byte) : Dev :=
  d.onCc fun c => match tfind c.held off with
    | some h => { c with held := tins c.held off { h with data := l } }
    | none => c

end Sys2Proof.Machine
end

