-- ==== Sys2Proof/Machine/Operands.lean ====
section
/-! DEFINITION. Operand forms: the command slot (Table 12-3), configuration records (R699), the canonical configuration
and its digest (R696), and the little-endian layouts that payloads share. -/

namespace Sys2Proof.Machine

/-! ## Command slots (Table 12-3) -/

def parseSlot (l payload : List Byte) : Slot :=
  let w := le l 0 4
  { opcode := bits w 20 12, flags := bits w 16 4, len := bits w 0 16, tag := le l 4 4, expVint := le l 8 4,
    rspLen := le l 12 2, payloadAddr := le l 16 8, rspAddr := le l 24 8, payload := padTo (bits w 0 16) payload }

/-- Opcodes of Tables 12-8 to 12-16. -/
def opcodes : List Nat :=
  [0x001, 0x002, 0x003, 0x004, 0x101, 0x102, 0x201, 0x202, 0x203, 0x204, 0x205, 0x210, 0x211, 0x212, 0x301, 0x302, 0x303,
   0x401, 0x402, 0x403, 0x501, 0x502, 0x601, 0x602, 0x603, 0x604, 0x605, 0x606, 0x701, 0x702, 0x703, 0x801, 0x901, 0x902]

/-- Commands of the safety group (Table 12-14). -/
def safetyOp (o : Nat) : Bool := decide (0x600 ≤ o ∧ o < 0x700)

/-- Accepted on the channel (R689). -/
def channelOk (ch o : Nat) : Bool :=
  if ch = 15 then safetyOp o || decide (o = 0x001 ∨ o = 0x004) else !safetyOp o

/-- Status codes (Table 12-5). -/
def eBusy : Nat := 1
def eArg : Nat := 2
def eNoent : Nat := 3
def eExist : Nat := 4
def eFull : Nat := 5
def eVintage : Nat := 6
def eLocked : Nat := 7
def ePool : Nat := 8
def eQuota : Nat := 9
def eState : Nat := 10
def eTimeout : Nat := 11
def eIntegrity : Nat := 12
def eUnsup : Nat := 13

/-! ## Configuration records (R699, Table 12-6) -/

def CfgRec.bytes (r : CfgRec) : List Byte :=
  toLe 2 r.ty ++ toLe 2 r.val.length ++ toLe 4 r.idx ++ r.val ++ zeros ((4 - r.val.length % 4) % 4)

def CfgRec.size (r : CfgRec) : Nat := 8 + (r.val.length + 3) / 4 * 4

/-- The first record of a list and the rest (R699), if it is whole, padded with zeros and of the shape `ok`. -/
def takeRec (ok : CfgRec → Bool) (l : List Byte) : Option (CfgRec × List Byte) :=
  let len := le l 2 2
  let full := 8 + (len + 3) / 4 * 4
  let r : CfgRec := { ty := le l 0 2, idx := le l 4 4, val := (l.drop 8).take len }
  if l.length < 8 ∨ l.length < full ∨ (l.take full).drop (8 + len) ≠ zeros (full - 8 - len) ∨ !ok r then none else some (r, l.drop full)

/-- Parse a sequence of records; the number of the first one that is malformed or fails a test of its own. -/
def parseRecs (ok : CfgRec → Bool) (fuel : Nat) (l : List Byte) (n : Nat) : Except Nat (List CfgRec) :=
  match fuel with
  | 0 => if l = [] then .ok [] else .error n
  | fuel + 1 =>
    if l = [] then .ok []
    else
      match takeRec ok l with
      | none => .error n
      | some (r, l) =>
        match parseRecs ok fuel l (n + 1) with
        | .ok rs => .ok (r :: rs)
        | .error e => .error e

/-- The records of a list up to its first malformed one. -/
def leadRecs (ok : CfgRec → Bool) (fuel : Nat) (l : List Byte) : List CfgRec :=
  match fuel, takeRec ok l with
  | fuel + 1, some (r, l) => r :: leadRecs ok fuel l
  | _, _ => []

/-- Part of the value that names an object beside type and index: FID and MAC of a static MAC entry; family, length and
address of a prefix. -/
def CfgRec.key (r : CfgRec) : List Byte :=
  if r.ty = 34 then r.val.take 8 else if r.ty = 35 then r.val.take 2 ++ r.val.drop 8 else []

def CfgRec.same (a b : CfgRec) : Bool := decide (a.ty = b.ty ∧ a.idx = b.idx ∧ a.key = b.key)

/-- Ascending bytes. -/
def bytesLt (a b : List Byte) : Bool :=
  match a, b with
  | [], [] => false
  | [], _ => true
  | _, [] => false
  | x :: r, y :: s => if x.toNat < y.toNat then true else if y.toNat < x.toNat then false else bytesLt r s

/-- The canonical order (R696): type, index, value bytes. -/
def CfgRec.lt (a b : CfgRec) : Bool :=
  if a.ty < b.ty then true else if b.ty < a.ty then false
  else if a.idx < b.idx then true else if b.idx < a.idx then false else bytesLt a.val b.val

def cfgInsert (l : List CfgRec) (r : CfgRec) : List CfgRec :=
  match l with
  | [] => [r]
  | x :: t => if r.lt x then r :: x :: t else x :: cfgInsert t r

/-- A trap queue's default buckets (Table 03-10) as a record: frames/s, frame burst, bytes/s, byte burst. -/
def trapDefault (q : Nat) : List Byte :=
  let r := [(10000, 100, 15000000, 1048576), (100000, 1000, 150000000, 1048576), (1000, 16, 1500000, 16384),
    (262144, 4096, 50000000, 1048576), (8192, 1024, 2000000, 262144), (1024, 512, 1600000, 1048576),
    (20000, 200, 30000000, 1048576)].getD q (0, 1, 0, 10240)
  toLe 4 r.1 ++ toLe 4 r.2.1 ++ toLe 4 r.2.2.1 ++ toLe 4 r.2.2.2

/-- Reset value of an object (Tables 04-1, 04-6, 03-10, 05-8, 07-5, 08-8 and the tables behind them): an object at it is no
record of the canonical configuration. -/
def cfgReset (ty idx : Nat) : List Byte :=
  if ty = 1 then zeros 132
  else if ty = 2 then zeros 6
  else if ty = 3 then zeros 12
  else if ty = 6 then zeros 64
  else if ty = 7 then toLe 4 0 ++ toLe 4 0 ++ toLe 4 8
  else if ty = 8 then toLe 4 (Reg.reset (Reg.portL2Cfg idx))
  else if ty = 9 then toLe 4 (Reg.reset (Reg.portRuleCfg idx))
  else if ty = 10 then [0]
  else if ty = 11 then zeros 4
  else if ty = 12 then zeros 44
  else if ty = 13 then trapDefault idx
  else if ty = 14 then toLe 1 ([0, 1, 1, 2, 3, 4, 5, 6].getD idx 0)
  else if ty = 15 then toLe 2 0 ++ toLe 2 49152 ++ toLe 4 4064
  else if ty = 16 then zeros 40
  else if ty = 17 then toLe 4 300
  else if ty = 18 then toLe 4 4 ++ zeros 8
  else if ty = 19 then toLe 4 200000 ++ zeros 4
  else if ty = 20 then toLe 2 (Reg.reset (Reg.coopQuota idx))
  else if ty = 21 then toLe 4 1
  else if ty = 22 then zeros 4
  else if ty = 23 then zeros 4
  else if ty = 24 then zeros 5
  else if ty = 32 then
    [0, 0, if 512 ≤ idx then 0 else 0x22, 0, if 512 ≤ idx then 0 else 10, 0] ++ toLe 2 9216 ++ zeros 6
  else if ty = 33 then zeros 512
  else if ty = 36 then zeros 84
  else if ty = 37 then zeros 20
  else if ty = 38 then zeros 48
  else if ty = 39 then [1, 1, 1, 1, 1, 1, 0, 0] ++ zeros 8
  else if ty = 40 then
    if idx % 8 = 7 then zeros 11
    else [0, 1, if idx % 8 = 6 then 0 else 1] ++ toLe 2 4096 ++ toLe 2 1024 ++ toLe 4 100000
  else if ty = 41 then zeros 9
  else if ty = 43 then [0, 1, 0xE4, 0] ++ toLe 4 (460 * 4096) ++ toLe 4 (460 * 4096) ++ toLe 4 (460 * 4096) ++ toLe 4 (460 * 4096) ++ zeros 8
  else if ty = 44 then toLe 1 idx ++ zeros 111
  else if ty = 45 then toLe 4 0xBC43BAAD
  else if ty = 46 then zeros 8
  else []

/-- The committed value of an object. -/
def cfgFind (l : List CfgRec) (ty idx : Nat) : Option (List Byte) :=
  match l with
  | [] => none
  | r :: t => if r.ty = ty ∧ r.idx = idx then some r.val else cfgFind t ty idx

def cfgDrop (l : List CfgRec) (r : CfgRec) : List CfgRec := l.filter fun x => !x.same r

/-- Set an object: the record is listed unless it is at its reset value. -/
def cfgSet (l : List CfgRec) (r : CfgRec) : List CfgRec :=
  if r.val = cfgReset r.ty r.idx then cfgDrop l r else cfgInsert (cfgDrop l r) r

def cfgOf (d : Dev) (ty idx : Nat) : List Byte := (cfgFind d.host.cfg ty idx).getD (cfgReset ty idx)

def putCfg (d : Dev) (ty idx : Nat) (v : List Byte) : Dev :=
  d.onHost fun h => { h with cfg := cfgSet h.cfg { ty, idx, val := v } }

def delCfg (d : Dev) (ty idx : Nat) (v : List Byte) : Dev :=
  d.onHost fun h => { h with cfg := cfgDrop h.cfg { ty, idx, val := v } }

/-- The digest of the canonical configuration (R696). -/
def digest (d : Dev) : Nat := crc64 (d.host.cfg.flatMap CfgRec.bytes)

/-- The vintage after an increment: it steps from 0xFFFF_FFFF to 1 (R691). -/
def nextVintage (v : Nat) : Nat := if v = 0xFFFF_FFFF then 1 else v + 1

end Sys2Proof.Machine
end

