-- ==== Sys2Proof/Machine/Mailbox.lean ====
section
/-! DEFINITION. The mailbox channels (chapter 12): posting, fetching, enabling, the order of checks, completion, and the
commands that concern the mailbox itself. -/

namespace Sys2Proof.Machine

/-! ## Channel state -/

def mreg (d : Dev) (ch off : Nat) : Nat := rd d (Reg.chan ch + off)
def mset (d : Dev) (ch off v : Nat) : Dev := wr d (Reg.chan ch + off) v

def chanEn (d : Dev) (ch : Nat) : Bool := flag d (Reg.chan ch + Reg.mCfg) 0 && !(chanOf d ch).enPending
def chanErr (d : Dev) (ch : Nat) : Bool := flag d (Reg.chan ch + Reg.mSts) 1

/-- Stop a channel with a cause (Table 12-2). -/
def chanStop (d : Dev) (ch cause : Nat) : Dev := mset d ch Reg.mSts (2 + 256 * cause)

/-- Enable a channel: counts to 0 and `ERR` cleared (R679). -/
def chanStart (d : Dev) (ch : Nat) : Dev :=
  let d := mset (mset (mset (mset d ch Reg.mPost 0) ch Reg.mTaken 0) ch Reg.mRspEvc 0) ch Reg.mRspAck 0
  let d := setFlag d (Reg.chan ch + Reg.mSts) 1 false
  setChan d ch fun c => { c with enPending := false }

/-- Write a response into its slot and count it (R681, R685, R686); a failed write stops the channel (R687). -/
def writeRsp (d : Dev) (ch : Nat) (r : Rsp) (ok : Bool) : Dev :=
  if chanErr d ch && decide (fld d (Reg.chan ch + Reg.mSts) 8 8 = 4) then d
  else if !ok then chanStop d ch 4
  else
    let d := setChan d ch fun c => { c with ring := tins c.ring (mreg d ch Reg.mRspEvc % 64) r }
    let d := if r.status = 0 then d else cnt d (Reg.chan ch + Reg.mErrCnt)
    cnt d (Reg.chan ch + Reg.mRspEvc)

/-- What a command's own part answers. -/
structure Res where
  dev : Dev
  status : Nat := 0
  detail : Nat := 0xFFFF
  reason : Nat := 0
  payload : List Byte := []
  /-- The command changes the vintage (R691). -/
  vint : Bool := false

def fail (d : Dev) (status : Nat) (detail : Nat := 0xFFFF) (reason : Nat := 0) : Res := { dev := d, status, detail, reason }

/-- When the last command taken completes, `ACTIVE` falls and an enable that waits takes effect (R680). -/
def activeFall (d : Dev) (ch : Nat) : Dev :=
  let c := chanOf d ch
  if c.inflight = [] && c.enPending then chanStart d ch else d

/-- What a command answers whose firmware thread faulted once it had taken effect: E_TIMEOUT, and what it changed stays (R704). -/
def Res.timedOut (r : Res) : Res := { r with status := eTimeout, detail := 0xFFFF, reason := 0, payload := [] }

/-- Complete the command at the head of a channel: vintage (R691), its cooper buffer, its response (R680, R703). -/
def completeHead (ch : Nat) (sl : Slot) (r : Res) : Dev :=
  let r := if sl.faulted then r.timedOut else r
  let d := r.dev
  let d := if r.vint then d.onHost fun h => { h with vintage := nextVintage h.vintage } else d
  let d := match sl.buf with
    | some o => coopFree d (32 + ch) o
    | none => d
  let rsp : Rsp := { status := r.status, len := r.payload.length, tag := sl.tag, vintage := d.host.vintage,
                     detail := r.detail, reason := r.reason, payload := r.payload.take sl.rspLen, addr := sl.rspAddr }
  let c := chanOf d ch
  let d := setChan d ch fun c => { c with inflight := c.inflight.tail }
  let d :=
    if 0 < c.discard then setChan d ch fun c => { c with discard := c.discard - 1 }
    else if !d.host.busMaster || d.host.d3 || c.held ≠ [] then setChan d ch fun c => { c with held := c.held ++ [(rsp, sl.rspOk)] }
    else writeRsp d ch rsp sl.rspOk
  activeFall d ch

/-- Commands with an unknown opcode at the head of a channel complete with E_UNSUP (R688 check 1). -/
def drain (fuel : Nat) (d : Dev) (ch : Nat) : Dev :=
  match fuel with
  | 0 => d
  | fuel + 1 =>
    match (chanOf d ch).inflight with
    | [] => d
    | sl :: _ =>
      if d.boot.fwRunning && !opcodes.contains sl.opcode then drain fuel (completeHead ch sl (fail d eUnsup)) ch else d

def complete (ch : Nat) (sl : Slot) (r : Res) : Dev :=
  drain 64 (completeHead ch sl r) ch

/-- The channel's `RULE_WRITE` has begun: it holds the vintage lock, under which its `EXP_VINTAGE` was checked (R692, R695). -/
def holdsLock (d : Dev) (ch : Nat) : Bool := decide (d.fwd.ruleJob.map (·.1) = some ch)

/-- Checks 2 to 5 of R688, with a payload read failure (R687) after the cooper's answer; 0 when all pass. `flags` are
the flags that the command defines. -/
def checks (d : Dev) (ch : Nat) (sl : Slot) (flags : Nat) (lenOk : Bool) : Nat :=
  if !channelOk ch sl.opcode then eLocked
  else if 16384 < sl.len ∨ !lenOk ∨ sl.flags &&& flags ≠ sl.flags then eArg
  else if sl.pool ≠ 0 then sl.pool
  else if !sl.payloadOk then eIntegrity
  else if sl.expVint ≠ 0 ∧ sl.expVint ≠ d.host.vintage ∧ !holdsLock d ch then eVintage
  else 0

/-- Opcodes whose commands may change the vintage (column V of Tables 12-8 to 12-16); a bus recovery, a staging check or abandon,
and a safety commit's first step and abandon, change none. -/
def vintageOp (sl : Slot) : Bool :=
  [0x201, 0x202, 0x205, 0x210, 0x211, 0x301, 0x303, 0x401, 0x402, 0x403, 0x502, 0x702, 0x901].contains sl.opcode ||
    decide (sl.opcode = 0x101 ∧ sl.flags % 2 = 0) || decide (sl.opcode = 0x003 ∧ sl.flags % 4 = 0) || decide (sl.opcode = 0x604 ∧ sl.flags % 4 = 1)

/-- Another channel's `RULE_WRITE` holds the vintage lock from its first chunk on: a vintage-changing command waits (R692). -/
def lockWaits (d : Dev) (ch : Nat) (sl : Slot) : Bool :=
  vintageOp sl && match d.fwd.ruleJob with
    | some (c, _) => decide (c ≠ ch)
    | none => false

/-- Carry out the command at the head of a channel if it is the one named: opcode `op` and a slot that `sel` selects.
Firmware carries out commands only while it runs; a command that fails a check has no effect (R688, R690). -/
def runCmd (d : Dev) (ch op flags : Nat) (sel lenOk : Slot → Bool) (body : Dev → Slot → Res) : Dev :=
  if !d.boot.fwRunning then d
  else
    match (chanOf d ch).inflight with
    | [] => d
    | sl :: _ =>
      if sl.opcode ≠ op ∨ !sel sl ∨ lockWaits d ch sl then d
      else
        let e := checks d ch sl flags (lenOk sl)
        complete ch sl (if e = 0 then body d sl else fail d e)

def noPayload (sl : Slot) : Bool := decide (sl.len = 0)
def lenIs (n : Nat) (sl : Slot) : Bool := decide (sl.len = n)
/-- A payload of 1 to `most` elements behind a head of h bytes. -/
def headedLen (h size most : Nat) (sl : Slot) : Bool :=
  decide (h < sl.len ∧ (sl.len - h) % size = 0 ∧ (sl.len - h) / size ≤ most)
def anySlot (_ : Slot) : Bool := true
/-- Flag 16 + i of a slot. -/
def slotFlag (i : Nat) (sl : Slot) : Bool := bit sl.flags i

/-! ## MBX_POST, COMMAND_FETCH, MBX_ENABLE -/

/-- BAR0 answers: out of reset and not in D3hot (R633, chapter 14). -/
def barUp (d : Dev) : Bool :=
  !d.host.d3 && decide (d.boot.phase = .lifeline ∨ d.boot.phase = .full ∨ d.boot.phase = .quiesced)

def setPcie (d : Dev) (f : PcieCfg → PcieCfg) : Dev := d.onHost fun h => { h with pcie := f h.pcie }

/-- A host read returns data. -/
def readData (d : Dev) (v : Nat) : Dev := (setPcie d fun c => { c with cpl := 0 }).onHost fun h => { h with rdata := v }

/-- A doorbell (R682, R683): a post beyond 64 unacknowledged commands stops the channel with CAUSE 3. -/
def mbxPost (ch value : Nat) (d : Dev) : Dev :=
  if !barUp d then d
  else
    let d := mset d ch Reg.mPost value
    if !chanEn d ch || chanErr d ch then d
    else
      let d := raiseEvt d ch
      if 64 < sub32 value (mreg d ch Reg.mRspAck) then chanStop d ch 3 else d

def execMbxPost (ch value : Nat) (s : State) : Host.Outcome State Fault Refusal :=
  s.runIf (Instr.mbxPost ch value).wf (mbxPost ch value)

/-- Where in the command ring the next command lies: slot `MBX_TAKEN` mod 64 (R681). -/
def slotAddr (d : Dev) (ch : Nat) : Nat := mreg d ch 0 + 2 ^ 32 * mreg d ch 4 + 32 * (mreg d ch Reg.mTaken % 64)

/-- The engine takes the next posted command (R683), with its payload in a cooper buffer of requester 32 + channel
(R614, R828); a failed slot read stops the channel (R687). -/
def fetchSlot (d : Dev) (ch : Nat) (slot payload : List Byte) (payloadOk rspOk : Bool) : Dev :=
  let sl := { parseSlot slot payload with payloadOk, rspOk, slotAddr := slotAddr d ch }
  let sl := if payloadOk then sl else { sl with payload := zeros sl.len }
  let (st, off, d) := if sl.len = 0 ∨ 16384 < sl.len then (0, 0, d) else coopAlloc d (32 + ch) (ceilDiv sl.len 256)
  let has := decide (sl.len ≠ 0 ∧ sl.len ≤ 16384 ∧ st = 0)
  let d := if has then coopFill d off sl.payload else d
  let sl := { sl with pool := st, buf := if has then some off else none }
  let d := setChan d ch fun c => { c with inflight := c.inflight ++ [sl] }
  let d := mset d ch Reg.mTaken (mreg d ch Reg.mTaken + 1)
  drain 64 d ch

/-- The engines take no command until Ralku runs (R767). -/
def commandFetch (ch : Nat) (slot payload : List Byte) (slotOk payloadOk rspOk : Bool) (d : Dev) : Dev :=
  let gap := sub32 (mreg d ch Reg.mPost) (mreg d ch Reg.mTaken)
  if !d.boot.fwRunning || !chanEn d ch || chanErr d ch || !d.host.busMaster || d.host.d3 || decide (gap = 0 ∨ 64 < gap) then d
  else if !slotOk then chanStop d ch 1
  else fetchSlot d ch slot payload payloadOk rspOk

def execCommandFetch (ch : Nat) (slot payload : List Byte) (slotOk payloadOk rspOk : Bool) (s : State) :
    Host.Outcome State Fault Refusal :=
  s.runIf (Instr.commandFetch ch slot payload slotOk payloadOk rspOk).wf (commandFetch ch slot payload slotOk payloadOk rspOk)

/-- A write of `MBX_CFG` (R679, R680). -/
def mbxEnable (ch value : Nat) (d : Dev) : Dev :=
  if !barUp d then d
  else
    let was := flag d (Reg.chan ch + Reg.mCfg) 0
    let d := mset d ch Reg.mCfg (value % 2)
    if bit value 0 && !was then
      if (chanOf d ch).inflight = [] then chanStart d ch else setChan d ch fun c => { c with enPending := true }
    else if !bit value 0 && was then
      setChan d ch fun c => { c with discard := c.inflight.length, held := [], enPending := false }
    else d

def execMbxEnable (ch value : Nat) (s : State) : Host.Outcome State Fault Refusal :=
  s.runIf (Instr.mbxEnable ch value).wf (mbxEnable ch value)

/-! ## Bus mastering (R703) -/

/-- Held responses are written in order when bus mastering returns. -/
def writeHeld (d : Dev) (ch : Nat) : Dev :=
  let c := chanOf d ch
  let d := setChan d ch fun c => { c with held := [] }
  c.held.foldl (fun d r => writeRsp d ch r.1 r.2) d

def busMasterDisable (d : Dev) : Dev := d.onHost fun h => { h with busMaster := false }

def execBusMasterDisable (s : State) : Host.Outcome State Fault Refusal := s.runIf Instr.busMasterDisable.wf busMasterDisable

def busMasterEnable (d : Dev) : Dev :=
  let d := d.onHost fun h => { h with busMaster := true }
  sendPending (if d.host.d3 then d else (List.range 16).foldl writeHeld d)

def execBusMasterEnable (s : State) : Host.Outcome State Fault Refusal := s.runIf Instr.busMasterEnable.wf busMasterEnable

/-! ## Identification and vintage (Table 12-8) -/

/-- `GET_INFO`: 40 bytes of Table 12-8. -/
def infoPayload (d : Dev) : List Byte :=
  toLe 4 (rd d 0) ++ toLe 1 (rd d 4) ++ toLe 1 (b2n (decide (d.boot.phase = .full))) ++ toLe 2 0
    ++ toLe 4 (rd d 8) ++ toLe 4 (rd d 0xC) ++ toLe 1 3 ++ toLe 1 2 ++ toLe 2 Config.fwPatch.toNat
    ++ toLe 4 Config.fwImageCrc.toNat ++ toLe 4 d.host.vintage ++ toLe 8 (digest d) ++ toLe 1 16 ++ toLe 1 64 ++ toLe 2 16384

def getInfo (ch : Nat) (d : Dev) : Dev :=
  runCmd d ch 0x001 0 anySlot noPayload fun d _ => { dev := d, payload := infoPayload d }

def execGetInfo (ch : Nat) (s : State) : Host.Outcome State Fault Refusal := s.runIf (Instr.getInfo ch).wf (getInfo ch)

/-- `GET_VINTAGE`: 16 bytes of Table 12-8. -/
def vintagePayload (d : Dev) : List Byte :=
  toLe 4 d.host.vintage ++ toLe 8 (digest d) ++
    (match d.host.staging with
     | some st => toLe 1 1 ++ toLe 1 st.owner
     | none => toLe 2 0) ++ toLe 2 0

def getVintage (ch : Nat) (d : Dev) : Dev :=
  runCmd d ch 0x004 0 anySlot noPayload fun d _ => { dev := d, payload := vintagePayload d }

def execGetVintage (ch : Nat) (s : State) : Host.Outcome State Fault Refusal := s.runIf (Instr.getVintage ch).wf (getVintage ch)

end Sys2Proof.Machine
end

