-- ==== Sys2Proof/Machine/Fdb.lean ====
section
/-! DEFINITION. VLANs, the MAC/host table with its writers, and the FDB commands (chapter 04, Table 12-10). -/

namespace Sys2Proof.Machine

/-! ## VLANs, LAGs -/

/-- A VLAN table entry (Table 04-1). -/
structure Vlan where
  valid : Bool
  learn : Bool
  route : Bool
  rmac : Nat
  fid : Nat
  member : Nat
  untagged : Nat

/-- An object of complex k's own copy of the path tables (R18, R171). -/
def pathOf (d : Dev) (k ty idx : Nat) : List Byte := (cfgFind (tget [] d.fwd.paths k) ty idx).getD (cfgReset ty idx)

/-- Write an object of types 1 to 6 into the four copies, complex 0 first. -/
def putPath (d : Dev) (ty idx : Nat) (v : List Byte) : Dev :=
  if 1 ≤ ty ∧ ty ≤ 6 then
    (List.range 4).foldl (fun d k => d.onFwd fun w => { w with paths := tmod [] w.paths k (cfgSet · { ty, idx, val := v }) }) d
  else d

/-- The VLAN of a VID as complex k holds it (Table 12-6 type 1, R837). -/
def vlanOf (d : Dev) (k vid : Nat) : Vlan :=
  let v := pathOf d k 1 vid
  { valid := bit (le v 0 1) 0, learn := bit (le v 0 1) 1, route := bit (le v 0 1) 2, rmac := le v 1 1 % 16, fid := le v 2 2 % 4096,
    member := le v 4 64, untagged := le v 68 64 }

/-- Ports of a list of 2-byte little-endian numbers. -/
def portList (n : Nat) (l : List Byte) : List Nat := (List.range n).map fun i => le l (2 * i) 2

/-- Members of LAG n in complex k (Table 12-6 type 5). -/
def lagMembers (d : Dev) (k n : Nat) : List Nat :=
  let v := pathOf d k 5 n
  portList (le v 0 1) (v.drop 4)

/-- The LAG of a port in complex k: at most one (R228). -/
def lagOf (d : Dev) (k p : Nat) : Option Nat :=
  ((tget [] d.fwd.paths k).filter fun r => decide (r.ty = 5)).findSome? fun r =>
    if (portList (le r.val 0 1) (r.val.drop 4)).contains p then some r.idx else none

/-! ## MAC/host table -/

def macTab (d : Dev) (k : Nat) : Tab MacEnt := tget [] d.fwd.mac k

def setMac (d : Dev) (k : Nat) (f : Tab MacEnt → Tab MacEnt) : Dev := d.onFwd fun w => { w with mac := tmod [] w.mac k f }

/-- Key bytes (R184). -/
def macKey (fid mac : Nat) : List Byte := toBe 2 fid ++ toBe 6 mac
def hostKey (fam addr : Nat) : List Byte := if fam = 4 then 4 :: toBe 4 addr else 6 :: toBe 16 addr

/-- Candidate buckets H1 and H2 (R183). -/
def buckets (key : List Byte) : Nat × Nat := (crc32c key % 65536, crc32c key / 65536)

def slotsIn (b : Nat) : List Nat := (List.range 8).map (8 * b + ·)

/-- First position of a candidate bucket whose entry satisfies a test. -/
def slotFind (t : Tab MacEnt) (key : List Byte) (p : Nat → MacEnt → Bool) : Option Nat :=
  let h := buckets key
  (slotsIn h.1 ++ slotsIn h.2).find? fun i => match tfind t i with
    | some e => p i e
    | none => false

def macFind (t : Tab MacEnt) (fid mac : Nat) : Option Nat :=
  slotFind t (macKey fid mac) fun _ e => decide (e.ty = 0 ∧ e.fid = fid ∧ e.mac = mac)

def macGet (t : Tab MacEnt) (fid mac : Nat) : Option MacEnt := (macFind t fid mac).bind (tfind t)

/-- A host entry; an IPv6 host matches when both parts are valid and adjacent in one bucket (R187). -/
def hostFind (t : Tab MacEnt) (fam addr : Nat) : Option Nat :=
  slotFind t (hostKey fam addr) fun i e =>
    if fam = 4 then decide (e.ty = 1 ∧ e.addr = addr)
    else decide (e.ty = 2 ∧ e.addr = addr / 2 ^ 64 ∧ i % 8 ≠ 7) &&
      match tfind t (i + 1) with
      | some g => decide (g.ty = 3 ∧ g.addr = addr % 2 ^ 64)
      | none => false

def freeIn (t : Tab MacEnt) (b : Nat) : List Nat := (slotsIn b).filter fun i => (tfind t i).isNone

/-- Slot of a new entry (R185). -/
def newSlot (t : Tab MacEnt) (key : List Byte) : Option Nat :=
  let h := buckets key
  let f1 := freeIn t h.1
  let f2 := freeIn t h.2
  (if f2.length ≤ f1.length then f1 else f2).head?

/-- Lowest adjacent free pair (log entry 12). -/
def freePair (t : Tab MacEnt) (b : Nat) : Option Nat :=
  (freeIn t b).find? fun i => decide (i % 8 ≠ 7) && (tfind t (i + 1)).isNone

/-- Slot of a new host: one for IPv4, two adjacent ones for IPv6. -/
def newHost (t : Tab MacEnt) (fam addr : Nat) : Option Nat :=
  let key := hostKey fam addr
  if fam = 4 then newSlot t key
  else
    let h := buckets key
    if (freeIn t h.2).length ≤ (freeIn t h.1).length then (freePair t h.1).or (freePair t h.2)
    else (freePair t h.2).or (freePair t h.1)

/-- The 16 bytes of an entry (Table 04-2), little-endian. -/
def MacEnt.encode (e : MacEnt) : List Byte :=
  if e.ty = 0 then
    toLe 16 (1 + b2n e.static * 8 + b2n e.hit * 16 + b2n e.router * 32 + b2n e.discardDa * 64 + b2n e.discardSa * 128
      + b2n e.isLag * 256 + b2n e.isMcast * 512 + e.dest * 2 ^ 10 + e.fid * 2 ^ 23 + e.mac * 2 ^ 35 + e.origin * 2 ^ 83
      + e.ts * 2 ^ 96)
  else if e.ty = 3 then toLe 16 (1 + 6 + e.addr * 2 ^ 64)
  else toLe 16 (1 + e.ty * 2 + b2n e.hit * 16 + e.route * 32 + e.addr * 2 ^ 64)

def MacEnt.key (e : MacEnt) : Nat × Nat := (e.fid, e.mac)

/-- Slots of LAG or port as a destination of a learn in complex k. -/
def destOf (d : Dev) (k port : Nat) : Bool × Nat :=
  match lagOf d k port with
  | some g => (true, g)
  | none => (false, port)

/-! ## Learning (R189 to R194, R198) -/

def learnQueue (d : Dev) (k : Nat) : List MacEnt := tget [] d.fwd.learnQ k

/-- Put one notification into complex k's queue (R198). -/
def notify (d : Dev) (k : Nat) (e : MacEnt) : Dev :=
  raiseEvt (cnt (d.onFwd fun w => { w with learnQ := tmod [] w.learnQ k (· ++ [e]) }) (Reg.cplx k + Reg.learnqEvc)) (24 + k)

/-- A learn from a good tail in complex k, seen at `TSU_NS` = ts (Table 04-5). -/
def learn (d : Dev) (k fid mac port ts : Nat) : Dev :=
  let (lag, dest) := destOf d k port
  let room := decide ((learnQueue d k).length < 2048)
  match macFind (macTab d k) fid mac with
  | some i =>
    match tfind (macTab d k) i with
    | none => d
    | some e =>
      if e.isLag = lag ∧ e.dest = dest ∧ ¬ e.isMcast then d
      else if e.static then cnt d (Reg.cplx k + Reg.fdbStaticViol)
      else if !room then cnt d (Reg.cplx k + Reg.fdbLearnDrop)
      else
        let e := { e with isLag := lag, isMcast := false, dest, origin := k, ts }
        notify (cnt (setMac d k (tins · i e)) (Reg.cplx k + Reg.fdbMoveCnt)) k e
  | none =>
    if !room then cnt d (Reg.cplx k + Reg.fdbLearnDrop)
    else
      match newSlot (macTab d k) (macKey fid mac) with
      | none => cnt d (Reg.cplx k + Reg.fdbBucketFull)
      | some i =>
        let e : MacEnt := { hit := true, isLag := lag, dest, fid, mac, origin := k, ts }
        notify (cnt (setMac d k (tins · i e)) (Reg.cplx k + Reg.fdbLearnCnt)) k e

/-- A source-address match sets `HIT` (Table 04-2, R191). -/
def setHit (d : Dev) (k fid mac : Nat) : Dev :=
  match macFind (macTab d k) fid mac with
  | some i => setMac d k fun t => match tfind t i with
    | some e => tins t i { e with hit := true }
    | none => t
  | none => d

/-! ## Synchronisation (R199 to R201, R824) -/

/-- Install a notified entry in complex j. Where `LEARN_TS` and `ORIGIN` are both equal the copy stays (DESIGN CHOICE, log
entry 94: R200 names no winner). -/
def syncInto (n : MacEnt) (d : Dev) (j : Nat) : Dev :=
  match macFind (macTab d j) n.fid n.mac with
  | some i =>
    setMac d j fun t => match tfind t i with
      | some c =>
        let df := diff32 c.ts n.ts
        if c.static ∨ 0 < df ∨ (df = 0 ∧ c.origin ≤ n.origin) then t
        else tins t i { n with hit := true }
      | none => t
  | none =>
    match newSlot (macTab d j) (macKey n.fid n.mac) with
    | none => cnt d (Reg.cplx j + Reg.fdbBucketFull)
    | some i => setMac d j (tins · i { n with hit := true })

/-- The queue that the learning-sync threads serve next: the first with work after the one served last (R199). -/
def nextLearn (d : Dev) : Option Nat :=
  ((List.range 4).map fun i => (d.fwd.learnTurn + 1 + i) % 4).find? fun k => learnQueue d k ≠ []

/-- A learning-sync thread takes complex k's oldest notification, in that queue's turn, and installs it in the other three. -/
def learnSync (k : Nat) (d : Dev) : Dev :=
  if !acking d || decide (nextLearn d ≠ some k) then d
  else
    match learnQueue d k with
    | [] => d
    | n :: r =>
      let d := cnt (d.onFwd fun w => { w with learnQ := tput [] w.learnQ k r, learnTurn := k }) (Reg.cplx k + Reg.learnqAck)
      ((List.range 4).filter (· ≠ k)).foldl (syncInto n) d

def execLearnSync (cplx : Nat) (s : State) : Host.Outcome State Fault Refusal :=
  s.runIf (Instr.learnSync cplx).wf (learnSync cplx)

/-! ## Ageing (R195 to R197, R838) -/

def ageingTime (d : Dev) : Nat := le (cfgOf d 17 0) 0 4

/-- Dynamic MAC entries of the table that the sweep meets: addresses seen in some copy since the last one. -/
def seenKeys (d : Dev) : List (Nat × Nat) :=
  (List.range 4).flatMap fun k =>
    ((macTab d k).filter fun e => decide (e.2.ty = 0) && !e.2.static && e.2.hit).map fun e => (e.2.fid, e.2.mac)

/-- One sweep: an address unseen in all four copies goes, every other one is marked unseen. -/
def sweep (d : Dev) : Dev :=
  let seen := seenKeys d
  (List.range 4).foldl (fun d k => setMac d k fun t =>
    (t.filter fun e => decide (e.2.ty ≠ 0) || e.2.static || seen.contains (e.2.fid, e.2.mac)).map fun e =>
      if e.2.ty = 0 ∧ ¬ e.2.static then (e.1, { e.2 with hit := false }) else e) d

def ageingSweep (d : Dev) : Dev :=
  if !d.boot.fwRunning then d
  else
    let d := reach d (d.fwd.sweepAt + ageingTime d * ps_s / 2)
    (sweep d).onFwd fun w => { w with sweepAt := d.now }

def execAgeingSweep (s : State) : Host.Outcome State Fault Refusal := s.runIf Instr.ageingSweep.wf ageingSweep

/-! ## Commands 0x201 to 0x205 -/

/-- An element of `FDB_INSERT` (Table 12-10). -/
def parseMacElem (l : List Byte) : MacEnt :=
  let f := le l 10 1
  { static := bit f 0, hit := true, router := bit f 1, discardDa := bit f 2, discardSa := bit f 3, isLag := bit f 4,
    isMcast := bit f 5, dest := le l 8 2, fid := le l 0 2, mac := be l 2 6 }

/-- The element's own syntax: ranges, and the flags that exclude each other. -/
def macElemOk (l : List Byte) : Bool :=
  let e := parseMacElem l
  decide (e.fid < 4096 ∧ le l 10 1 < 64 ∧ l.drop 11 = zeros 5 ∧ (isGroup e.mac → e.isMcast) ∧ ¬ (e.isLag ∧ e.isMcast)
    ∧ e.dest < (if e.isMcast then 8192 else if e.isLag then 256 else 512))

def elements (size : Nat) (l : List Byte) : List (List Byte) := (List.range (l.length / size)).map fun i => (l.drop (size * i)).take size

/-- The records of a static entry go with it. -/
def dropStatic (d : Dev) (fid mac : Nat) : Dev := delCfg d 34 0 (toLe 2 fid ++ toBe 6 mac)

/-- Apply one element in all four copies; the answer is a status and whether a static entry changed. -/
def insertElem (d : Dev) (replace : Bool) (l : List Byte) : Nat × Bool × Dev :=
  let e := { parseMacElem l with ts := tsuNs d }
  let ks := List.range 4
  let olds := ks.map fun k => macGet (macTab d k) e.fid e.mac
  let wasStatic := olds.any fun o => (o.map (·.static)).getD false
  let slots := ks.map fun k => (macFind (macTab d k) e.fid e.mac).or (newSlot (macTab d k) (macKey e.fid e.mac))
  if wasStatic && !replace then (eExist, false, d)
  else if slots.any (·.isNone) then (eFull, false, d)
  else
    let d := ks.foldl (fun d k => setMac d k fun t => match slots.getD k none with
      | some i => tins t i e
      | none => t) d
    let d := dropStatic d e.fid e.mac
    (0, wasStatic || e.static, if e.static then putCfg d 34 0 l else d)

/-- Apply elements until one fails: status, elements applied, whether the configuration changed. -/
def applyElems (f : Dev → List Byte → Nat × Bool × Dev) (d : Dev) (es : List (List Byte)) (n : Nat) (v : Bool) :
    Nat × Nat × Bool × Dev :=
  match es with
  | [] => (0, n, v, d)
  | e :: r =>
    let (st, c, d1) := f d e
    if st = 0 then applyElems f d1 r (n + 1) (v || c) else (st, n, v, d)

/-- The answer of an element command: its count or the failing element (R690, R691). -/
def elemRes (rsp : Nat → Dev → List Byte) (a : Nat × Nat × Bool × Dev) : Res :=
  { dev := a.2.2.2, status := a.1, detail := if a.1 = 0 then 0xFFFF else a.2.1, payload := rsp a.2.1 a.2.2.2, vint := a.2.2.1 }

/-- Elements checked for syntax as a whole, then applied one after another. -/
def elemCmd (size : Nat) (ok : List Byte → Bool) (f : Dev → List Byte → Nat × Bool × Dev) (rsp : Nat → Dev → List Byte)
    (d : Dev) (sl : Slot) : Res :=
  let es := elements size sl.payload
  match findIdx (fun e => !ok e) es with
  | some i => { fail d eArg i with payload := rsp 0 d }
  | none => elemRes rsp (applyElems f d es 0 false)

def lenTimes (size most : Nat) (sl : Slot) : Bool := decide (sl.len % size = 0 ∧ 1 ≤ sl.len / size ∧ sl.len / size ≤ most)

def countRsp (n : Nat) (_ : Dev) : List Byte := toLe 4 n

def fdbInsert (ch : Nat) (d : Dev) : Dev :=
  runCmd d ch 0x201 1 anySlot (lenTimes 16 1024) fun d sl =>
    elemCmd 16 macElemOk (fun d l => insertElem d (slotFlag 0 sl) l) countRsp d sl

def execFdbInsert (ch : Nat) (s : State) : Host.Outcome State Fault Refusal := s.runIf (Instr.fdbInsert ch).wf (fdbInsert ch)

/-- Discard the queued notifications of an address (R203). -/
def dropNotes (d : Dev) (p : MacEnt → Bool) : Dev :=
  (List.range 4).foldl (fun d k =>
    let q := learnQueue d k
    let keep := q.filter fun e => !p e
    cntAdd (d.onFwd fun w => { w with learnQ := tput [] w.learnQ k keep }) (Reg.cplx k + Reg.learnqAck) (q.length - keep.length)) d

def deleteElem (d : Dev) (l : List Byte) : Nat × Bool × Dev :=
  let fid := le l 0 2
  let mac := be l 2 6
  let gone := (List.range 4).filterMap fun k => macGet (macTab d k) fid mac
  if gone = [] then (eNoent, false, d)
  else
    let d := (List.range 4).foldl (fun d k => setMac d k fun t => match macFind t fid mac with
      | some i => tdel t i
      | none => t) d
    let d := dropNotes d fun e => decide (e.fid = fid ∧ e.mac = mac)
    (0, gone.any (·.static), dropStatic d fid mac)

def macKeyOk (l : List Byte) : Bool := decide (le l 0 2 < 4096)

def fdbDelete (ch : Nat) (d : Dev) : Dev :=
  runCmd d ch 0x202 0 anySlot (lenTimes 8 2048) fun d sl => elemCmd 8 macKeyOk deleteElem countRsp d sl

def execFdbDelete (ch : Nat) (s : State) : Host.Outcome State Fault Refusal := s.runIf (Instr.fdbDelete ch).wf (fdbDelete ch)

/-- The copies of an address (R204). -/
def searchRes (d : Dev) (fid mac : Nat) : Res :=
  let cs := (List.range 4).map fun k => macGet (macTab d k) fid mac
  if cs.all (·.isNone) then fail d eNoent
  else
    { dev := d
      payload := toLe 4 (bitSet ((List.range 4).filter fun k => (cs.getD k none).isSome)) ++
        cs.flatMap fun c => match c with
          | some e => e.encode
          | none => zeros 16 }

def fdbSearch (ch : Nat) (d : Dev) : Dev :=
  runCmd d ch 0x203 0 anySlot (lenIs 8) fun d sl =>
    if macKeyOk sl.payload then searchRes d (le sl.payload 0 2) (be sl.payload 2 6) else fail d eArg

def execFdbSearch (ch : Nat) (s : State) : Host.Outcome State Fault Refusal := s.runIf (Instr.fdbSearch ch).wf (fdbSearch ch)

/-- Valid entries at or above a cursor, in table order (R205, R206). An `FID` field of 4096 or more and nonzero reserved bytes give
E_ARG whether or not the filter is asked for (DESIGN CHOICE, log entry 94). -/
def nextRes (d : Dev) (p : List Byte) : Res :=
  let k := le p 0 1
  let cur := le p 4 4
  let n := le p 8 2
  if 4 ≤ k ∨ 524287 < cur ∨ 1 < le p 1 1 ∨ 4096 ≤ le p 2 2 ∨ n = 0 ∨ 1023 < n ∨ le p 10 2 ≠ 0 then fail d eArg
  else
    let es := ((macTab d k).filter fun e =>
      decide (cur ≤ e.1) && (!bit (le p 1 1) 0 || decide (e.2.ty = 0 ∧ e.2.fid = le p 2 2))).take n
    match es.getLast? with
    | none => fail d eNoent
    | some l =>
      { dev := d, payload := toLe 4 (l.1 + 1) ++ toLe 2 es.length ++ zeros 10 ++ es.flatMap fun e => e.2.encode }

def fdbNext (ch : Nat) (d : Dev) : Dev := runCmd d ch 0x204 0 anySlot (lenIs 12) fun d sl => nextRes d sl.payload

def execFdbNext (ch : Nat) (s : State) : Host.Outcome State Fault Refusal := s.runIf (Instr.fdbNext ch).wf (fdbNext ch)

/-- Entries that a flush affects (R207). -/
def flushed (lag : Bool) (dest : Nat) (fid : Option Nat) (incl : Bool) (e : MacEnt) : Bool :=
  decide (e.ty = 0 ∧ ¬ e.isMcast ∧ e.isLag = lag ∧ e.dest = dest) && (incl || !e.static) &&
    match fid with
    | some f => decide (e.fid = f)
    | none => true

/-- Addresses that a flush affects: those of entries it matches in some copy. -/
def affected (d : Dev) (hit : MacEnt → Bool) : List (Nat × Nat) :=
  (List.range 4).flatMap fun k => ((macTab d k).filter fun e => hit e.2).map (·.2.key)

/-- The flush discards every queued notification of an affected address and removes its dynamic entries from every copy (R203). The
response counts the entries whose own `DEST` matches, not the other copies of their addresses (DESIGN CHOICE, log entry 94). -/
def flushRes (d : Dev) (p : List Byte) : Res :=
  let f := le p 2 1
  let lag := bit f 0
  let dest := le p 0 2
  let vid := le p 4 2
  if 7 < f ∨ le p 3 1 ≠ 0 ∨ le p 6 2 ≠ 0 ∨ (if lag then 256 else 512) ≤ dest ∨ (bit f 1 ∧ 4096 ≤ vid) then fail d eArg
  else
    let hit := flushed lag dest (if bit f 1 then some (vlanOf d 0 vid).fid else none) (bit f 2)
    let counts := (List.range 4).map fun k => ((macTab d k).filter fun e => hit e.2).length
    let gone := (List.range 4).flatMap fun k => ((macTab d k).filter fun e => hit e.2 && e.2.static).map (·.2.key)
    let keys := affected d hit
    let goes := fun e : MacEnt => hit e || (keys.contains e.key && decide (e.ty = 0) && !e.static)
    let e := (List.range 4).foldl (fun d k => setMac d k fun t => t.filter fun e => !goes e.2) (dropNotes d fun n => keys.contains n.key)
    { dev := gone.foldl (fun d x => dropStatic d x.1 x.2) e, payload := counts.flatMap (toLe 4), vint := !gone.isEmpty }

def fdbFlushByPort (ch : Nat) (d : Dev) : Dev := runCmd d ch 0x205 0 anySlot (lenIs 8) fun d sl => flushRes d sl.payload

def execFdbFlushByPort (ch : Nat) (s : State) : Host.Outcome State Fault Refusal :=
  s.runIf (Instr.fdbFlushByPort ch).wf (fdbFlushByPort ch)

end Sys2Proof.Machine
end

