-- ==== Sys2Proof/Machine/Parser.lean ====
section
/-! DEFINITION. The fixed-function parser (R106 to R118, R818), the payload pattern matcher (R119 to R124) and the rule key
(Tables 03-4 and 03-5). -/

namespace Sys2Proof.Machine

/-! ## Parser -/

/-- Whether an extent of `sz` bytes at `off` is met (R115, R116, R818) in a frame of n bytes without FCS: 0, HDR_LIMIT or
TRUNCATED. -/
def fits (n off sz : Nat) : Nat := if 256 < off + sz then 1 else if n < off + sz then 10 else 0

/-- Continue with the next header if the extent fits, otherwise fail. -/
def need (p : Parse) (n off sz : Nat) (k : Parse → Parse) : Parse :=
  let f := fits n off sz
  if f = 0 then k p else { p with fail := f }

/-- Inner headers of a VXLAN frame at q, as far as they end within the first 256 bytes (R110). A fragment, first or later,
has no ports (Table 04-7). -/
def parseInner (l : List Byte) (n q : Nat) : Option Inner :=
  let ok := fun off sz => fits n off sz = 0
  let ports := fun proto o => if (proto = 6 ∧ ok o 20) ∨ (proto = 17 ∧ ok o 8) then some (be l o 2, be l (o + 2) 2) else none
  if ¬ ok q 14 then none
  else if be l (q + 12) 2 = 0x0800 ∧ ok (q + 14) 20 then
    let o := q + 14
    let proto := be l (o + 9) 1
    some { fam := 4, src := be l (o + 12) 4, dst := be l (o + 16) 4, proto,
           ports := if be l (o + 6) 2 % 16384 = 0 then ports proto (o + be l o 1 % 16 * 4) else none }
  else if be l (q + 12) 2 = 0x86DD ∧ ok (q + 14) 40 then
    let o := q + 14
    let proto := be l (o + 6) 1
    some { fam := 6, src := be l (o + 8) 16, dst := be l (o + 24) 16, proto, ports := ports proto (o + 40) }
  else none

/-- The PTP header: messageType and the place of correctionField. -/
def parsePtp (l : List Byte) (n o : Nat) (p : Parse) : Parse :=
  need p n o 16 fun p => { p with ptpOff := some o, ptpType := be l o 1 % 16 }

/-- A position that may anchor a pattern: one beyond byte 256 is not found (R123). -/
def anchor (o : Nat) : Option Nat := if o ≤ 256 then some o else none

/-- The L4 header at o, `plen` bytes of IP payload (Table 03-1, causes 9, 12 and 13). -/
def parseL4 (l : List Byte) (n o proto plen : Nat) (p : Parse) : Parse :=
  if proto = 6 then
    need { p with l4 := 1 } n o 20 fun p =>
      if be l (o + 12) 1 / 16 < 5 then { p with fail := 9 }
      else { p with l4Off := some o, sport := be l o 2, dport := be l (o + 2) 2, tcpFlags := be l (o + 13) 1,
                    payOff := anchor (o + be l (o + 12) 1 / 16 * 4) }
  else if proto = 17 then
    need { p with l4 := 2 } n o 8 fun p =>
      if be l (o + 4) 2 < 8 ∨ plen < be l (o + 4) 2 then { p with fail := 13 }
      else
        let dp := be l (o + 2) 2
        let p := { p with l4Off := some o, sport := be l o 2, dport := dp, payOff := anchor (o + 8) }
        if dp = 319 ∨ dp = 320 then parsePtp l n (o + 8) { p with l4 := 6 }
        else if dp = 4789 then
          need { p with l4 := 7 } n (o + 8) 8 fun p =>
            if ¬ bit (be l (o + 8) 1) 3 then { p with fail := 12 }
            else { p with vni := some (be l (o + 12) 3), inner := parseInner l n (o + 16) }
        else p
  else if (proto = 1 ∧ p.l3 = 1) ∨ (proto = 58 ∧ p.l3 = 2) then
    need { p with l4 := if proto = 1 then 3 else 4 } n o 4 fun p => { p with l4Off := some o, sport := be l o 2 }
  else { p with l4 := 5 }

/-- IPv6 extension headers from o on (R106, R109, cause 7); `plen` is what is left of the payload. A Fragment header with offset 0 and
M 0 gives fragment 0, none, which Table 03-5 does not say (DESIGN CHOICE, log entry 93). -/
def parseExt (fuel : Nat) (l : List Byte) (n o nh plen : Nat) (p : Parse) : Parse :=
  match fuel with
  | 0 => p
  | fuel + 1 =>
    if nh = 0 ∨ nh = 43 ∨ nh = 44 ∨ nh = 60 then
      if p.exts = 2 then { p with fail := 7 }
      else
        need p n o 8 fun p =>
          let next := be l o 1
          let q := { p with exts := p.exts + 1, proto := next }
          if nh = 44 then
            let off := be l (o + 2) 2
            if off / 8 ≠ 0 then { q with frag := 2, l4 := 8 }
            else parseExt fuel l n (o + 8) next (plen - 8) { q with frag := off % 2 }
          else
            let sz := 8 * (be l (o + 1) 1 + 1)
            if n < o + sz then { p with fail := 10 } else parseExt fuel l n (o + sz) next (plen - sz) q
    else parseL4 l n o nh plen p

/-- The IPv4 header at o. A header that breaks several conditions meets the first of IPV4_HDR, TRUNCATED options, IPV4_CSUM and
IPV4_LEN: R116 orders headers, not the conditions of one. Here and for IPV6_LEN the received frame ends before its FCS, which Table 03-2
says of TRUNCATED alone (DESIGN CHOICES, log entry 93). -/
def parseIpv4 (l : List Byte) (n o : Nat) (p : Parse) : Parse :=
  need { p with l3 := 1 } n o 20 fun p =>
    let ihl := be l o 1 % 16
    let tl := be l (o + 2) 2
    if be l o 1 / 16 ≠ 4 ∨ ihl < 5 then { p with fail := 4 }
    else if n < o + 4 * ihl then { p with fail := 10 }
    else if fold16 (sum16 ((l.drop o).take (4 * ihl))) ≠ 0xFFFF then { p with fail := 5 }
    else if tl < 4 * ihl ∨ n < o + tl then { p with fail := 6 }
    else
      let fo := be l (o + 6) 2
      let p := { p with l3Off := some o, tos := be l (o + 1) 1, ttl := be l (o + 8) 1, proto := be l (o + 9) 1,
                        src := be l (o + 12) 4, dst := be l (o + 16) 4, options := decide (5 < ihl) }
      if fo % 8192 ≠ 0 then { p with frag := 2, l4 := 8 }
      else parseL4 l n (o + 4 * ihl) p.proto (tl - 4 * ihl) { p with frag := b2n (bit fo 13) }

def parseIpv6 (l : List Byte) (n o : Nat) (p : Parse) : Parse :=
  need { p with l3 := 2 } n o 40 fun p =>
    let w := be l o 4
    let pl := be l (o + 4) 2
    if n < o + 40 + pl then { p with fail := 8 }
    else
      let p := { p with l3Off := some o, tos := bits w 20 8, flow := bits w 0 20, ttl := be l (o + 7) 1, proto := be l (o + 6) 1,
                        src := be l (o + 8) 16, dst := be l (o + 24) 16 }
      parseExt 4 l n (o + 40) p.proto pl p

/-- MPLS labels from o on (R106, R108, cause 3). A frame that fails inside the stack, whose payload is never reached, keeps
`L3_TYPE` 0 (DESIGN CHOICE, log entry 93). -/
def parseMpls (fuel : Nat) (l : List Byte) (n o : Nat) (p : Parse) : Parse :=
  match fuel with
  | 0 => { p with fail := 3 }
  | fuel + 1 =>
    need p n o 4 fun p =>
      let w := be l o 4
      let p := { p with labels := p.labels ++ [w / 4096] }
      if bit w 8 then
        if 256 ≤ o + 4 then { p with fail := 1 }
        else if n ≤ o + 4 then { p with l3 := 4 }
        else
          let nib := be l (o + 4) 1 / 16
          if nib = 4 then parseIpv4 l n (o + 4) p else if nib = 6 then parseIpv6 l n (o + 4) p else { p with l3 := 4 }
      else parseMpls fuel l n (o + 4) p

/-- The SecTAG at its ethertype (cause 11); the parse ends after it. The last L2 header ends with it: until then none has. One that the
frame cuts short meets TRUNCATED, whatever its version bit and SL are (DESIGN CHOICE, log entry 93). -/
def parseSec (l : List Byte) (n pos : Nat) (p : Parse) : Parse :=
  need { p with l3 := 5, l2End := 0 } n pos 8 fun p =>
    let tci := be l (pos + 2) 1
    let sz := if bit tci 5 then 16 else 8
    need p n pos sz fun p =>
      if bit tci 7 ∨ 47 < be l (pos + 3) 1 % 64 then { p with fail := 11 }
      else { p with macsec := true, l2End := pos + sz }

/-- From the innermost ethertype on. ARP, PTP, LLDP, beacon and industrial frames have an L3 header start behind it, beside
IPv4 and IPv6 headers that parse; MPLS with non-IP payload, MACsec, unknown ethertypes and IP headers that fail have none
(DESIGN CHOICE, log entry 93: R122 does not say which frames have one). For format 0 [138:75] a SecTAG counts as an L2 header and MPLS
labels do not, so that its bytes begin at the first label (DESIGN CHOICE, log entry 93). -/
def parseType (l : List Byte) (n pos : Nat) (rt : Nat → Option Nat) (p : Parse) : Parse :=
  let ty := be l pos 2
  let p := { p with etype := ty, l2End := pos + 2 }
  if ty = 0x88E5 then parseSec l n pos p
  else if ty = 0x8847 ∨ ty = 0x8848 then parseMpls 3 l n (pos + 2) p
  else if ty = 0x0800 then parseIpv4 l n (pos + 2) p
  else if ty = 0x86DD then parseIpv6 l n (pos + 2) p
  else if ty = 0x0806 then { p with l3 := 3, l3Off := some (pos + 2) }
  else if ty = 0x88F7 then parsePtp l n (pos + 2) { p with l3 := 6, l3Off := some (pos + 2) }
  else if ty = 0x88CC then { p with l3 := 7, l3Off := some (pos + 2) }
  else if ty = 0x88B5 then { p with l3 := 8, l3Off := some (pos + 2) }
  else
    match rt ty with
    | some i => { p with l3 := 9, rtIdx := some i, l3Off := some (pos + 2) }
    | none => p

/-- VLAN tags (R107, cause 2), then the R-TAG. `pos` is where the next type field stands. A frame that fails here has no innermost
ethertype: the key field is 0, not the type of the tag that fails (DESIGN CHOICE, log entry 93). -/
def parseTags (fuel : Nat) (l : List Byte) (n pos : Nat) (rt : Nat → Option Nat) (p : Parse) : Parse :=
  match fuel with
  | 0 => p
  | fuel + 1 =>
    let ty := be l pos 2
    if ty = 0x8100 ∧ p.tagCount = 2 then { p with fail := 2 }
    else if (ty = 0x8100 ∨ (ty = 0x88A8 ∧ p.tagCount = 0)) then
      need p n pos 6 fun p =>
        let tci := be l (pos + 2) 2
        parseTags fuel l n (pos + 4) rt
          (if p.tagCount = 0 then { p with tagCount := 1, tpid1 := ty, tci1 := tci } else { p with tagCount := 2, tci2 := tci })
    else if ty = 0xF1C1 then
      need p n pos 8 fun p => parseType l n (pos + 6) rt { p with rtag := some (be l (pos + 4) 2) }
    else parseType l n pos rt p

/-- Parse a frame, destination address through FCS (R106 to R117). `rt` gives the industrial index of an ethertype. -/
def parseFrame (l : List Byte) (rt : Nat → Option Nat) : Parse :=
  let n := l.length - 4
  need {} n 0 14 fun p => parseTags 4 l n 12 rt p

/-- The industrial index of an ethertype in tile t (R112). -/
def rtIndex (d : Dev) (t ty : Nat) : Option Nat :=
  (List.range 16).find? fun i =>
    let e := rd d (Reg.tile t + Reg.parseRtEtype i)
    bit e 16 && decide (e % 65536 = ty)

/-! ## Pattern matcher -/

/-- The active pattern set of tile t (R119). -/
def activeSet (d : Dev) (t : Nat) : Nat := fld d (Reg.tile t + Reg.patSts) 0 1

/-- Compare a pattern at s (R121). -/
def patAt (e : PatEnt) (w : List Byte) (s : Nat) : Bool :=
  (List.range e.len).all fun i =>
    !bit e.byteMask i || decide (w.getD (s + i) 0 = e.value.getD i 0)

/-- The anchor's position (Table 03-3, R122). -/
def patAnchor (p : Parse) (a : Nat) : Option Nat :=
  if a = 0 then some 0 else if a = 1 then p.l3Off.bind anchor else if a = 2 then p.l4Off.bind anchor else p.payOff

def patMatch (e : PatEnt) (w : List Byte) (p : Parse) : Bool :=
  e.valid &&
    match patAnchor p e.anchor with
    | none => false
    | some a => (List.range (e.maxOff + 1 - e.minOff)).any fun i =>
        decide (a + e.minOff + i + e.len ≤ w.length) && patAt e w (a + e.minOff + i)

/-- The hit vector of a frame (R120 to R123). -/
def hitVector (set : Tab PatEnt) (l : List Byte) (p : Parse) : Nat :=
  let w := (l.take (l.length - 4)).take 512
  bitSet ((set.filter fun e => patMatch e.2 w p).map (·.2.hit % 64))

/-! ## Rule key -/

/-- Place a field with its low bit at `lo`. -/
def put (lo w v : Nat) : Nat := (v % 2 ^ w) <<< lo

/-- First 8 bytes after the last L2 header; 0 where that header was not reached (R117, R129). They are bytes of the frame, not
fields of the header that begins there, and stay where that one fails (DESIGN CHOICE, log entry 93). -/
def afterL2 (l : List Byte) (p : Parse) : Nat :=
  if p.l2End = 0 then 0 else beVal (padTo 8 (((l.take (l.length - 4)).drop p.l2End).take 8))

/-- Bits [255:64] of the key (Table 03-5); `da`, `sa` in network order. An IP frame under the other family's format keeps its
L4 ports, TCP flags, VNI and fragment field (of a later fragment R109 says so); every other field of that format is 0 (DESIGN CHOICE,
log entry 93). -/
def keyFormat (fmt : Nat) (l : List Byte) (p : Parse) : Nat :=
  if fmt = 0 then
    put 208 48 (be l 0 6) + put 160 48 (be l 6 6) + put 144 16 p.etype + put 143 1 (b2n p.rtIdx.isSome)
      + put 139 4 (p.rtIdx.getD 0) + put 75 64 (afterL2 l p)
  else if fmt = 1 then
    if p.l3 = 1 then
      put 224 32 p.src + put 192 32 p.dst + put 184 8 p.proto + put 178 6 (p.tos / 4) + put 176 2 p.tos
        + put 160 16 p.sport + put 144 16 p.dport + put 136 8 p.tcpFlags + put 134 2 p.frag + put 133 1 (b2n p.options)
        + put 125 8 p.ttl + put 101 24 (p.vni.getD 0) + put 100 1 (b2n p.vni.isSome)
    else put 160 16 p.sport + put 144 16 p.dport + put 136 8 p.tcpFlags + put 134 2 p.frag + put 101 24 (p.vni.getD 0) + put 100 1 (b2n p.vni.isSome)
  else
    let a := if p.l3 = 2 then (if fmt = 2 then p.dst else p.src) else 0
    let v6 := if p.l3 = 2 then put 120 8 p.proto + put 112 8 p.tos + put 70 2 p.exts else 0
    put 128 128 a + v6 + put 68 2 p.frag + put 96 16 p.sport + put 80 16 p.dport + put 72 8 p.tcpFlags

/-- The 320-bit rule key (Table 03-4). A frame whose Ethernet header itself fails has none of its fields (R117). -/
def ruleKey (fmt prof inPort tenant : Nat) (frame : List Byte) (p : Parse) (hits : Nat) : Nat :=
  let l := if frame.length < 18 then [] else frame
  put 316 4 fmt + put 312 4 prof + put 303 9 inPort + put 299 4 tenant + put 296 3 (p.tci1 / 8192) + put 284 12 p.tci1
    + put 272 12 p.tci2 + put 270 2 p.tagCount + put 269 1 (b2n p.macsec) + put 268 1 (b2n p.rtag.isSome)
    + put 266 2 p.labels.length + put 262 4 p.l3 + put 258 4 p.l4 + put 256 1 (b2n (isGroup (be l 0 6)))
    + keyFormat fmt l p + put 0 64 hits

end Sys2Proof.Machine
end

