-- ==== Sys2Proof/Machine/Lpm.lean ====
section
/-! DEFINITION. Prefixes and the route search, next hops, ECMP groups and LAGs, flow hashes (chapter 04, Table 12-10). -/

namespace Sys2Proof.Machine

/-! ## Prefixes (R211 to R216) -/

def addrBits (fam : Nat) : Nat := if fam = 4 then 32 else 128

def Prefix.covers (p : Prefix) (fam addr : Nat) : Bool :=
  decide (p.fam = fam ∧ addr / 2 ^ (addrBits fam - p.len) = p.addr / 2 ^ (addrBits fam - p.len))

/-- Units of a prefix in the LPM store (R214) and entries in the spill CAM (R215). -/
def prefixUnits (fam len : Nat) : Nat := if fam = 4 then 1 else if len ≤ 64 then 2 else 4
def camEntries (fam len : Nat) : Nat := if fam = 6 ∧ 64 < len then 2 else 1

def sumOf {α : Type} (l : List α) (f : α → Nat) : Nat := l.foldl (fun a x => a + f x) 0

/-- Complex k's prefixes. -/
def lpmOf (d : Dev) (k : Nat) : List Prefix := (tget {} d.fwd.lpm k).prefixes

def hashUnits (l : List Prefix) : Nat := sumOf (l.filter fun p => decide (p.place = .hash)) fun p => prefixUnits p.fam p.len

def lpmUnits (d : Dev) (k : Nat) : Nat := hashUnits (lpmOf d k)
def camUsed (d : Dev) (k : Nat) : Nat := sumOf ((lpmOf d k).filter fun p => decide (p.place = .cam)) fun p => camEntries p.fam p.len

/-! ## Pages of the LPM store -/

def lengthKey (fam len : Nat) : Nat := 256 * fam + len

/-- Units of the prefixes of one length in its hash table. -/
def lengthUnits (l : List Prefix) (fam len : Nat) : Nat := hashUnits (l.filter fun p => decide (p.fam = fam ∧ p.len = len))

/-- Pages of the pool of 256 that no table has. -/
def freePages (s : Lpm) : Nat := 256 - sumOf s.pages (·.2)

/-- A length's table as its prefixes stand: none without a prefix, one page for the first, and doubled while its fill passes
75 % and the doubled table fits in free pages (chapter 04, "Where prefixes live"). -/
def fitPages (s : Lpm) (fam len : Nat) : Lpm :=
  let n := lengthUnits s.prefixes fam len
  let p := tget 0 s.pages (lengthKey fam len)
  if n = 0 then { s with pages := tdel s.pages (lengthKey fam len) }
  else if p = 0 then { s with pages := tput 0 s.pages (lengthKey fam len) (min 1 (freePages s)) }
  else if 3 * 4096 * p < 4 * n ∧ 2 * p ≤ freePages s then { s with pages := tins s.pages (lengthKey fam len) (2 * p) }
  else s

/-- Change the prefixes of the four copies, complex 0 first (R223), with the pages of one length. -/
def setLpm (d : Dev) (fam len : Nat) (f : List Prefix → List Prefix) : Dev :=
  (List.range 4).foldl (fun d k => d.onFwd fun w =>
    { w with lpm := tmod {} w.lpm k fun s => fitPages { s with prefixes := f s.prefixes } fam len }) d

/-- Write an IPv4 or IPv6 host in one copy: part 2 before part 1 (R187). -/
def putHost (t : Tab MacEnt) (i fam addr route : Nat) : Tab MacEnt :=
  if fam = 4 then tins t i { ty := 1, addr, route }
  else tins (tins t (i + 1) { ty := 3, addr := addr % 2 ^ 64 }) i { ty := 2, addr := addr / 2 ^ 64, route }

def setHostEntries (d : Dev) (fam addr route : Nat) : Dev :=
  (List.range 4).foldl (fun d k => setMac d k fun t =>
    match (hostFind t fam addr).or (newHost t fam addr) with
    | some i => putHost t i fam addr route
    | none => t) d

def dropHostEntries (d : Dev) (fam addr : Nat) : Dev :=
  (List.range 4).foldl (fun d k => setMac d k fun t =>
    match hostFind t fam addr with
    | some i => if fam = 4 then tdel t i else tdel (tdel t i) (i + 1)
    | none => t) d

def Prefix.same (p : Prefix) (fam len addr : Nat) : Bool := decide (p.fam = fam ∧ p.len = len ∧ p.addr = addr)

/-- An element of `LPM_ADD`. -/
def parsePrefix (l : List Byte) : Prefix :=
  let fam := le l 0 1
  { fam, len := le l 1 1, addr := if fam = 4 then be l 8 4 else be l 8 16, route := le l 2 3, place := .hash }

/-- Its syntax. `del`: the route result is ignored. -/
def prefixOk (del : Bool) (l : List Byte) : Bool :=
  let p := parsePrefix l
  decide ((p.fam = 4 ∨ p.fam = 6) ∧ p.len ≤ addrBits p.fam ∧ p.addr % 2 ^ (addrBits p.fam - p.len) = 0
    ∧ (p.fam = 4 → l.drop 12 = zeros 12) ∧ le l 5 3 = 0
    ∧ (del ∨ (p.route < 2 ^ 18 ∧ (p.route % 4 = 1 → p.route / 4 < 16384))))

/-- Where a new prefix goes; `none` where it finds no room. The first prefix of a length finds empty buckets in a new page; a
table without room for it, or a length for which no page is free, has no slot. Between these, whether both candidate buckets
are full hangs on a bucket geometry that the manual does not give: a free value (log entry 3). A host prefix goes into the MAC/host
table where all four copies have room for it, and into the CAM otherwise (DESIGN CHOICE, log entry 85: R211 does not say what happens
where the copies differ). -/
def placeOf (d : Dev) (p : Prefix) : Option Place × Dev :=
  let cam := if camUsed d 0 + camEntries p.fam p.len ≤ 16384 then some Place.cam else none
  let s := tget {} d.fwd.lpm 0
  let pages := tget 0 s.pages (lengthKey p.fam p.len)
  let used := lengthUnits s.prefixes p.fam p.len
  if p.len = 0 then (some .dflt, d)
  else if p.len = addrBits p.fam then
    (if (List.range 4).all fun k => (newHost (macTab d k) p.fam p.addr).isSome then some .host else cam, d)
  else if 1048576 < lpmUnits d 0 + prefixUnits p.fam p.len then (none, d)
  else if used = 0 then (if 0 < freePages s then some .hash else cam, d)
  else if 4096 * pages < used + prefixUnits p.fam p.len then (cam, d)
  else
    let (r, d) := fresh d
    (if r % 2 = 0 then some .hash else cam, d)

def addPrefix (replace : Bool) (d : Dev) (l : List Byte) : Nat × Bool × Dev :=
  let p := parsePrefix l
  match (lpmOf d 0).find? fun q => q.same p.fam p.len p.addr with
  | some q =>
    if !replace then (eExist, false, d)
    else
      let d := setLpm d p.fam p.len (List.map fun x => if x = q then { x with route := p.route } else x)
      let d := if q.place = .host then setHostEntries d p.fam p.addr p.route else d
      (0, true, putCfg d 35 0 l)
  | none =>
    match placeOf d p with
    | (none, d) => (eFull, false, d)
    | (some pl, d) =>
      let d := setLpm d p.fam p.len (· ++ [{ p with place := pl }])
      let d := if pl = .host then setHostEntries d p.fam p.addr p.route else d
      (0, true, putCfg d 35 0 l)

def delPrefix (d : Dev) (l : List Byte) : Nat × Bool × Dev :=
  let p := parsePrefix l
  match (lpmOf d 0).find? fun q => q.same p.fam p.len p.addr with
  | none => (eNoent, false, d)
  | some q =>
    let d := setLpm d p.fam p.len (List.filter (· ≠ q))
    let d := if q.place = .host then dropHostEntries d p.fam p.addr else d
    (0, true, delCfg d 35 0 l)

def unitsRsp (_ : Nat) (d : Dev) : List Byte := toLe 4 (lpmUnits d 0)

def lpmAdd (ch : Nat) (d : Dev) : Dev :=
  runCmd d ch 0x210 1 anySlot (lenTimes 24 682) fun d sl =>
    elemCmd 24 (prefixOk false) (addPrefix (slotFlag 0 sl)) unitsRsp d sl

def execLpmAdd (ch : Nat) (s : State) : Host.Outcome State Fault Refusal := s.runIf (Instr.lpmAdd ch).wf (lpmAdd ch)

def lpmDelete (ch : Nat) (d : Dev) : Dev :=
  runCmd d ch 0x211 0 anySlot (lenTimes 24 682) fun d sl => elemCmd 24 (prefixOk true) delPrefix unitsRsp d sl

def execLpmDelete (ch : Nat) (s : State) : Host.Outcome State Fault Refusal := s.runIf (Instr.lpmDelete ch).wf (lpmDelete ch)

/-! ## Search (R217 to R221) -/

/-- The longest prefix of a place that covers an address. -/
def longest (l : List Prefix) (pl : Place) (fam addr : Nat) : Option Prefix :=
  l.foldl (fun b p =>
    if decide (p.place = pl) && p.covers fam addr && (match b with | some q => decide (q.len < p.len) | none => true) then some p
    else b) none

/-- Length, kind of match (0 host, 1 hash, 2 spill CAM, 3 default) and route result, searched in complex k. -/
def routeFind (d : Dev) (k fam addr : Nat) : Option (Nat × Nat × Nat) :=
  match hostFind (macTab d k) fam addr with
  | some i => some (addrBits fam, 0, ((tfind (macTab d k) i).map (·.route)).getD 0)
  | none =>
    match longest (lpmOf d k) .hash fam addr, longest (lpmOf d k) .cam fam addr with
    | some h, some c => if h.len < c.len then some (c.len, 2, c.route) else some (h.len, 1, h.route)
    | some h, none => some (h.len, 1, h.route)
    | none, some c => some (c.len, 2, c.route)
    | none, none => (longest (lpmOf d k) .dflt fam addr).map fun p => (0, 3, p.route)

/-- Populated lengths of a family in complex k's LPM store, longest first. -/
def lengths (d : Dev) (k fam : Nat) : List Nat :=
  ((List.range 129).filter fun n => (lpmOf d k).any fun p => decide (p.place = .hash ∧ p.fam = fam ∧ p.len = n)).reverse

/-- Probe the lengths whose filter says yes, longest first: probes made and false positives. A filter never says no to a
prefix that matches (R219); whether it says yes to one that does not is a free value (log entry 3). -/
def probe (d : Dev) (k fam addr : Nat) (ls : List Nat) (n fp : Nat) : Nat × Nat × Dev :=
  match ls with
  | [] => (n, fp, d)
  | x :: r =>
    if (lpmOf d k).any fun p => decide (p.place = .hash ∧ p.len = x) && p.covers fam addr then (n + 1, fp, d)
    else
      let (v, d) := fresh d
      if v % 2 = 1 then probe d k fam addr r (n + 1) (fp + 1) else probe d k fam addr r n fp

/-- The route search of a frame, with the counts of R220 and R221. -/
def routeSearch (d : Dev) (k fam addr : Nat) : Option (Nat × Nat × Nat) × Dev :=
  let r := routeFind d k fam addr
  if (hostFind (macTab d k) fam addr).isSome then (r, d)
  else
    let (n, fp, d) := probe d k fam addr (lengths d k fam) 0 0
    let d := if fp = 0 then d else cntAdd d (Reg.cplx k + Reg.lpmFilterFp) fp
    (r, if n ≤ 8 then d else cntAdd d (Reg.cplx k + Reg.lpmProbeOverrun) ((n - 1) / 8))

/-- `LPM_SEARCH`. -/
def lpmSearchRes (d : Dev) (p : List Byte) : Res :=
  let fam := le p 0 1
  if ¬ (fam = 4 ∨ fam = 6) ∨ 4 ≤ le p 1 1 ∨ le p 2 2 ≠ 0 ∨ (fam = 4 ∧ p.drop 8 ≠ zeros 12) then fail d eArg
  else
    match routeFind d (le p 1 1) fam (if fam = 4 then be p 4 4 else be p 4 16) with
    | none => fail d eNoent
    | some (len, via, route) => { dev := d, payload := toLe 1 len ++ toLe 1 via ++ toLe 3 route ++ zeros 3 }

def lpmSearch (ch : Nat) (d : Dev) : Dev := runCmd d ch 0x212 0 anySlot (lenIs 20) fun d sl => lpmSearchRes d sl.payload

def execLpmSearch (ch : Nat) (s : State) : Host.Outcome State Fault Refusal := s.runIf (Instr.lpmSearch ch).wf (lpmSearch ch)

/-! ## Next hops, ECMP and LAG (Table 04-6) -/

structure NextHop where
  resolved : Bool
  isLag : Bool
  dest : Nat
  dmac : Nat
  vid : Nat

def nextHop (d : Dev) (k n : Nat) : NextHop :=
  let v := pathOf d k 3 n
  { resolved := bit (le v 0 1) 0, isLag := bit (le v 0 1) 1, dest := le v 2 2, dmac := be v 4 6, vid := le v 10 2 % 4096 }

/-- Members of an ECMP group: next hop and weight. -/
def ecmpMembers (d : Dev) (k g : Nat) : List (Nat × Nat) :=
  let v := pathOf d k 4 g
  (List.range (le v 0 2)).map fun i => (le v (4 + 3 * i) 2, le v (6 + 3 * i) 1)

def linkUp? (d : Dev) (p : Nat) : Bool := flag d (Reg.port p + Reg.pSts) 0

/-- Disabled, absorbed or without link (R836). -/
def portDead (d : Dev) (p : Nat) : Bool :=
  decide (fld d (Reg.port p + Reg.pMode) 0 4 = 0) || flag d (Reg.port p + Reg.pMode) 12 || !linkUp? d p

/-- Members of a group in complex k by number with their weight: next hops of an ECMP group or ports of a LAG. -/
def groupMembers (d : Dev) (k : Nat) (lag : Bool) (g : Nat) : List (Nat × Nat) :=
  if lag then (lagMembers d k g).map fun p => (p, 1) else ecmpMembers d k g

/-- A member's liveness (R234): its port's link, or any link of its LAG. -/
def memberLive (d : Dev) (k : Nat) (lag : Bool) (m : Nat) : Bool :=
  if lag then linkUp? d m
  else
    let h := nextHop d k m
    if h.isLag then (lagMembers d k h.dest).any (linkUp? d) else linkUp? d h.dest

def groupKey (lag : Bool) (g : Nat) : Nat := if lag then 16384 + g else g

def groupBuckets (d : Dev) (k : Nat) (lag : Bool) (g : Nat) : List Nat := tget [] (tget [] d.fwd.buckets k) (groupKey lag g)

/-- Firmware writes a group's buckets in the four copies (R171). -/
def setBuckets (d : Dev) (lag : Bool) (g : Nat) (l : List Nat) : Dev :=
  (List.range 4).foldl (fun d k => d.onFwd fun w => { w with buckets := tmod [] w.buckets k (tput [] · (groupKey lag g) l) }) d

/-- The member that bucket b resolves to, trying at most 8 buckets after it (R235, R236), and whether it failed over. -/
def pickMember (d : Dev) (k : Nat) (lag : Bool) (g b : Nat) : Option (Nat × Bool) :=
  let bs := groupBuckets d k lag g
  let ms := groupMembers d k lag g
  let at_ := fun i => (ms.getD (bs.getD ((b + i) % bs.length) 0) (0, 0)).1
  if bs.isEmpty ∨ ms.isEmpty then none
  else ((List.range 9).find? fun i => memberLive d k lag (at_ i)).map fun i => (at_ i, decide (0 < i))

/-- Resolve with the counts of R235 and R236 in complex k; a frame that fails over at its ECMP group and at a LAG, or at several LAGs of
one flood, is counted once for each (DESIGN CHOICE, log entry 115). -/
def resolveMember (d : Dev) (k : Nat) (lag : Bool) (g b : Nat) : Option Nat × Dev :=
  match pickMember d k lag g b with
  | none => (none, cnt d (Reg.cplx k + Reg.pathNoMember))
  | some (m, moved) => (some m, if moved then cnt d (Reg.cplx k + Reg.pathFailoverCnt) else d)

/-! ## Hashes (R229 to R232) -/

/-- Addresses and ports, ordered as R231 asks. Between equal addresses the ports stay in source, destination order (DESIGN CHOICE, log
entry 115). -/
def flowFields (sym : Bool) (fam src dst proto : Nat) (ports : Option (Nat × Nat)) : List Byte :=
  let n := if fam = 4 then 4 else 16
  let sw := sym && decide (dst < src)
  let (a, b) := if sw then (dst, src) else (src, dst)
  toBe n a ++ toBe n b ++ toBe 1 proto ++
    match ports with
    | some (s, t) => if sw then toBe 2 t ++ toBe 2 s else toBe 2 s ++ toBe 2 t
    | none => []

def portsOf (proto sport dport : Nat) : Option (Nat × Nat) := if proto = 6 ∨ proto = 17 then some (sport, dport) else none

/-- The fields of Table 04-7. A field narrower than whole bytes is fed in the fewest bytes that hold it: MPLS label and flow
label 3, VID and ingress port 2; with `VXLAN_INNER` and `FLOW_LABEL` both on it is the outer flow label that is fed
(DESIGN CHOICE, log entry 94). -/
def hashFields (cfg : Nat) (l : List Byte) (p : Parse) (inPort vid : Nat) : List Byte :=
  let sym := bit cfg 0
  let fam := if p.l3 = 1 then 4 else 6
  let own :=
    if p.l3 = 1 ∨ p.l3 = 2 then flowFields sym fam p.src p.dst p.proto (if p.frag = 0 then portsOf p.proto p.sport p.dport else none)
    else if p.l3 = 4 then p.labels.flatMap (toBe 3)
    else
      let sw := sym && decide (be l 0 6 < be l 6 6)
      (if sw then toBe 6 (be l 0 6) ++ toBe 6 (be l 6 6)
       else if sym then toBe 6 (be l 6 6) ++ toBe 6 (be l 0 6) else toBe 6 (be l 0 6) ++ toBe 6 (be l 6 6))
        ++ toBe 2 p.etype ++ toBe 2 vid
  let main := match p.inner with
    | some i => if bit cfg 3 ∧ p.l4 = 7 then flowFields sym i.fam i.src i.dst i.proto i.ports else own
    | none => own
  main ++ (if bit cfg 1 then toBe 2 inPort else []) ++ (if bit cfg 2 ∧ p.l3 = 2 then toBe 3 p.flow else [])

def flowHash (d : Dev) (k : Nat) (b : Bool) (l : List Byte) (p : Parse) (inPort vid : Nat) : Nat :=
  crc32c (toLe 4 (rd d (Reg.cplx k + (if b then Reg.hashSeedB else Reg.hashSeedA))) ++
    hashFields (rd d (Reg.cplx k + Reg.hashCfg)) l p inPort vid)

/-! ## Bucket assignment (R237 to R239) -/

/-- Buckets of a group before any change: bucket i to member i mod n when weights are equal, otherwise in proportion to the
weights; how buckets of unequal weights interleave is not stated: the rotation is a free value (log entry 13). -/
def freshBuckets (d : Dev) (ms : List (Nat × Nat)) (b : Nat) : List Nat × Dev :=
  let w := sumOf ms (·.2)
  if ms.all fun m => decide (m.2 = (ms.headD (0, 1)).2) then ((List.range b).map (· % ms.length), d)
  else
    let (r, d) := fresh d
    let ends := (List.range ms.length).map fun i => sumOf (ms.take (i + 1)) (·.2)
    ((List.range b).map fun i => (findIdx (fun e => decide ((i + r) % b * w < e * b)) ends).getD 0, d)

/-- The default bucket count: the smallest power of two at least 16 × members, up to 4,096. -/
def defaultB (n : Nat) : Nat := min 4096 (((List.range 13).map (2 ^ ·)).find? (fun x => decide (16 * n ≤ x)) |>.getD 4096)

def ecmpB (v : List Byte) : Nat := if le v 2 1 = 0xFF then defaultB (le v 0 2) else 2 ^ le v 2 1

def held (bs : List Nat) (m : Nat) : Nat := bs.count m

/-- First number of a list with the least, or the greatest, measure. -/
def argmin (f : Nat → Nat) (l : List Nat) : Option Nat :=
  l.foldl (fun b x => match b with | some y => if f x < f y then some x else b | none => some x) none
def argmax (f : Nat → Nat) (l : List Nat) : Option Nat :=
  l.foldl (fun b x => match b with | some y => if f y < f x then some x else b | none => some x) none

/-- R237: the buckets of member m, in ascending order, go to the survivor with the fewest. -/
def reassign (bs : List Nat) (m : Nat) (surv : List Nat) : List Nat :=
  (List.range bs.length).foldl (fun bs i =>
    if bs.getD i 0 = m then
      match argmin (held bs) surv with
      | some x => setNth bs i x
      | none => bs
    else bs) bs

/-- Members that are live, by number; firmware goes by complex 0, as it keeps the four alike (R171). -/
def liveMembers (d : Dev) (lag : Bool) (g : Nat) : List Nat :=
  let ms := groupMembers d 0 lag g
  (List.range ms.length).filter fun i => memberLive d 0 lag (ms.getD i (0, 0)).1

def memberReassign (lag : Bool) (g m : Nat) (d : Dev) : Dev :=
  let ms := groupMembers d 0 lag g
  let live := liveMembers d lag g
  if !d.boot.fwRunning || live.contains m || decide (ms.length ≤ m) then d
  else setBuckets d lag g (reassign (groupBuckets d 0 lag g) m live)

def execMemberReassign (lag : Bool) (group member : Nat) (s : State) : Host.Outcome State Fault Refusal :=
  s.runIf (Instr.memberReassign lag group member).wf (memberReassign lag group member)

/-- R238: one bucket from the member that holds the most, among those above their fair share. -/
def takeOne (m : Nat) (from_ : List Nat) (share : Nat → Nat) (bs : List Nat) : List Nat :=
  match argmax (held bs) (from_.filter fun x => decide (share x < held bs x)) with
  | none => bs
  | some x =>
    match ((List.range bs.length).reverse).find? fun i => decide (bs.getD i 0 = x) with
    | some i => setNth bs i m
    | none => bs

/-- Fair share of member m (R238): its weight's part of the buckets among the live members; a share that is no whole number is rounded
down (DESIGN CHOICE, log entry 115). -/
def fairShare (ms : List (Nat × Nat)) (live : List Nat) (m b : Nat) : Nat :=
  b * (ms.getD m (0, 0)).2 / sumOf live fun i => (ms.getD i (0, 0)).2

/-- A member that is not live has no share, so that buckets it still holds go first of all to one that is (log entry 115). -/
def shareOf (ms : List (Nat × Nat)) (live : List Nat) (b x : Nat) : Nat := if live.contains x then fairShare ms live x b else 0

/-- R238: live member m takes buckets until it holds its fair share. -/
def regain (ms : List (Nat × Nat)) (live : List Nat) (m : Nat) (bs : List Nat) : List Nat :=
  iter (shareOf ms live bs.length m - held bs m)
    (takeOne m ((List.range ms.length).filter (· ≠ m)) (shareOf ms live bs.length)) bs

def memberAdd (lag : Bool) (g m : Nat) (d : Dev) : Dev :=
  let live := liveMembers d lag g
  if !d.boot.fwRunning || !live.contains m then d
  else setBuckets d lag g (regain (groupMembers d 0 lag g) live m (groupBuckets d 0 lag g))

def execMemberAdd (lag : Bool) (group member : Nat) (s : State) : Host.Outcome State Fault Refusal :=
  s.runIf (Instr.memberAdd lag group member).wf (memberAdd lag group member)

end Sys2Proof.Machine
end

