-- ==== Sys2Proof/Machine/Rules.lean ====
section
/-! DEFINITION. Token buckets, the rule banks with their counters and meters, and the rule and pattern commands (chapters 03
and 07, Table 12-11). -/

namespace Sys2Proof.Machine

/-! ## Token buckets (R360 to R366) -/

/-- Units of a token of one byte: 400 Gbit/s is 1/20 byte per ps, so a rate M, E gains M × 2^(15 − E) units per ps. -/
def tokenUnit : Nat := 20 * 65536 * 32768

/-- E and M of a rate in kbit/s: the largest E whose base rate is at least the rate, M rounded down (R362). -/
def rateE (kbit : Nat) : Nat := (((List.range 16).filter fun e => decide (kbit * 2 ^ e ≤ 400000000)).getLast?).getD 0
def rateM (kbit : Nat) : Nat := kbit * 2 ^ rateE kbit * 65536 / 400000000

/-- The encoding of `SHAPER_RATE`[19:0]. -/
def rateWord (kbit : Nat) : Nat := rateE kbit + (rateM kbit - 1) * 16

/-- Units gained per ps at an encoded rate. -/
def rateGain (w : Nat) : Nat := (bits w 4 16 + 1) * 2 ^ (15 - bits w 0 4)

/-- Bring a bucket up to a time: it gains continuously and holds at most its burst (R365). -/
def Bucket.fill (b : Bucket) (gain cap now : Nat) : Bucket :=
  let t := b.tokens + (gain * (now - b.since) : Nat)
  { tokens := if (cap : Int) ≤ t then (cap : Int) else t, since := now }

def Bucket.full (cap now : Nat) : Bucket := { tokens := cap, since := now }

def Bucket.take (b : Bucket) (n : Nat) : Bucket := { b with tokens := b.tokens - (n : Int) }

def Bucket.holds (b : Bucket) (n : Nat) : Bool := decide ((n : Int) ≤ b.tokens)

/-! ## Meters (Tables 07-2 and 07-3) -/

/-- Colour of a frame of n bytes (0 green, 1 yellow, 2 red) and the meter after it (R371 to R373). -/
def meterColour (m : MeterEnt) (now n : Nat) (yellow : Bool) : Nat × MeterEnt :=
  let b1 := m.t1.fill (rateGain m.rate1) (m.burst1 * tokenUnit) now
  let b2 := m.t2.fill (rateGain m.rate2) (m.burst2 * tokenUnit) now
  let u := n * tokenUnit
  let y := m.aware && yellow
  if m.mode = 1 then
    if !b2.holds u then (2, { m with t1 := b1, t2 := b2 })
    else if y || !b1.holds u then (1, { m with t1 := b1, t2 := b2.take u })
    else (0, { m with t1 := b1.take u, t2 := b2.take u })
  else if m.mode = 2 then
    if !y && b1.holds u then (0, { m with t1 := b1.take u, t2 := b2 })
    else if b2.holds u then (1, { m with t1 := b1, t2 := b2.take u })
    else (2, { m with t1 := b1, t2 := b2 })
  else (0, m)

/-! ## The rule search (R130 to R140) -/

/-- The global mask of a profile. -/
def profMask (d : Dev) (k prof : Nat) : Nat :=
  (List.range 10).foldl (fun a w => a + rd d (Reg.cplx k + Reg.ruleProfMask prof w) <<< (32 * w)) 0

def ruleTab (d : Dev) (k : Nat) : Tab RuleEnt := tget [] d.fwd.rules k

def RuleEnt.hits (e : RuleEnt) (key gmask : Nat) : Bool :=
  bit e.action 0 && decide ((key ^^^ e.value) &&& (e.mask &&& gmask) = 0)

/-- Indices of all matching entries of the enabled banks, ascending. -/
def ruleMatches (d : Dev) (k prof key : Nat) : List Nat :=
  let en := fld d (Reg.cplx k + Reg.ruleProfCfg prof) 16 16
  let gm := profMask d k prof
  ((ruleTab d k).filter fun e => decide (e.1 < 32768) && bit en (e.1 / 2048) && e.2.hits key gm).map (·.1)

/-- Entries that a search counts: the lowest match of each bank (Table 03-7). -/
def counted (ms : List Nat) : List Nat :=
  (List.range 16).filterMap fun b => ms.find? fun g => decide (g / 2048 = b)

/-- What the rule search does to a frame of n bytes: its colour, whether R146 discards it, and the first match. -/
def ruleSearch (d : Dev) (k prof key n : Nat) (yellow : Bool) : Nat × Bool × List Nat × Dev :=
  if !flag d (Reg.cplx k + Reg.ruleProfCfg prof) 4 then (0, false, [], d)
  else
    let ms := ruleMatches d k prof key
    let d := if 2 ≤ ms.length then cnt d (Reg.cplx k + Reg.ruleMultiCnt) else d
    let cs := counted ms
    let d := cs.foldl (fun d g => ruleCount d k g n) d
    match ms.head? with
    | none => (0, false, cs, d)
    | some g =>
      let a := (tget {} (ruleTab d k) g).action
      let i := bits a 1 14
      if i = 0 then (0, false, cs, d)
      else
        let (c, m) := meterColour (tget {} (tget [] d.fwd.meters k) i) d.now n yellow
        let d := d.onFwd fun w => { w with meters := tmod [] w.meters k (tput {} · i m) }
        let red := decide (c = 2) && bit a 15
        (c, red, cs, if red then cnt d (Reg.cplx k + Reg.ruleRedDrop) else d)

/-! ## RULE_WRITE and its chunks (R150 to R157) -/

def parseRule (l : List Byte) : RuleEnt := { value := le l 0 40, mask := le l 40 40, action := le l 80 4 }

def ruleHeadOk (p : List Byte) : Bool :=
  let n := le p 2 2
  decide (1 ≤ n ∧ n ≤ 194 ∧ p.length = 4 + 84 * n ∧ le p 0 2 + n ≤ 32768)

/-- The first entry of a payload that has a reserved action bit set. -/
def badRule (p : List Byte) : Option Nat :=
  findIdx (fun i => decide (65536 ≤ (parseRule (p.drop (4 + 84 * i))).action)) (List.range (le p 2 2))

def rulePayloadOk (p : List Byte) : Bool := ruleHeadOk p && (badRule p).isNone

/-- Write one entry in complex k; its counters and totals start again (R150). -/
def writeRule (d : Dev) (k g : Nat) (e : RuleEnt) : Dev :=
  let d := d.onFwd fun w => { w with rules := tmod [] w.rules k (tput {} · g e) }
  let a := Reg.cplx k + Reg.ruleFrames g
  let d := wr (wr (wr d a 0) (a + 4) 0) (a + 8) 0
  d.onTel fun t => { t with wraps := tdel (tdel t.wraps a) (a + 4), totals := tdel (tdel t.totals a) (a + 4) }

/-- Keys that wait in the four tiles of complex k. -/
def backlog (d : Dev) (k : Nat) : Nat :=
  (d.buf.frames.filter fun e => decide (e.2.inPort / 128 = k ∧ e.2.cls ≠ 7) && !e.2.keyed && !e.2.dead).length

/-- Position i of a payload's writes: chunk i / 4 of at most 16 entries, in complex i mod 4; a chunk begins 20 µs or more
after the complex's previous one (R154, R155). -/
def writeChunk (p : List Byte) (d : Dev) (i : Nat) : Dev :=
  let k := i % 4
  let g := le p 0 2
  let n := le p 2 2
  let d := match tfind d.fwd.chunkAt k with
    | some t => reach d (t + 20 * ps_us)
    | none => d
  let d := (List.range (min 16 (n - i / 4 * 16))).foldl (fun d j =>
    writeRule d k (g + i / 4 * 16 + j) (parseRule (p.drop (4 + 84 * (i / 4 * 16 + j))))) d
  cnt (d.onFwd fun w => { w with chunkAt := tins w.chunkAt k d.now }) (Reg.cplx k + Reg.rulePauseCnt)

/-- Positions of a payload, and those not yet written by channel ch. -/
def chunkCount (p : List Byte) : Nat := 4 * ceilDiv (le p 2 2) 16

def chunksDone (d : Dev) (ch : Nat) : Nat :=
  match d.fwd.ruleJob with
  | some (c, n) => if c = ch then n else 0
  | none => 0

/-- The lengths that `RULE_WRITE` has. -/
def ruleLen (sl : Slot) : Bool := headedLen 4 84 194 sl

/-- One chunk of the `RULE_WRITE` at the head of a channel, in one complex. -/
def ruleChunkWrite (ch : Nat) (d : Dev) : Dev :=
  match (chanOf d ch).inflight with
  | [] => d
  | sl :: _ =>
    let i := chunksDone d ch
    if !d.boot.fwRunning ∨ sl.opcode ≠ 0x301 ∨ slotFlag 0 sl ∨ lockWaits d ch sl ∨ checks d ch sl 1 (ruleLen sl) ≠ 0 ∨ !rulePayloadOk sl.payload
      ∨ chunkCount sl.payload ≤ i ∨ backlog d (i % 4) ≠ 0 then d
    else (writeChunk sl.payload d i).onFwd fun w => { w with ruleJob := some (ch, i + 1) }

def execRuleChunkWrite (ch : Nat) (s : State) : Host.Outcome State Fault Refusal :=
  s.runIf (Instr.ruleChunkWrite ch).wf (ruleChunkWrite ch)

/-- The records of the first n entries of a payload. -/
def ruleRecords (d : Dev) (p : List Byte) (n : Nat) : Dev :=
  (List.range n).foldl (fun d j => putCfg d 36 (le p 0 2 + j) ((p.drop (4 + 84 * j)).take 84)) d

def ruleWriteRes (ch : Nat) (d : Dev) (sl : Slot) : Res :=
  let p := sl.payload
  if !ruleHeadOk p then fail d eArg
  else
  match badRule p with
  | some i => fail d eArg i
  | none =>
    let i := chunksDone d ch
    let d := ((List.range (chunkCount p - i)).map (· + i)).foldl (writeChunk p) d
    { dev := (ruleRecords d p (le p 2 2)).onFwd fun w => { w with ruleJob := none }, vint := true }

/-- No key waits in a complex that still lacks a chunk (R155). -/
def chunksFree (d : Dev) (ch : Nat) (p : List Byte) : Bool :=
  (List.range (chunkCount p)).all fun i => decide (i < chunksDone d ch ∨ backlog d (i % 4) = 0)

/-- The command's remaining chunks are written and it completes (R157); a valid one waits while keys wait where a chunk is still to be
written (R155). -/
def ruleWrite (ch : Nat) (d : Dev) : Dev :=
  runCmd d ch 0x301 1 (fun sl => !slotFlag 0 sl && (!rulePayloadOk sl.payload || chunksFree d ch sl.payload)) ruleLen (ruleWriteRes ch)

def execRuleWrite (ch : Nat) (s : State) : Host.Outcome State Fault Refusal := s.runIf (Instr.ruleWrite ch).wf (ruleWrite ch)

/-! ## RULE_WRITE METER -/

/-- A rate of `SHAPER_SET` in kbit/s (R361). -/
def rateOk (kbit : Nat) : Bool := decide (1000 ≤ kbit ∧ kbit ≤ 400000000)

/-- An encoded rate (Table 07-2) of 1 Mbit/s at least (R361); none encodes more than 400 Gbit/s. -/
def rateWordOk (w : Nat) : Bool := decide (w < 2 ^ 20 ∧ 2 ^ 31 ≤ 400000 * rateGain w)

/-- An element of `RULE_WRITE` with `METER`: its rates are encoded as `SHAPER_RATE`[19:0] (Table 07-2). -/
def meterElemOk (l : List Byte) : Bool :=
  decide (le l 0 1 < 8 ∧ le l 0 1 % 4 ≠ 3 ∧ le l 1 3 = 0 ∧ le l 8 4 ≤ 16777216 ∧ le l 16 4 ≤ 16777216
    ∧ (le l 0 1 % 4 = 1 → rateGain (le l 4 4) ≤ rateGain (le l 12 4))) && rateWordOk (le l 4 4) && rateWordOk (le l 12 4)

/-- The meter of an element, its buckets full. -/
def parseMeter (now : Nat) (l : List Byte) : MeterEnt :=
  { mode := le l 0 1 % 4, aware := bit (le l 0 1) 2, rate1 := le l 4 4, burst1 := le l 8 4, rate2 := le l 12 4,
    burst2 := le l 16 4, t1 := .full (le l 8 4 * tokenUnit) now, t2 := .full (le l 16 4 * tokenUnit) now }

def meterRes (d : Dev) (sl : Slot) : Res :=
  let p := sl.payload
  let g := le p 0 2
  let n := le p 2 2
  if n = 0 ∨ 819 < n ∨ p.length ≠ 4 + 20 * n ∨ g = 0 ∨ 16384 < g + n then fail d eArg
  else
    match findIdx (fun i => !meterElemOk (p.drop (4 + 20 * i))) (List.range n) with
    | some i => fail d eArg i
    | none =>
      let put := fun (d : Dev) i =>
        let l := (p.drop (4 + 20 * i)).take 20
        let m := parseMeter d.now l
        putCfg ((List.range 4).foldl (fun d k => d.onFwd fun w => { w with meters := tmod [] w.meters k (tput {} · (g + i) m) }) d)
          37 (g + i) l
      { dev := (List.range n).foldl put d, vint := true }

def ruleWriteMeter (ch : Nat) (d : Dev) : Dev :=
  runCmd d ch 0x301 1 (slotFlag 0) (headedLen 4 20 819) meterRes

def execRuleWriteMeter (ch : Nat) (s : State) : Host.Outcome State Fault Refusal :=
  s.runIf (Instr.ruleWriteMeter ch).wf (ruleWriteMeter ch)

/-! ## MATCH_STEP (R141, R142) -/

/-- The answer of `MATCH_STEP`. A complex above 3 or a profile above 15 names none: E_ARG as for the cursor (DESIGN CHOICE, log
entry 93: Table 12-11 gives it for the cursor alone). -/
def matchRes (d : Dev) (p : List Byte) : Res :=
  let k := le p 0 1
  let prof := le p 1 1
  let cur := le p 2 2
  if 4 ≤ k ∨ 16 ≤ prof ∨ 32768 ≤ cur then fail d eArg
  else
    let ms := ruleMatches d k prof (le p 4 40)
    match ms.find? fun g => decide (cur ≤ g) with
    | none => fail d eNoent
    | some g =>
      { dev := d
        payload := toLe 2 g ++ toLe 2 (b2n (decide (ms.head? = some g)) + 2 * b2n ((counted ms).contains g)
          + 4 * b2n (decide (2 ≤ ms.length))) }

def matchStep (ch : Nat) (d : Dev) : Dev := runCmd d ch 0x302 0 anySlot (lenIs 44) fun d sl => matchRes d sl.payload

def execMatchStep (ch : Nat) (s : State) : Host.Outcome State Fault Refusal := s.runIf (Instr.matchStep ch).wf (matchStep ch)

/-! ## PATTERN_LOAD (R126, R127) -/

def parsePat (l : List Byte) : PatEnt :=
  { value := (l.drop 16).take 32, byteMask := le l 12 4, len := le l 2 1, anchor := le l 3 1, minOff := le l 4 2, maxOff := le l 6 2,
    hit := le l 8 1, valid := bit (le l 9 1) 0 }

def patElemOk (l : List Byte) : Bool :=
  let e := parsePat l
  decide (le l 0 2 < 1024 ∧ 1 ≤ e.len ∧ e.len ≤ 32 ∧ e.anchor < 4 ∧ e.minOff ≤ e.maxOff ∧ e.maxOff < 512 ∧ e.hit < 64
    ∧ le l 9 1 < 2 ∧ le l 10 2 = 0)

/-- A tile takes the given patterns into its inactive set, with every other entry from the active one, and swaps. -/
def loadPats (es : List (List Byte)) (d : Dev) (t : Nat) : Dev :=
  let a := activeSet d t
  let set := es.foldl (fun s l => if (parsePat l).valid then tins s (le l 0 2) (parsePat l) else tdel s (le l 0 2))
    (tget [] d.fwd.pats (2 * t + a))
  let d := d.onFwd fun w => { w with pats := tput [] w.pats (2 * t + (1 - a)) set }
  let d := es.foldl (fun d l => putCfg d 38 (1024 * t + le l 0 2) l) d
  tcnt (setFld d (Reg.tile t + Reg.patSts) 0 1 (1 - a)) t Reg.patSwapEvc

def patternRes (d : Dev) (sl : Slot) : Res :=
  let p := sl.payload
  let n := le p 2 2
  if 341 < n ∨ p.length ≠ 4 + 48 * n then fail d eArg
  else
    let es := (List.range n).map fun i => (p.drop (4 + 48 * i)).take 48
    match findIdx (fun l => !patElemOk l) es with
    | some i => fail d eArg i
    | none => { dev := (ones 16 (le p 0 2)).foldl (loadPats es) d, vint := true }

def patternLoad (ch : Nat) (d : Dev) : Dev :=
  runCmd d ch 0x303 0 anySlot (fun sl => decide (sl.len = 4) || headedLen 4 48 341 sl) patternRes

def execPatternLoad (ch : Nat) (s : State) : Host.Outcome State Fault Refusal := s.runIf (Instr.patternLoad ch).wf (patternLoad ch)

end Sys2Proof.Machine
end

