-- ==== Sys2Proof/Machine/Buffer.lean ====
section
/-! DEFINITION. The cell buffer: cells with their words, links and descriptors, what each part of a tile holds, admission, XOFF,
spill, cell errors, and how copies of a frame come and go (chapter 05). Use counts are taken from the frames and copies
themselves. -/

namespace Sys2Proof.Machine

def tileOf (p : Nat) : Nat := p / 32
def cplxOf (p : Nat) : Nat := p / 128
def cellsOf (n : Nat) : Nat := ceilDiv n 256

def frameOf (d : Dev) (f : Nat) : Option Frame := tfind d.buf.frames f
def copyOf (d : Dev) (c : Nat) : Option Copy := tfind d.buf.copies c

def setFrame (d : Dev) (f : Nat) (g : Frame → Frame) : Dev :=
  d.onBuf fun b => match tfind b.frames f with
    | some x => { b with frames := tins b.frames f (g x) }
    | none => b

def setCopy (d : Dev) (c : Nat) (g : Copy → Copy) : Dev :=
  d.onBuf fun b => match tfind b.copies c with
    | some x => { b with copies := tins b.copies c (g x) }
    | none => b

def copiesOf (d : Dev) (f : Nat) : List (Nat × Copy) := d.buf.copies.filter fun e => decide (e.2.frame = f)

/-- Bytes of a copy: those given it, as a mirror copy or as its port sends it, else its frame's. -/
def copyBytes (d : Dev) (c : Copy) : List Byte :=
  match c.bytes with
  | some l => l
  | none => ((frameOf d c.frame).map (·.bytes)).getD []

/-! ## Cells in use (Table 05-2) -/

/-- Cells that a copy holds in its ingress tile; a TC7 frame's cells are counted once, with the frame. -/
def Copy.chip (c : Copy) : Nat := if c.loc = .cellar ∨ c.part = .tc7 then 0 else c.cells - c.sent

def Copy.voq (c : Copy) : Nat := 8 * c.port + c.cls

def sumCopies (d : Dev) (p : Copy → Bool) (f : Copy → Nat) : Nat :=
  d.buf.copies.foldl (fun a e => if p e.2 then a + f e.2 else a) 0

def sumFrames (d : Dev) (p : Nat → Frame → Bool) (f : Nat → Frame → Nat) : Nat :=
  d.buf.frames.foldl (fun a e => if p e.1 e.2 then a + f e.1 e.2 else a) 0

/-- Cells of a TC7 frame in its ingress tile: all until its copies have crossed (R255). -/
def tc7Cells (d : Dev) (f : Nat) (x : Frame) : Nat :=
  if !x.keyed then cellsOf x.len else (copiesOf d f).foldl (fun a e => max a (e.2.cells - e.2.sent)) 0

/-- Ingress tile of a frame. -/
def Frame.tile (x : Frame) : Nat := tileOf x.inPort

def tc7Use (d : Dev) (t : Nat) : Nat :=
  sumFrames d (fun _ x => decide (x.cls = 7 ∧ x.tile = t)) (tc7Cells d)
    + sumCopies d (fun c => decide (c.part = .tc7 ∧ tileOf c.port = t)) (·.landed)

def landUse (d : Dev) (t : Nat) : Nat :=
  sumCopies d (fun c => decide (c.part ≠ .tc7 ∧ tileOf c.port = t) && !c.lifeline) (·.landed)

/-- Cells that frames still waiting for their result hold; the thresholds count them with the shared pool. -/
def waitUse (d : Dev) (t : Nat) : Nat :=
  sumFrames d (fun _ x => decide (x.cls ≠ 7 ∧ x.tile = t) && !x.keyed && !x.dead) fun _ x => cellsOf x.len

def partUse (d : Dev) (t : Nat) (p : Part) : Nat := sumCopies d (fun c => decide (c.tile = t ∧ c.part = p)) Copy.chip

def sharedUse (d : Dev) (t : Nat) : Nat := partUse d t .shared + waitUse d t

/-- Cells of a tenant outside the VOQ reservations. A frame that waits for its result is admitted to no part and charged to no tenant yet
(DESIGN CHOICE, log entry 29). -/
def tenantUse (d : Dev) (t tn : Nat) : Nat :=
  sumCopies d (fun c => decide (c.tile = t ∧ c.tenant = tn ∧ c.part ≠ .reservation)) Copy.chip

def classCfg (d : Dev) (t c : Nat) : Nat := rd d (Reg.tile t + Reg.classBufCfg c)

def headroomSize (d : Dev) (t : Nat) : Nat :=
  sumOf (List.range 32) fun n =>
    (ones 8 (rd d (Reg.portPfcCfg (32 * t + n)))).length * (rd d (Reg.portPfcHr (32 * t + n)) % 65536)

def guarSize (d : Dev) (t : Nat) : Nat := sumOf (List.range 16) fun n => rd d (Reg.tile t + Reg.tenantBufCfg n) % 65536

def resSize (d : Dev) (t : Nat) : Nat := 512 * sumOf (List.range 7) fun c => bits (classCfg d t c) 4 8

/-- What the parts leave for the shared pool, negative if they do not fit. -/
def sharedRest (d : Dev) (t : Nat) : Int := 49152 - 2560 - 2048 - 4096 - (headroomSize d t + resSize d t + guarSize d t : Nat)

def sharedSize (d : Dev) (t : Nat) : Nat := (sharedRest d t).toNat

/-- Ullage; what the running tile cycle has freed is not available before the next (R251). -/
def ullage (d : Dev) (t : Nat) : Nat := sharedSize d t - sharedUse d t - (tget [] d.buf.freeing t).length

/-- Cells that hold a frame itself: until its first copy takes them over; a TC7 frame's go as its copies cross. -/
def frameCells (d : Dev) (f : Nat) (x : Frame) : List Nat :=
  if x.cls = 7 then x.chain.drop (x.chain.length - tc7Cells d f x) else if x.keyed || x.dead then [] else x.chain

/-- Cells of a tile that a frame or a copy owns. -/
def ownedCells (d : Dev) (t : Nat) : List Nat :=
  (d.buf.frames.flatMap fun e => if e.2.tile = t then frameCells d e.1 e.2 else [])
    ++ d.buf.copies.flatMap fun e => (if e.2.tile = t then e.2.chain else []) ++ if tileOf e.2.port = t then e.2.land else []

/-- The frame itself is still there: it waits, or a copy that is no mirror copy carries it; a mirror copy is a frame of its own (log
entry 97). -/
def frameHere (d : Dev) (f : Nat) : Bool :=
  match frameOf d f with
  | none => false
  | some x => !x.tailIn || !(x.keyed || x.dead) || (copiesOf d f).any fun e => e.2.mirror.isNone

/-- A frame, or a mirror copy, that owned the cross-linked cell or rack is still there (R305). -/
def linkHeld (d : Dev) (e : CrossLink) : Bool := e.frames.any (frameHere d) || e.mirrors.any fun c => (copyOf d c).isSome

/-- Cross-linked cells or racks of a number that a frame which owned them still holds (R305). -/
def crossLinked (d : Dev) (l : Tab (List CrossLink)) (n : Nat) : List Nat := ((tget [] l n).filter (linkHeld d)).map (·.num)

/-- Cells that neither the free list nor a queue holds. -/
def strayCells (d : Dev) (t : Nat) : List Nat := tget [] d.buf.lost t ++ crossLinked d d.buf.crossCells t

/-- Cells of a tile that are not free. -/
def cellsUsed (d : Dev) (t : Nat) : Nat :=
  sumCopies d (fun c => decide (c.tile = t)) Copy.chip + waitUse d t + tc7Use d t + landUse d t
    + ((strayCells d t).eraseDups.filter fun c => !(ownedCells d t).contains c).length

/-! ## Cells (R242 to R246) -/

/-- Cells of a tile (R247). -/
def tileCells : Nat := 49152

/-- The next n cells from c on, cyclically, that are not in use. -/
def takeCells (used : List Nat) (fuel n c : Nat) : List Nat :=
  match fuel with
  | 0 => []
  | fuel + 1 =>
    if n = 0 then []
    else if used.contains c then takeCells used fuel n ((c + 1) % tileCells)
    else c :: takeCells used fuel (n - 1) ((c + 1) % tileCells)

/-- n cells off the free list of a tile, which does not hold yet what the running tile cycle has freed (R251); which ones it hands out
first the manual leaves open (log entry 95). -/
def allocCells (d : Dev) (t n : Nat) : List Nat × Dev :=
  let used := ownedCells d t ++ strayCells d t ++ tget [] d.buf.freeing t
  let (r, d) := fresh d
  (takeCells used (used.length + n) n (r % tileCells), d)

/-- The 32 words of a cell, each with its SECDED code (R243). -/
def cellWords (cell : List Byte) : List (Nat × BitVec 8) :=
  (List.range 32).map fun i => let w := le cell (8 * i) 8; (w, Config.secded (BitVec.ofNat 64 w))

/-- A link word (R244): the next cell of the frame, or at its last cell the bytes that cell holds, with its SECDED code over the
two fields as this model joins them (log entry 95). -/
structure LinkWord where
  next : Option Nat
  bytes : Option Nat
  code : BitVec 8
  deriving DecidableEq, Repr

/-- The link word of the i-th cell of a chain that holds a frame of n bytes. -/
def linkWord (chain : List Nat) (n i : Nat) : LinkWord :=
  let next := chain[i + 1]?
  let bytes := if next.isNone then some (n - 256 * i) else none
  { next, bytes, code := Config.secded (BitVec.ofNat 64 (next.getD 0 + 65536 * bytes.getD 0 + 2 ^ 32 * b2n next.isNone)) }

/-- The 16 bytes of a frame descriptor (Table 05-1). -/
def descriptor (x : Frame) (first : Nat) (packed ct : Bool) : List Byte :=
  toLe 16 (x.len % 2 ^ 14 + 2 ^ 14 * (x.inPort % 512) + 2 ^ 23 * (x.cls % 8) + 2 ^ 26 * (x.tenant % 16) + 2 ^ 30 * (x.colour % 4)
    + 2 ^ 32 * (x.arrival % two32) + 2 ^ 64 * (first % 65536) + 2 ^ 80 * ((x.parse.ptpOff.map fun o => (o + 8) / 2).getD 0 % 256)
    + 2 ^ 88 * b2n packed + 2 ^ 89 * b2n ct + 2 ^ 96 * (x.departIntent % two32))

/-- The descriptor of a frame while it waits for its result (R246): it has no egress port yet, so that `CT_ELIG` is 0 (DESIGN CHOICE, log
entry 84). -/
def frameDesc (x : Frame) : List Byte := descriptor x (x.chain.head?.getD 0) false false

/-- The first cell of a copy: in its destination tile once a part of it has landed, in its ingress tile before, 0 in the cellar. -/
def firstCell (x : Frame) (c : Copy) : Nat :=
  if c.loc = .cellar then 0 else (c.land ++ c.chain ++ if c.part = .tc7 then x.chain else []).head?.getD 0

/-- The cellar record of copy n is packed. -/
def copyPacked (d : Dev) (n : Nat) : Bool := d.buf.segs.any fun e => e.2.recs.any fun r => decide (r.copy = n) && r.packed

/-- The descriptor of copy n (R246); a mirror copy's own length and class, and no correction (R733). -/
def copyDesc (d : Dev) (n : Nat) : List Byte :=
  match copyOf d n with
  | none => []
  | some c =>
    match frameOf d c.frame with
    | none => []
    | some x =>
      let x := if c.mirror.isSome then { x with parse := { x.parse with ptpOff := none }, departIntent := 0 } else x
      descriptor { x with len := if c.mirror.isSome then (copyBytes d c).length else x.len, cls := c.cls } (firstCell x c) (copyPacked d n) c.ct

/-- Cells for a copy in its ingress tile: those of its frame, if no copy has them, else free ones; a TC7 frame keeps its own. -/
def chainFor (d : Dev) (c : Copy) : List Nat × Dev :=
  if c.part = .tc7 then ([], d)
  else
    match frameOf d c.frame with
    | none => allocCells d c.tile c.cells
    | some x =>
      if x.chain = [] ∨ c.mirror.isSome then allocCells d c.tile c.cells
      else (x.chain, setFrame d c.frame fun x => { x with chain := [] })

/-- Cells overdrawn against the tail margin (R250, R256), each part of Table 05-2 taken as a whole (DESIGN CHOICE, log entry 29). -/
def overdrawn (d : Dev) (t : Nat) : Nat :=
  (sharedUse d t - sharedSize d t) + (landUse d t - 4096) + (partUse d t .guarantee - guarSize d t)
    + (partUse d t .reservation - resSize d t) + (partUse d t .headroom - headroomSize d t)

/-- On-chip depth of a VOQ, staging included. -/
def voqDepth (d : Dev) (t v : Nat) : Nat :=
  sumCopies d (fun c => decide (c.tile = t ∧ c.voq = v ∧ c.loc ≠ .cellar)) fun c => c.cells - c.sent

def voqPart (d : Dev) (t v : Nat) (p : Part) : Nat := sumCopies d (fun c => decide (c.tile = t ∧ c.voq = v ∧ c.part = p)) Copy.chip

def segKey (t v : Nat) : Nat := 4096 * t + v
def spilled (d : Dev) (t v : Nat) : Bool := (tfind d.buf.segs (segKey t v)).isSome

/-! ## PFC (R260 to R267) -/

def lossless (d : Dev) (p c : Nat) : Bool := bit (rd d (Reg.portPfcCfg p)) c && decide (c < 7)

/-- Cells of an ingress (port, class) pair in a part. -/
def pairUse (d : Dev) (p c : Nat) (pt : Part) : Nat :=
  sumCopies d (fun x => decide (x.cls = c ∧ x.part = pt ∧ x.mirror = none) &&
    (((frameOf d x.frame).map fun f => decide (f.inPort = p)).getD false)) Copy.chip

/-- Gbit/s of a `PORT_MODE.SPEED`. -/
def gbps (s : Nat) : Nat := [0, 10, 25, 50, 100, 200, 400, 800].getD s 0

def speedOf (d : Dev) (p : Nat) : Nat := fld d (Reg.port p + Reg.pMode) 0 4

/-- A pause quantum, 512 bit times, in ps. -/
def quantum (d : Dev) (p : Nat) : Nat := 512000 / gbps (speedOf d p)

def xoffOn (d : Dev) (p c : Nat) : Bool := (tfind d.buf.xoff (8 * p + c)).isSome

/-- Queue a PFC frame at the express MAC; a quiesced device sends none (R777). -/
def sendPfc (d : Dev) (p c time : Nat) : Dev :=
  if d.boot.phase = .quiesced then d else setEgr d p fun e => { e with ctl := e.ctl ++ [.pfc (1 <<< c) time] }

/-- Enter XOFF: one count, a PFC frame, repeated after 32,768 quanta. -/
def enterXoff (d : Dev) (p c : Nat) : Dev :=
  if xoffOn d p c then d
  else
    let d := d.onBuf fun b => { b with xoff := tins b.xoff (8 * p + c) (d.now + 32768 * quantum d p) }
    sendPfc (tcnt d (tileOf p) Reg.pfcXoffCnt) p c 0xFFFF

/-- Leave XOFF if R264 holds. -/
def leaveXoff (d : Dev) (p c : Nat) : Dev :=
  if xoffOn d p c && decide (pairUse d p c .headroom = 0) &&
      decide (pairUse d p c .shared + rd d (Reg.portPfcHr p) / 65536 ≤ rd d (Reg.portPfcCfg p) / 65536) then
    sendPfc (d.onBuf fun b => { b with xoff := tdel b.xoff (8 * p + c) }) p c 0
  else d

/-- Check every pair in XOFF after cells were freed. -/
def xoffExits (d : Dev) : Dev := d.buf.xoff.foldl (fun d e => leaveXoff d (e.1 / 8) (e.1 % 8)) d

/-! ## Admission (R249 to R262) -/

/-- A frame bound for a VOQ. -/
structure Bid where
  tile : Nat
  port : Nat
  cls : Nat
  tenant : Nat
  colour : Nat
  cells : Nat

/-- own < α × U × 2^−d with α = 2^k. -/
def underAlpha (k : Int) (own u col : Nat) : Bool := decide (own * 2 ^ (6 + col) < u * 2 ^ (k + 6).toNat)

/-- The part that admits, or the counter of the refusal (R252, R254). -/
def admitPart (d : Dev) (b : Bid) : Except Nat Part :=
  let v := 8 * b.port + b.cls
  let cc := classCfg d b.tile b.cls
  let tc := rd d (Reg.tile b.tile + Reg.tenantBufCfg b.tenant)
  let guar := sumCopies d (fun c => decide (c.tile = b.tile ∧ c.tenant = b.tenant ∧ c.part = .guarantee)) Copy.chip
  if voqPart d b.tile v .reservation < bits cc 4 8 then .ok .reservation
  else if guar < tc % 65536 then .ok .guarantee
  else if underAlpha (signed 4 cc) (voqPart d b.tile v .shared) (ullage d b.tile) b.colour then
    if tenantUse d b.tile b.tenant < tc / 65536 then .ok .shared else .error Reg.dropTenantCap
  else .error Reg.dropThresh

/-- Lossless pairs take headroom where R252 refuses (R262). -/
def admitPair (d : Dev) (b : Bid) (inPort : Nat) : Except Nat Part :=
  match admitPart d b with
  | .ok p => .ok p
  | .error e =>
    if lossless d inPort b.cls then
      if pairUse d inPort b.cls .headroom < rd d (Reg.portPfcHr inPort) % 65536 then .ok .headroom else .error Reg.dropHeadroom
    else .error e

/-- XOFF entry after an admission to part pt; other than from the headroom, it depends on the shared cells alone (R263). -/
def checkXoff (d : Dev) (p c : Nat) (pt : Part) : Dev :=
  if lossless d p c && (decide (pt = .headroom) || decide (rd d (Reg.portPfcCfg p) / 65536 ≤ pairUse d p c .shared)) then enterXoff d p c
  else d

/-- A VOQ whose depth exceeds `SPILL_AT` becomes spilled (R271). -/
def checkSpill (d : Dev) (t v : Nat) : Dev :=
  let c := v % 8
  if c < 7 ∧ bit (classCfg d t c) 12 ∧ ¬ spilled d t v ∧ rd d (Reg.tile t + Reg.spillCfg c) % 65536 < voqDepth d t v then
    tcnt (d.onBuf fun b => { b with segs := tins b.segs (segKey t v) {} }) t Reg.spillCnt
  else d

/-- Every VOQ of class c in tile t against the class's settings (R271). -/
def spillClass (c : Nat) (d : Dev) (t : Nat) : Dev :=
  ((d.buf.copies.filter fun e => decide (e.2.tile = t ∧ e.2.cls = c)).map fun e => e.2.voq).eraseDups.foldl (checkSpill · t ·) d

/-- Put an admitted copy into its VOQ, or into the staging of a spilled one (R274). -/
def enqueue (d : Dev) (c : Copy) : Dev :=
  let (chain, d) := chainFor d c
  let c := { c with loc := if spilled d c.tile c.voq then .staging else .voq, since := d.trl.slot, chain }
  let d := d.onBuf fun b => { b with copies := tins b.copies b.nextCopy c, nextCopy := b.nextCopy + 1 }
  checkSpill d c.tile c.voq

/-! ## Frames and copies leave -/

/-- Note an injected frame's status (Table 11-8) for its descriptor, once. -/
def injectDone (d : Dev) (f : Nat) (status stamp : Nat) : Dev :=
  match (frameOf d f).bind (·.inject) with
  | none => d
  | some (e, n, _) =>
    d.onHost fun h =>
      let l := tget [] h.inject e
      match tfind l n with
      | some { desc, res := none } => { h with inject := tput [] h.inject e (tins l n { desc, res := some (status, stamp) }) }
      | _ => h

/-- A frame whose tail is in and that no copy carries any more is gone. -/
def sweepFrame (d : Dev) (f : Nat) : Dev :=
  match frameOf d f with
  | none => d
  | some x =>
    if (x.tailIn && x.keyed || x.dead && x.tailIn) && (copiesOf d f).isEmpty then
      d.onBuf fun b => { b with frames := tdel b.frames f }
    else d

/-- Take a copy out of the device. -/
def removeCopy (d : Dev) (c : Nat) : Dev :=
  match copyOf d c with
  | none => d
  | some x =>
    let d := d.onBuf fun b => { b with copies := tdel b.copies c }
    let d := setEgr d x.port fun e => { e with
      queues := (List.range 8).foldl (fun q k => tmod [] q k (List.filter (· ≠ c))) e.queues
      express := if e.express = some c then none else e.express
      preempt := if e.preempt = some c then none else e.preempt }
    sweepFrame d x.frame

/-! ## A VOQ's cellar segment as frames leave (R277, R280, R284) -/

def segOf (d : Dev) (t v : Nat) : Segment := tget {} d.buf.segs (segKey t v)

def setSeg (d : Dev) (t v : Nat) (s : Segment) : Dev := d.onBuf fun b => { b with segs := tins b.segs (segKey t v) s }

/-- Cells of the VOQ's head. -/
def headCells (d : Dev) (t v : Nat) : Nat := sumCopies d (fun c => decide (c.tile = t ∧ c.voq = v ∧ c.loc = .voq)) Copy.chip

/-- The VOQ has frames in the cellar. -/
def hasCellar (d : Dev) (t v : Nat) : Bool := d.buf.copies.any fun e => decide (e.2.tile = t ∧ e.2.voq = v ∧ e.2.loc = .cellar)

/-- The head has run dry while the cellar segment has not (R280). -/
def starved (d : Dev) (t v : Nat) : Bool := spilled d t v && decide (headCells d t v = 0) && hasCellar d t v

/-- A rack goes back to its stack's list once every record with bytes in it has been refilled or discarded (R284); a record may
span racks in which it neither begins nor ends (log entry 96). -/
def rackDone (s : Segment) (r : Rack) : Bool :=
  !r.held && s.recs.all fun x => decide (x.start + x.len ≤ 4096 * r.seq ∨ 4096 * (r.seq + 1) ≤ x.start)

def freeRack (d : Dev) (r : Rack) : Dev :=
  d.onBuf fun b => { b with usedRacks := tmod [] b.usedRacks r.stack (List.filter (· ≠ r.rack)) }

/-- Free the racks of a segment that are done. -/
def freeRacksDone (d : Dev) (t v : Nat) : Dev :=
  let s := segOf d t v
  let d := (s.racks.filter (rackDone s)).foldl freeRack d
  if spilled d t v then setSeg d t v { s with racks := s.racks.filter fun r => !rackDone s r } else d

/-- The record of a copy that was discarded in the cellar is no longer refilled. -/
def dropRec (d : Dev) (t v id : Nat) : Dev :=
  if spilled d t v then
    let s := segOf d t v
    freeRacksDone (setSeg d t v { s with recs := s.recs.filter fun r => decide (r.copy ≠ id) }) t v
  else d

/-- The segment is empty and no rack waits for its controller: staging joins the head and the VOQ is no longer spilled (R277). A
segment that holds no frame ends as well once the head has run dry, whether or not it ever held one (log entry 96). A VOQ that is too
deep without its cellar segment becomes spilled afresh (R271). -/
def endSpill (d : Dev) (t v : Nat) (left : Bool) : Dev :=
  let s := segOf d t v
  if !spilled d t v || hasCellar d t v || s.racks.any (·.held) || !(left || decide (headCells d t v = 0)) then d
  else
    let d := s.racks.foldl freeRack d
    let d := d.onBuf fun b => { b with
      segs := tdel b.segs (segKey t v)
      copies := b.copies.map fun e =>
        if e.2.tile = t ∧ e.2.voq = v ∧ e.2.loc = .staging then (e.1, { e.2 with loc := .voq, since := d.trl.slot }) else e }
    checkSpill d t v

/-- What follows a change of a VOQ's frames: a head that runs dry is counted (R280), an empty segment ends (R277). -/
def voqChange (t v : Nat) (f : Dev → Dev) (d : Dev) : Dev :=
  let e := f d
  let e := if !starved d t v && starved e t v then tcnt e t Reg.cellarHeadEmpty else e
  endSpill e t v (hasCellar d t v && !hasCellar e t v)

/-- Discard a copy: an injected frame that no other copy carries completes with status 5 (R675). -/
def discardCopy (d : Dev) (c : Nat) : Dev :=
  match copyOf d c with
  | none => d
  | some x =>
    let last := !((copiesOf d x.frame).any fun e => decide (e.1 ≠ c) && e.2.mirror.isNone)
    let d := if x.mirror = none && last then injectDone d x.frame 5 0 else d
    xoffExits (voqChange x.tile x.voq (fun d => dropRec (removeCopy d c) x.tile x.voq c) d)

/-- The MAC sends the copy, or has sent fragments of it. -/
def Copy.onWire (c : Copy) : Bool := decide (c.loc = .sending ∨ c.loc = .preempted)

/-- A copy in transmission is corked, any other one goes (R28, R29, R82, R245), a mirror copy to `MIR_DROP` (R733, Table 13-6a). -/
def corkOrDrop (d : Dev) (e : Nat × Copy) : Dev :=
  if e.2.onWire then setCopy d e.1 fun c => { c with corked := true }
  else
    match e.2.mirror with
    | some s => discardCopy (cnt d (Reg.tile e.2.tile + Reg.mirDrop s)) e.1
    | none => discardCopy d e.1

/-- Condemn a frame, or those copies of it that `p` names: it makes no further copy, and these copies go or are corked. An injected
frame that still waits for its result completes (R675). -/
def condemnSome (p : Copy → Bool) (d : Dev) (f : Nat) : Dev :=
  let d := if ((frameOf d f).map (·.keyed)).getD true then d else injectDone d f 5 0
  let d := setFrame d f fun x => { x with dead := true }
  sweepFrame (((copiesOf d f).filter fun e => p e.2).foldl corkOrDrop d) f

def condemn (d : Dev) (f : Nat) : Dev := condemnSome (fun _ => true) d f

/-! ## Cell errors (R245) -/

/-- Bytes that the cells of a copy hold, whatever its port makes of them: a mirror copy's own, else its frame's. -/
def heldLen (d : Dev) (c : Copy) : Nat :=
  if c.mirror.isSome then (copyBytes d c).length else ((frameOf d c.frame).map (·.len)).getD (copyBytes d c).length

/-- The bytes of the cells `holes` of a copy in transmission are gone: what the MAC sends in their place, from the first byte on that
no fragment has carried, is open (R83, R84, log entry 97). -/
def junkBytes (d : Dev) (id : Nat) (c : Copy) (holes : List Nat) : Dev :=
  let l := copyBytes d c
  let n := heldLen d c
  let (r, d) := fresh d
  let junk := toLe l.length (r % 256 ^ l.length)
  let gone := fun i => decide (c.fragBytes ≤ i) && holes.contains ((i + n - l.length) / 256)
  setCopy d id fun c => { c with bytes := some ((List.range l.length).map fun i => if gone i then junk.getD i 0 else l.getD i 0) }

/-- An uncorrectable error in a cell of a copy condemns its frame, every copy of it but the mirror copies, which are frames of their
own; in a mirror copy it condemns that copy alone (log entry 97). The bytes of `holes` are gone. -/
def condemnCopy (d : Dev) (id : Nat) (holes : List Nat) : Dev :=
  match copyOf d id with
  | none => d
  | some c =>
    let d := if c.onWire then junkBytes d id c holes else d
    let d := setCopy d id fun c => { c with holes := c.holes ++ holes }
    if c.mirror.isSome then corkOrDrop d (id, c) else condemnSome (·.mirror.isNone) d c.frame

/-- Every frame that owns a cross-linked cell or rack has an uncorrectable cell error (R245, R305). -/
def condemnOwners (d : Dev) (e : CrossLink) : Dev :=
  e.mirrors.foldl (fun d c => condemnCopy d c []) (e.frames.foldl (condemnSome (·.mirror.isNone)) d)

/-- Cells of a copy beyond a broken link word of its i-th cell, in its ingress tile and in its destination tile. -/
def beyondIn (d : Dev) (c : Copy) (i : Nat) : List Nat :=
  if c.part = .tc7 then (((frameOf d c.frame).map (·.chain)).getD []).drop (i + 1) else c.chain.drop (i + 1 - c.sent)

def beyondOut (c : Copy) (i : Nat) : List Nat :=
  let at_ := (List.range (c.land.length + c.missed.length)).filter fun k => !c.missed.contains k
  ((c.land.zip at_).filter fun e => decide (i < e.2)).map (·.1)

/-- Cells of a copy that have come to its destination tile or were lost on the way. -/
def Copy.arrived (c : Copy) : Nat := c.landed + c.missed.length

/-- Cells lose their owner, those from index i on; a copy that was to cross from them ends where it stands. -/
def loseCells (d : Dev) (t id i : Nat) (l : List Nat) : Dev :=
  let d := d.onBuf fun b => { b with lost := tmod [] b.lost t (· ++ l) }
  setCopy d id fun c => { c with
    sent := if c.chain.any l.contains then c.cells else c.sent
    landed := c.landed - (c.land.filter l.contains).length
    missed := if c.land.any l.contains then
        c.missed ++ (List.range c.arrived).filter fun k => decide (i ≤ k) && !c.missed.contains k else c.missed
    chain := if c.chain.any l.contains then [] else c.chain
    land := c.land.filter fun x => !l.contains x }

/-- An error met in a cell of tile t: it is counted, another error's frame though it may be; an uncorrectable one condemns the frame,
if it is still there, and behind a broken link word the cells `beyond` belong to nothing. -/
def cellErr (t : Nat) (beyond : List Nat) (d : Dev) (e : CellErr) : Dev :=
  if !e.bad then tcnt d t Reg.cellEccCorr
  else
    let d := tcnt d t Reg.cellEccUncorr
    match copyOf d e.copy with
    | none => d
    | some c =>
      if e.link then
        condemnCopy (loseCells d t e.copy (e.cell + 1) beyond) e.copy ((List.range c.cells).filter fun i => decide (e.cell < i))
      else condemnCopy d e.copy [e.cell]

/-! ## Mirror sessions (R726 to R733) -/

/-- The settings of a session that apply to frame f: a `MIRROR_SET` payload (R729). -/
def mirOf (d : Dev) (f s : Nat) : List Byte := (((tget [] d.tel.mirrors s).find? fun e => decide (e.1 ≤ f)).map (·.2)).getD []

def mirOn (m : List Byte) : Bool := bit (le m 1 1) 0

/-- Truncation of the copy (R730), FCS over what it carries. -/
def mirCut (m l : List Byte) : List Byte :=
  let n := le m 74 2
  if n = 0 ∨ l.length ≤ n then l else l.take n ++ fcsOf (l.take n)

/-- A C-tag of the session. -/
def mirTag (m : List Byte) : List Byte :=
  if le m 92 2 = 0 then [] else toBe 2 0x8100 ++ toBe 2 (le m 3 1 * 8192 + le m 92 2 % 4096)

/-- IPv4 header of Table 13-4 over n bytes that follow it. -/
def mirIp (m : List Byte) (n : Nat) : List Byte :=
  let h := [0x45] ++ toBe 1 (le m 94 1 * 4) ++ toBe 2 (20 + n) ++ toBe 2 0 ++ toBe 2 0x4000 ++ toBe 1 (le m 95 1) ++ [47]
  let t := (m.drop 96).take 8
  h ++ toBe 2 (65535 - fold16 (sum16 (h ++ [0, 0] ++ t))) ++ t

/-- The copy as it is sent (R731). -/
def mirBytes (m l : List Byte) : List Byte :=
  let c := mirCut m l
  if le m 76 1 = 1 then
    let inner := c.take (c.length - 4)
    let p := (m.drop 80).take 12 ++ mirTag m ++ toBe 2 0x0800 ++ mirIp m (4 + inner.length) ++ [0, 0] ++ toBe 2 0x6558 ++ inner
    p ++ fcsOf p
  else if le m 92 2 = 0 then c
  else
    let p := c.take 12 ++ mirTag m ++ (c.take (c.length - 4)).drop 12
    p ++ fcsOf p

/-- One mirror copy of frame f taken in tile t (R732). -/
def mirrorCopy (d : Dev) (t f s : Nat) (l : List Byte) : Dev :=
  let m := mirOf d f s
  let dst := le m 72 2
  match frameOf d f with
  | none => d
  | some x =>
    let b := mirBytes m l
    let drop := cnt d (Reg.tile t + Reg.mirDrop s)
    if portDead d dst then drop
    else
      match admitPart d { tile := t, port := dst, cls := le m 3 1, tenant := x.tenant, colour := x.colour, cells := cellsOf b.length } with
      | .error _ => drop
      | .ok p =>
        enqueue d { frame := f, tile := t, port := dst, cls := le m 3 1, cells := cellsOf b.length, part := p, tenant := x.tenant,
                    loc := .voq, mirror := some s, bytes := some b }

/-- Sessions of a source that select a frame. -/
def mirSessions (d : Dev) (f src : Nat) (p : List Byte → Bool) : List Nat :=
  (List.range 16).filter fun s => let m := mirOf d f s; mirOn m && decide (le m 2 1 = src) && p m

def mirPort (p : Nat) (m : List Byte) : Bool := bit (le m 4 64) p
def mirRule (g : Option Nat) (m : List Byte) : Bool :=
  match g with
  | some g => decide (le m 68 2 ≤ g ∧ g ≤ le m 70 2)
  | none => false

/-- A session that would send a truncated copy of a frame of n bytes. -/
def truncates (d : Dev) (f : Nat) (ss : List Nat) (n : Nat) : Bool := ss.any fun s => let k := le (mirOf d f s) 74 2; decide (k ≠ 0 ∧ k < n)

/-! ## Copies of a frame -/

/-- Cut-through conditions of Table 02-3. -/
def ctOk (d : Dev) (x : Frame) (port : Nat) (trunc : Bool) : Bool :=
  decide (speedOf d port ≤ speedOf d x.inPort) && flag d (Reg.port port + Reg.pMode) 10 && !trunc && x.inject.isNone

/-- Admit and enqueue one copy of frame f for a port; the answer says whether it was taken. -/
def addCopy (d : Dev) (f : Nat) (x : Frame) (port cls : Nat) (rw : Option Rewrite) (trunc : Bool) : Dev :=
  let cells := cellsOf x.len
  let t := x.tile
  match admitPair d { tile := t, port, cls, tenant := x.tenant, colour := x.colour, cells } x.inPort with
  | .error r => tcnt d t r
  | .ok p =>
    let d := enqueue d { frame := f, tile := t, port, cls, cells, part := p, tenant := x.tenant, ct := ctOk d x port trunc, rewrite := rw }
    checkXoff d x.inPort cls p

/-! ## Copies of the safety configuration (R484, R551) -/

/-- Of a pair of banks, the one that a frame which arrived at a time is decided by: the one before the last commit until T_sw. -/
def bySwitch {α : Type} (d : Dev) (old new : α) (arrivalExt : Nat) : α :=
  match d.safe.tsw with
  | some t => if arrivalExt < t then old else new
  | none => new

/-- A guard's own configuration for a frame. -/
def guardCfg (d : Dev) (g arrivalExt : Nat) : SafeCfg := bySwitch d (guardOf d g).banks.old (guardOf d g).banks.new arrivalExt

def markedIn (d : Dev) (m : Nat × Nat) (arrivalExt vid : Nat) : Bool := bit (bySwitch d m.1 m.2 arrivalExt) vid

/-- The copy of the safety VID map that a holder judges by: until the guards have started it is the MRAM image's (R558). -/
def marksBy (d : Dev) (maps : Tab (Nat × Nat)) (n : Nat) (x : Frame) (vid : Nat) : Bool :=
  if flag d Reg.safeSts 17 then markedIn d (tget (0, 0) maps n) x.arrivalExt vid else bit d.safe.cfg.vids vid

/-- The VID is marked in tile t's copy of the safety VID map (R483), or in that of port p's output stage (R500). -/
def tileMarks (d : Dev) (t : Nat) (x : Frame) (vid : Nat) : Bool := marksBy d d.safe.tileVids t x vid
def stageMarks (d : Dev) (p : Nat) (x : Frame) (vid : Nat) : Bool := marksBy d d.safe.stageVids p x vid

/-- Each of n copies of the VID map takes a new one beside the one in force; `past` says that an earlier commit's T_sw is past. A copy
that marks nothing is not listed. -/
def loadMaps (n : Nat) (past : Bool) (v : Nat) (t : Tab (Nat × Nat)) : Tab (Nat × Nat) :=
  (List.range n).filterMap fun i =>
    let m := tget (0, 0) t i
    let m := (if past then m.2 else m.1, v)
    if m = (0, 0) then none else some (i, m)

/-- Every tile and output stage takes a VID map. -/
def putMaps (d : Dev) (past : Bool) (v : Nat) : Dev :=
  d.onSafe fun s => { s with tileVids := loadMaps 16 past v s.tileVids, stageVids := loadMaps 512 past v s.stageVids }

/-- A configuration goes into the bank that is not active; `past` says that an earlier commit's T_sw is past. -/
def Banks.load (b : Banks) (past : Bool) (c : SafeCfg) : Banks :=
  if past then { old := b.new, new := c, act := !b.act } else { b with new := c }

end Sys2Proof.Machine
end

