-- ==== Sys2Proof/Machine/Traps.lean ====
section
/-! DEFINITION. The to-processor path: trap queues with their buckets, default actions and the frames firmware keeps
(R160 to R168, R826, R827). -/

namespace Sys2Proof.Machine

/-- Tokens of a trap bucket are counted in units of half of 10^−12 frame or byte, so a rate per second gains twice itself per
ps, and itself while limit 1 of the governor halves every rate (Table 14-10). -/
def trapUnit : Nat := 2 * ps_s

def trapGain (d : Dev) : Nat := if d.health.steps.contains 100 then 1 else 2

/-- A queue's frame bucket (`b` false) or byte bucket (`b` true) at this time; full until first used (R826). -/
def trapBucket (d : Dev) (q : Nat) (b : Bool) : Bucket :=
  let v := cfgOf d 13 q
  let off := if b then 8 else 0
  let cap := (if b then le v 12 4 else le v 4 2) * trapUnit
  match tfind d.host.trapBkt (2 * q + b2n b) with
  | some x => x.fill (trapGain d * le v off 4) cap d.now
  | none => .full cap d.now

def setTrapBucket (d : Dev) (q : Nat) (b : Bool) (x : Bucket) : Dev :=
  d.onHost fun h => { h with trapBkt := tins h.trapBkt (2 * q + b2n b) x }

def trapQueue (d : Dev) (q : Nat) : List TrapFrame := tget [] d.host.trapQ q

/-- The queue of a cause (Table 03-9 row, R161). -/
def causeQueue (d : Dev) (cause : Nat) : Nat := le (cfgOf d 14 cause) 0 1 % 8

/-- What becomes of a frame at its trap queue. -/
inductive TrapFate where
  | admitted | overLimit | lost
  deriving DecidableEq, Repr

/-- Offer frame x to the queue of its cause (R162 to R164, R167). -/
def trapOffer (d : Dev) (x : Frame) (cause : Nat) : TrapFate × Dev :=
  let q := causeQueue d cause
  let r := Reg.trapq q
  let fb := trapBucket d q false
  let bb := trapBucket d q true
  if le (cfgOf d 13 q) 0 4 = 0 ∨ !fb.holds trapUnit ∨ !bb.holds (x.len * trapUnit) then (.overLimit, cnt d (r + Reg.tqOverLimit))
  else
    let d := setTrapBucket (setTrapBucket d q false (fb.take trapUnit)) q true (bb.take (x.len * trapUnit))
    let d := cnt d (r + Reg.tqFrames)
    let (st, off, d) := coopAlloc d (48 + q) (ceilDiv (x.len + 32) 256)
    if st ≠ 0 then (.lost, cnt d (r + Reg.tqOvfDrop))
    else
      let d := coopFill d off x.bytes
      let t : TrapFrame := { frame := x, cause, since := d.now, buf := off }
      (.admitted, raiseEvt (d.onHost fun h => { h with trapQ := tmod [] h.trapQ q (· ++ [t]) }) (16 + q))

/-- Take the oldest frame of a trap queue out, freeing its buffer. -/
def trapTake (d : Dev) (q : Nat) : Dev :=
  match trapQueue d q with
  | [] => d
  | t :: r => coopFree (d.onHost fun h => { h with trapQ := tput [] h.trapQ q r }) (48 + q) t.buf

/-- A ring's CFG enables it: `EN` with a `LOG2` in range (Table 11-12). -/
def ringOn (c : Nat) : Bool := bit c 5 && decide (6 ≤ c % 32 ∧ c % 32 ≤ 16)

/-- Lowest-numbered enabled trap ring of a queue (R667). -/
def trapRing (d : Dev) (q : Nat) : Option Nat :=
  (List.range 8).find? fun e => let c := rd d (Reg.ring false e + Reg.rCfg); ringOn c && bit c (8 + q)

/-- Ralku handles a frame of a queue that no ring takes. -/
def trapHandle (q : Nat) (d : Dev) : Dev :=
  if !d.boot.fwRunning || (trapRing d q).isSome then d else trapTake d q

def execTrapHandle (queue : Nat) (s : State) : Host.Outcome State Fault Refusal :=
  s.runIf (Instr.trapHandle queue).wf (trapHandle queue)

end Sys2Proof.Machine
end

