-- ==== Sys2Proof/Machine/Receive.lean ====
section
/-! DEFINITION. Receiving a frame (chapters 02, 03, 07, 08, 14), the key search with the forwarding decision (chapters 03 and
04), and the frame's tail. -/

namespace Sys2Proof.Machine

/-! ## Receive MAC (R66 to R69, R77, R86 to R90, R822, R823) -/

/-- Index of a length's bin in `RX_64` to `RX_4096_MAX`. -/
def sizeBin (n : Nat) : Nat := ([64, 127, 255, 511, 1023, 1518, 2047, 4095].filter fun b => decide (b < n)).length

/-- Counts of a good frame: frames, bytes, cast, bin; offsets of the receive or transmit side. -/
def countGood (d : Dev) (p n da ok bytes ucast : Nat) (size : Nat → Nat) : Dev :=
  let d := pcnt48 (pcnt d p ok) p bytes n
  let d := pcnt d p (if da = broadcast then ucast + 8 else if isGroup da then ucast + 4 else ucast)
  pcnt d p (size (sizeBin n))

/-- Counts at the end of a received frame (Table 02-8). -/
def rxCount (d : Dev) (p : Nat) (l : List Byte) (cut good : Bool) : Dev :=
  let n := l.length
  let d := pcnt48 d p Reg.rxBytesAll n
  if cut then pcnt (pcnt d p Reg.rxOversize) p Reg.rxFcsErr
  else if !good then pcnt d p (if n < 64 then Reg.rxFragment else Reg.rxFcsErr)
  else if n < 64 then pcnt d p Reg.rxUndersize
  else countGood d p n (be l 0 6) Reg.rxFramesOk Reg.rxBytesOk Reg.rxUcast Reg.rxSize

/-- Addresses that always pass the filter (R87). -/
def gafAlways (da : Nat) : Bool := decide (da = broadcast ∨ (0x0180C2000000 ≤ da ∧ da ≤ 0x0180C200000F))

/-- The group-address filter discards the frame (R86, R88 to R90). -/
def gafDrops (d : Dev) (p : Nat) (l : List Byte) : Bool :=
  let da := be l 0 6
  let h := crc32 (l.take 6) % 4096
  flag d (Reg.port p + Reg.pMode) 15 && isGroup da && !gafAlways da && !flag d (Reg.port p + Reg.pGaf (h / 32)) (h % 32)

/-- A MAC control frame: 1 PAUSE, 2 PFC, 0 neither (R69). -/
def macControl (l : List Byte) : Nat :=
  if be l 0 6 = 0x0180C2000001 ∧ be l 12 2 = 0x8808 then
    if be l 14 2 = 1 then 1 else if be l 14 2 = 0x0101 then 2 else 0
  else 0

/-- Pause times after a PFC frame received at `now` with quantum q: classes 0 to 6 (R268, R269). -/
def pauseTimes (l : List Byte) (now q : Nat) (t : Tab Nat) (c : Nat) : Tab Nat :=
  if !bit (be l 16 2) c then t
  else if be l (18 + 2 * c) 2 = 0 then tdel t c
  else tins t c (now + be l (18 + 2 * c) 2 * q)

def pauseClasses (d : Dev) (p : Nat) (l : List Byte) : Dev :=
  setEgr d p fun e => { e with paused := (List.range 7).foldl (pauseTimes l d.now (quantum d p)) e.paused }

/-- A PAUSE or PFC frame is consumed (R69); with a bad FCS, or cut at `MAX_LEN` (R68), it only counts. -/
def pauseFrame (d : Dev) (p : Nat) (l : List Byte) (cut : Bool) : Dev :=
  if cut || !fcsGood l then rxCount d p l cut false
  else
    let d := pcnt48 d p Reg.rxBytesAll l.length
    if macControl l = 2 then pauseClasses (pcnt d p Reg.rxPfc) p l else pcnt d p Reg.rxPause

/-- The port has a receive path of its own and its link is up. -/
def receives (d : Dev) (p : Nat) : Bool := !portDead d p && !flag d (Reg.port p + Reg.pMode) 11

/-- What the MAC keeps of a frame, and whether it was cut after byte `MAX_LEN` + 1 (R68). -/
def cutLen (d : Dev) (p : Nat) (l : List Byte) : List Byte × Bool :=
  let most := fld d (Reg.port p + Reg.pMode) 16 14
  if most < l.length then (l.take (most + 1), true) else (l, false)

/-- The port is admitted to forwarding (R764, R823). -/
def admitted (d : Dev) (p : Nat) (tc7 : Bool) : Bool :=
  decide ((portOf d p).closedUntil ≤ d.now) && (decide (d.boot.phase ≠ .quiesced) || tc7)

/-- A frame on a port that is not admitted to forwarding (R823). -/
def rxClosed (d : Dev) (p : Nat) (l : List Byte) : Dev := pcnt48 (pcnt d p Reg.rxDisabledDrop) p Reg.rxBytesAll l.length

def pauseFrameReceive (p : Nat) (l : List Byte) (d : Dev) : Dev :=
  if !receives d p || decide (macControl l = 0) then d
  else
    let (m, cut) := cutLen d p l
    if admitted d p false then pauseFrame d p m cut else rxClosed d p m

def execPauseFrameReceive (port : Nat) (bytes : List Byte) (s : State) : Host.Outcome State Fault Refusal :=
  s.runIf (Instr.pauseFrameReceive port bytes).wf (pauseFrameReceive port bytes)

def pauseExpiry (p c : Nat) (d : Dev) : Dev :=
  match tfind (egrOf d p).paused c with
  | none => d
  | some t => setEgr (reach d t) p fun e => { e with paused := tdel e.paused c }

def execPauseExpiry (port cls : Nat) (s : State) : Host.Outcome State Fault Refusal :=
  s.runIf (Instr.pauseExpiry port cls).wf (pauseExpiry port cls)

/-! ## Stamps (R427 to R430) -/

/-- The slave counter of a lane die is not within the bound of R27. It is again 10 µs after it lost it (R414). -/
def unaligned (d : Dev) (die : Nat) : Bool :=
  flag d Reg.tsuSts (8 + die) && decide (d.now < tget 0 d.time.slaveAt die + 10 * ps_us)

/-- Where a lane die's slave counter stands, in ps of extended time: within 200 ps of the master while aligned (R27), else anywhere
(log entry 102). -/
def slavePs (d : Dev) (die : Nat) : Int :=
  let x := Config.slaveFree die d.now
  let off : Int := if unaligned d die then (x : Int) - 2147483648000 else (x % 401 : Nat) - 200
  ((extTime d * 1000 + d.time.frac * 1000 / two32 : Nat) : Int) + off

/-- Fixed corrections of Table 08-5 in ps, receive and transmit, by `SPEED` and `FEC`. -/
def fixedCorr (speed fec : Nat) : Int × Int :=
  match speed, fec with
  | 1, 0 => (41600, 27200)
  | 1, _ => (86400, 38400)
  | 2, 0 => (35200, 24800)
  | 2, 1 => (80000, 33600)
  | 2, _ => (226400, 96000)
  | 3, _ => (198400, 108800)
  | 4, _ => (161600, 118400)
  | 5, _ => (152000, 117600)
  | 6, _ => (143200, 116000)
  | 7, _ => (141600, 115200)
  | _, _ => (0, 0)

/-- The stamp, as extended time, that port p's lane die takes now at the PCS reference plane (R428): less the receive correction or
with the transmit one, and with the port's trim. MGMT ports have no lane die and read the master. -/
def stampExt (d : Dev) (p : Nat) (tx : Bool) : Nat :=
  if 512 ≤ p then extTime d
  else
    let m := Reg.port p + Reg.pMode
    let (rx, out) := fixedCorr (fld d m 0 4) (fld d m 6 3)
    let t := rd d (Reg.tsTrim p)
    let at_ := slavePs d (p / 64)
    (if tx then at_ + out + signed 16 (t / 65536) else at_ - rx + signed 16 t).toNat / 1000

/-! ## Bridging tag (R175, R176, R832) -/

/-- Whether the frame has a bridging tag, its raw VID, PCP and DEI. -/
def bridgeTag (d : Dev) (p : Nat) (r : Parse) : Bool × Nat × Nat × Nat :=
  let want := if flag d (Reg.portL2Cfg p) 16 then 0x88A8 else 0x8100
  if 1 ≤ r.tagCount ∧ r.tpid1 = want then (true, r.tci1 % 4096, r.tci1 / 8192, r.tci1 / 4096 % 2) else (false, 0, 0, 0)

/-- The bridging VID: the port's `PVID` without a tag or with VID 0. -/
def bridgeVid (d : Dev) (p raw : Nat) : Nat := if raw = 0 then fld d (Reg.portL2Cfg p) 0 12 else raw

/-- Class of a frame of TC0 to TC6 from its PCP; the manual gives no other (log entry 14). -/
def classOf (pcp : Nat) : Nat := min pcp 6

/-- The tenant of a port (R258). -/
def tenantOf (d : Dev) (p : Nat) : Nat := fld d (Reg.tile (tileOf p) + Reg.portTenant (p % 32 / 8)) (4 * (p % 8)) 4

/-- Build the frame that the MAC hands to the tile. -/
def newFrame (d : Dev) (p : Nat) (l : List Byte) (good pre : Bool) : Frame :=
  let r := parseFrame l (rtIndex d (tileOf p))
  let (tg, raw, pcp, dei) := bridgeTag d p r
  let ext := stampExt d p false
  { bytes := l, len := l.length, inPort := p, cls := classOf pcp, tenant := tenantOf d p, arrival := ext % two32, arrivalExt := ext,
    fcsOk := good, pre, parse := r, hits := hitVector (tget [] d.fwd.pats (2 * tileOf p + activeSet d (tileOf p))) l r,
    vid := bridgeVid d p raw, pcp, dei, tagged := tg }

/-- A frame enters its ingress tile, which gives it cells (R242). -/
def addFrame (d : Dev) (x : Frame) : Nat × Dev :=
  let (chain, d) := if x.dead then ([], d) else allocCells d x.tile (cellsOf x.len)
  let x := { x with chain }
  (d.buf.nextFrame, d.onBuf fun b => { b with frames := tins b.frames b.nextFrame x, nextFrame := b.nextFrame + 1 })

/-! ## Arrival windows (R388 to R396) -/

/-- Where a time lies: 0 pass, 1 tolerance, 2 early, 3 late (R389 to R393). -/
def windowOf (t base : Int) (cycle opn cls tol : Nat) : Nat :=
  let x := ((t - base) % (max cycle 1 : Nat)).toNat
  if opn ≤ x ∧ x < cls then 0
  else if (opn ≤ x + tol ∧ x < cls + tol) ∨ opn + cycle ≤ x + tol ∨ x + cycle < cls + tol then 1
  else
    let sinceClose : Int := (x : Int) - (cls + tol : Nat) + (if x < cls then (cycle : Int) else 0)
    let toOpen : Int := (opn : Int) - tol - x + (if x < opn then 0 else (cycle : Int))
    if sinceClose ≤ toOpen then 3 else 2

/-- A stream filter's fields (Table 07-5; 40 bytes: VALID, PORT, DA, VID, BASE, CYCLE, OPEN, CLOSE, TOL, POLICY, DEMOTE_TC). -/
structure Filter where
  idx : Nat
  port : Nat
  da : Nat
  vid : Nat
  base : Nat
  cycle : Nat
  opn : Nat
  cls : Nat
  tol : Nat
  demote : Bool
  demoteTc : Nat

def parseFilter (i : Nat) (v : List Byte) : Filter :=
  { idx := i, port := le v 1 1, da := be v 2 6, vid := le v 8 2, base := le v 10 4, cycle := le v 14 4, opn := le v 18 4, cls := le v 22 4,
    tol := le v 26 2, demote := bit (le v 28 1) 0, demoteTc := le v 29 1 }

/-- Lowest-numbered valid filter of tile t that matches (R388). -/
def filterFor (d : Dev) (p da vid : Nat) : Option Filter :=
  let t := tileOf p
  (d.host.cfg.find? fun r =>
    decide (r.ty = 16 ∧ r.idx / 1024 = t) && bit (le r.val 0 1) 0 &&
      (let f := parseFilter 0 r.val
       decide ((f.port = 32 ∨ f.port = p % 32) ∧ f.da = da ∧ f.vid = vid))).map fun r => parseFilter (r.idx % 1024) r.val

/-- `BASE` of a filter as extended time, fixed when it was committed (R390). -/
def filterBase (d : Dev) (t i dflt : Nat) : Nat := tget dflt d.fwd.filterBase (1024 * t + i)

/-- Police a frame of TC0 to TC6: its class, or `none` where it is discarded. -/
def police (d : Dev) (p : Nat) (l : List Byte) (x : Frame) : Option Nat × Dev :=
  match filterFor d p (be l 0 6) x.vid with
  | none => (some x.cls, d)
  | some f =>
    let t := tileOf p
    let w := windowOf x.arrivalExt (filterBase d t f.idx f.base) f.cycle f.opn f.cls f.tol
    let d := cnt d (Reg.tile t + Reg.winCnt f.idx w)
    if w < 2 then (some x.cls, d) else if f.demote then (some f.demoteTc, d) else (none, d)

/-! ## Lifeline bridge (Table 14-2) -/

/-- Learn a source in the bridge: it holds 4,096 entries. -/
def bridgeLearn (d : Dev) (mac p : Nat) : Dev :=
  d.onHealth fun h =>
    if h.bridge.any fun b => decide (b.mac = mac) then
      { h with bridge := h.bridge.map fun b => if b.mac = mac then { b with port := p, seen := d.now } else b }
    else if h.bridge.length < 4096 then { h with bridge := h.bridge ++ [{ mac, port := p, seen := d.now }] }
    else h

/-- The entry of an individual address. -/
def bridgeKnown (d : Dev) (da : Nat) : Option Bridge :=
  if isGroup da then none else d.health.bridge.find? fun b => decide (b.mac = da)

/-- Ports of a destination: the learned port, or ports 0 to 7 but the ingress port. -/
def bridgePorts (d : Dev) (da p : Nat) : List Nat :=
  match bridgeKnown d da with
  | some b => if b.port = p then [] else [b.port]
  | none => (List.range 8).filter fun q => decide (q ≠ p)

/-- One copy in a port's lifeline queues: PCP 6 and 7 ahead of the rest; tail drop in tile 0's buffer. For a port without a link
there is none, counted where it was the frame's single port (R836). -/
def lifelineCopy (f : Nat) (x : Frame) (only : Bool) (d : Dev) (port : Nat) : Dev :=
  let cells := cellsOf x.len
  if portDead d port then (if only then tcnt d 0 Reg.dropLinkDown else d)
  else if ullage d 0 < cells then tcnt d 0 Reg.dropThresh
  else
    let c : Copy := { frame := f, tile := 0, port, cls := if 6 ≤ x.pcp then 6 else 0, cells, part := .shared, tenant := x.tenant,
                      loc := .landed, lifeline := true }
    let (chain, d) := chainFor d c
    d.onBuf fun b => { b with copies := tins b.copies b.nextCopy { c with chain }, nextCopy := b.nextCopy + 1 }

def lifelineForward (d : Dev) (f : Nat) (x : Frame) : Dev :=
  let d := setFrame d f fun x => { x with keyed := true, dead := !x.fcsOk }
  if !x.fcsOk then d
  else
    let sa := be x.bytes 6 6
    let d := if isGroup sa ∨ sa = 0 then d else bridgeLearn d sa x.inPort
    let ps := bridgePorts d (be x.bytes 0 6) x.inPort
    ps.foldl (lifelineCopy f x (bridgeKnown d (be x.bytes 0 6)).isSome) d

def dropOldBridge (d : Dev) : Dev :=
  d.onHealth fun h => { h with bridge := h.bridge.filter fun b => decide (d.now < b.seen + 300 * ps_s) }

/-- The entry unseen for longest goes once it has been unseen for 300 s. -/
def lifelineBridgeAgeing (d : Dev) : Dev :=
  match d.health.bridge with
  | [] => d
  | b :: r => dropOldBridge (reach d ((r.foldl (fun a x => min a x.seen) b.seen) + 300 * ps_s))

def execLifelineBridgeAgeing (s : State) : Host.Outcome State Fault Refusal :=
  s.runIf Instr.lifelineBridgeAgeing.wf lifelineBridgeAgeing

/-! ## FRAME_RECEIVE -/

/-- The frame's port has a data path: until full service only ports 0 to 7 have one (R759, R760; log entry 112). -/
def hasPath (d : Dev) (x : Frame) : Bool := decide (d.boot.phase ≠ .lifeline ∨ x.inPort < 8)

/-- A TC7 frame is charged to the TC7 pool (R255); until the guards have started none is kept (R558). -/
def receiveTc7 (d : Dev) (x : Frame) : Dev :=
  let x := { x with cls := 7 }
  if !flag d Reg.safeSts 17 || !hasPath d x then d
  else if 2048 < tc7Use d x.tile + cellsOf x.len then tcnt d x.tile Reg.dropTc7Pool
  else (addFrame d x).2

/-- Ingress mirror copies of a frame with a good FCS (Table 13-3). -/
def ingressMirrors (d : Dev) (f : Nat) (x : Frame) : Dev :=
  if x.fcsOk then (mirSessions d f 0 (mirPort x.inPort)).foldl (fun d s => mirrorCopy d x.tile f s x.bytes) d else d

/-- A frame of TC0 to TC6 after its key is built. The lifeline bridge knows no filters and no mirrors (Table 14-2). -/
def receiveTc (d : Dev) (x : Frame) : Dev :=
  if !hasPath d x then (addFrame d { x with dead := true, keyed := true }).2
  else if d.boot.phase = .lifeline then let (f, d) := addFrame d x; lifelineForward d f x
  else
    match police d x.inPort x.bytes x with
    | (none, d) => let (f, d) := addFrame d { x with dead := true, keyed := true }; ingressMirrors d f x
    | (some c, d) =>
      let x := { x with cls := c }
      let (f, d) := addFrame d x
      ingressMirrors d f x

/-- A complete frame from the MAC. -/
def receiveFrame (d : Dev) (p : Nat) (l : List Byte) (cut pre : Bool) : Dev :=
  let good := !cut && fcsGood l
  let x := newFrame d p l good pre
  let tc7 := tileMarks d x.tile x x.vid
  if !admitted d p tc7 then rxClosed d p l
  else if gafDrops d p l then pcnt48 (pcnt d p Reg.rxGafDrop) p Reg.rxBytesAll l.length
  else
    let d := tcnt (rxCount d p l cut good) (tileOf p) (Reg.parseFailCnt x.parse.fail)
    if tc7 then receiveTc7 d x else receiveTc d x

/-- A frame that management port p − 512 receives: it is counted (Table 02-10), and no tile sees it (R61, R68). A good PAUSE or PFC
frame counts as any other, for a management port has no `RX_PAUSE` or `RX_PFC` (DESIGN CHOICE, log entry 91). -/
def mgmtReceive (d : Dev) (p : Nat) (l : List Byte) : Dev :=
  let a := Reg.mgmt (p - 512)
  if !flag d (a + 4) 0 then d
  else if fld d a 16 14 < l.length ∨ fcsGood l = false then cnt d (a + 0x1C)
  else if l.length < 64 then d
  else cnt48 (cnt d (a + 0x10)) (a + 0x14) l.length

/-- Errors of the line count while the PCS, or the FEC, is locked, whether or not the link is up (R822). -/
def lineCount (d : Dev) (p : Nat) (e : LineErrs) : Dev :=
  let d := if flag d (Reg.port p + Reg.pSts) 1 then pcntAdd d p Reg.rxPcsErr e.pcs else d
  if flag d (Reg.port p + Reg.pSts) 2 then pcntAdd (pcntAdd d p Reg.rxFecCorr e.corr) p Reg.rxFecUncorr e.uncorr else d

/-- What the MAC delimits on a port whose link is up: an SMD-V mPacket, else a frame. A port that is not admitted counts it as such
and in no other way (R823); the reassembly errors and continuation fragments of a frame, its being a PAUSE or PFC frame, and its
length come after. -/
def macReceive (d : Dev) (p : Nat) (bytes : List Byte) (pre assyErr : Bool) (frags verify : Nat) : Dev :=
  let (l, cut) := cutLen d p bytes
  if verify = 1 then setEgr d p fun e => { e with ctl := e.ctl ++ [.respond] }
  else if assyErr ∨ macControl bytes ≠ 0 then
    if !admitted d p false then rxClosed d p l
    else
      let d := pcntAdd d p Reg.rxMmFrag frags
      if assyErr then pcnt48 (pcnt d p Reg.rxMmAssyErr) p Reg.rxBytesAll bytes.length else pauseFrame d p l cut
  else
    let x := newFrame d p l (!cut && fcsGood l) pre
    receiveFrame (if admitted d p (tileMarks d x.tile x x.vid) then pcntAdd d p Reg.rxMmFrag frags else d) p l cut pre

def frameReceive (p : Nat) (bytes : List Byte) (pre assyErr : Bool) (frags verify : Nat) (line : LineErrs) (d : Dev) : Dev :=
  if 512 ≤ p then mgmtReceive d p bytes
  else
    let d := lineCount d p line
    if receives d p then macReceive d p bytes pre assyErr frags verify else d

def execFrameReceive (port : Nat) (bytes : List Byte) (pre assyErr : Bool) (frags verify : Nat) (s : State) (line : LineErrs := ⟨0, 0, 0⟩) :
    Host.Outcome State Fault Refusal :=
  s.runIf (Instr.frameReceive port bytes pre assyErr frags verify line).wf (frameReceive port bytes pre assyErr frags verify line)

/-! ## Learning at the tail (R189 to R193) -/

/-- After a good tail and the key's result, the source's entry is marked, learned or moved. -/
def learnAtTail (d : Dev) (f : Nat) : Dev :=
  match frameOf d f with
  | none => d
  | some x =>
    match x.learn with
    | none => d
    | some fid =>
      if !(x.tailIn && x.keyed && x.fcsOk) then d
      else
        let sa := be x.bytes 6 6
        let k := cplxOf x.inPort
        let d := setFrame d f fun x => { x with learn := none }
        let d := setHit d k fid sa
        if x.mayLearn then learn d k fid sa x.inPort x.arrival else d

def frameTail (f : Nat) (d : Dev) : Dev :=
  match frameOf d f with
  | none => d
  | some x =>
    if x.tailIn then d
    else
      let d := setFrame d f fun x => { x with tailIn := true }
      if x.fcsOk then sweepFrame (learnAtTail d f) f else condemn d f

def execFrameTail (frame : Nat) (s : State) : Host.Outcome State Fault Refusal :=
  s.runIf (Instr.frameTail frame).wf (frameTail frame)

/-! ## KEY_SEARCH -/

/-- Discard a frame before it made copies. -/
def dropFrame (d : Dev) (f : Nat) : Dev :=
  sweepFrame (setFrame (injectDone d f 5 0) f fun x => { x with dead := true }) f

/-- The heavy-hitter rows of a flow (R736, R737). -/
def sketchAdd (d : Dev) (k : Nat) (x : Frame) : Dev :=
  let key := 2 * k + b2n d.fwd.hhBank
  let fields := hashFields (rd d (Reg.cplx k + Reg.hashCfg) &&& 8) x.bytes x.parse x.inPort x.vid
  let seed := toLe 4 (rd d (Reg.cplx k + Reg.hhSeed))
  let rows := (List.range 4).map fun i => 4096 * i + crc32c (toLe 1 i ++ seed ++ fields) % 4096
  d.onFwd fun w => { w with
    sketch := tmod [] w.sketch key fun t => rows.foldl (fun t r => tmod 0 t r (· + x.len)) t
    hhTotal := tmod 0 w.hhTotal key (· + x.len) }

/-- Trap cause that the tile detects (Table 03-9, R432, R433). -/
def tileCause (d : Dev) (x : Frame) : Option Nat :=
  let p := x.parse
  let c := rd d (Reg.tsPortCfg x.inPort)
  if p.fail ≠ 0 then some 0
  else if (p.l3 = 6 ∨ p.l4 = 6) ∧ (bit c 2 ∨ (bit c 1 ∧ (p.ptpType = 2 ∨ p.ptpType = 3 ∨ p.ptpType = 10))) then some 4
  else if p.l3 = 8 then some 5
  else if p.l3 = 7 then some 6
  else none

/-- Tagging refused by the port, VID 4095, an invalid VLAN or one without the port (R177, R178). -/
def vlanRefused (d : Dev) (k : Nat) (x : Frame) : Bool :=
  let c := rd d (Reg.portL2Cfg x.inPort)
  let v := vlanOf d k x.vid
  let raw := x.parse.tci1 % 4096
  let acc := bits c 12 2
  (decide (acc = 1) && !(x.tagged && decide (raw ≠ 0))) || (decide (acc = 2) && x.tagged && decide (raw ≠ 0)) || decide (x.vid = 4095)
    || !v.valid || (bit c 14 && !bit v.member x.inPort)

/-- Ports of a flood within a set of ports (R180, R836), each LAG represented by one member, picked among all its live ones, be
they outside the set or without `FLOOD_EN` (DESIGN CHOICE, log entry 94). A LAG without a live member counts `PATH_NO_MEMBER` and loses
its copy alone; the others are sent (DESIGN CHOICE, log entry 115). -/
def floodPorts (d : Dev) (k : Nat) (x : Frame) (set : Nat) : List Nat × Dev :=
  let lag := lagOf d k x.inPort
  let ps := (ones 512 set).filter fun p =>
    flag d (Reg.portL2Cfg p) 17 && decide (p ≠ x.inPort) && !(lag.isSome && decide (lagOf d k p = lag)) && !portDead d p
  let lags := (ps.filterMap (lagOf d k)).eraseDups
  let single := ps.filter fun p => (lagOf d k p).isNone
  let h := flowHash d k true x.bytes x.parse x.inPort x.vid
  let (reps, d) := lags.foldl (fun (acc : List Nat × Dev) g =>
    match resolveMember acc.2 k true g (h / 2 ^ 24) with
    | (some m, d) => (acc.1 ++ [m], d)
    | (none, d) => (acc.1, d)) ([], d)
  ((List.range 512).filter fun p => single.contains p || reps.contains p, d)

/-- Where a frame goes. -/
inductive Fate where
  | drop
  | trap (cause : Nat)
  /-- Copies for these ports; `only`: a single resolved port (R181, R836). -/
  | send (ports : List Nat) (only : Bool) (cls : Nat) (rw : Option Rewrite)

/-- A port, or a LAG's member by hash B (R232, R235). -/
def onePort (d : Dev) (k : Nat) (x : Frame) (isLag : Bool) (dest cls : Nat) (rw : Option Rewrite) : Fate × Dev :=
  if isLag then
    match resolveMember d k true dest (flowHash d k true x.bytes x.parse x.inPort x.vid / 2 ^ 24) with
    | (none, d) => (.drop, d)
    | (some p, d) => (.send [p] true cls rw, d)
  else (.send [dest] true cls rw, d)

/-- The destination is an IP multicast address (R182). -/
def ipMulticast (p : Parse) : Bool := decide (p.l3 = 1 ∧ p.dst / 2 ^ 28 = 14) || decide (p.l3 = 2 ∧ p.dst / 2 ^ 120 = 255)

/-- Bridge a frame on its destination address (R180 to R188, R209). An IP multicast frame whose group address has an entry with `ROUTER`
goes to the entry's port set where the VLAN routes (R182); any other frame that hits such an entry has no L2 destination (log entry
94). -/
def bridgeFrame (d : Dev) (k : Nat) (x : Frame) : Fate × Dev :=
  let v := vlanOf d k x.vid
  let da := be x.bytes 0 6
  match macGet (macTab d k) v.fid da with
  | none =>
    let d := if isGroup da then d else cnt d (Reg.cplx k + Reg.fdbUnknownDa)
    let (ps, d) := floodPorts d k x v.member
    (.send ps false x.cls none, d)
  | some e =>
    if e.router && !(v.route && e.isMcast && ipMulticast x.parse) then (.drop, cnt d (Reg.cplx k + Reg.fdbRouterDrop))
    else if e.discardDa then (.drop, d)
    else if e.isMcast then
      let (ps, d) := floodPorts d k x (v.member &&& le (pathOf d k 6 e.dest) 0 64)
      (.send ps false x.cls none, d)
    else
      let own := if e.isLag then decide (lagOf d k x.inPort = some e.dest)
        else decide (e.dest = x.inPort) || ((lagOf d k x.inPort).isSome && decide (lagOf d k e.dest = lagOf d k x.inPort))
      if own then (.drop, cnt d (Reg.cplx k + Reg.fdbSamePort)) else onePort d k x e.isLag e.dest x.cls none

/-- Follow a next hop (R222, R226). -/
def viaHop (d : Dev) (k : Nat) (x : Frame) (n : Nat) : Fate × Dev :=
  let h := nextHop d k n
  if !h.resolved then (.trap 1, cnt d (Reg.cplx k + Reg.nhUnresolvedCnt))
  else if x.parse.ttl ≤ 1 then (.trap 2, d)
  else onePort d k x h.isLag h.dest x.cls (some { dmac := h.dmac, smac := be (pathOf d k 2 (vlanOf d k h.vid).rmac) 0 6, vid := h.vid })

/-- A frame to the device itself: ARP, neighbour discovery, or an echo whose address the manual does not name (log entry 15). -/
def toDevice (d : Dev) (x : Frame) : Bool × Dev :=
  let p := x.parse
  let ty := match p.l4Off with
    | some o => be x.bytes o 1
    | none => 0
  if p.l3 = 3 ∨ (p.l4 = 4 ∧ 133 ≤ ty ∧ ty ≤ 137) then (true, d)
  else if (p.l4 = 3 ∧ (ty = 8 ∨ ty = 0)) ∨ (p.l4 = 4 ∧ (ty = 128 ∨ ty = 129)) then
    let (r, d) := fresh d
    (decide (r % 2 = 1), d)
  else (false, d)

/-- A routed frame that goes nowhere is discarded, but trapped where its TTL or hop limit is 1 or 0 (R160, log entry 16). -/
def expiredOr (p : Parse) : Fate := if p.ttl ≤ 1 then .trap 2 else .drop

/-- Route a frame (R209, R217 to R226). -/
def routeFrame (d : Dev) (k : Nat) (x : Frame) : Fate × Dev :=
  match toDevice d x with
  | (true, d) => (.trap 7, d)
  | (false, d) =>
    let p := x.parse
    let miss := fun (d : Dev) => (Fate.trap 1, cnt d (Reg.cplx k + Reg.routeMissCnt))
    if p.l3 ≠ 1 ∧ p.l3 ≠ 2 then miss d
    else
      match routeSearch d k (if p.l3 = 1 then 4 else 6) p.dst with
      | (none, d) => miss d
      | (some (_, _, r), d) =>
        let i := r / 4
        if r % 4 = 0 then viaHop d k x i
        else if r % 4 = 1 then
          let b := (groupBuckets d k false i).length
          match resolveMember d k false i (flowHash d k false x.bytes p x.inPort x.vid / 65536 * b / 65536) with
          | (none, d) => (expiredOr p, d)
          | (some n, d) => viaHop d k x n
        else if r % 4 = 2 then (expiredOr p, d)
        else miss d

/-- The forwarding lookups of a frame; `l2` as if routing were off (Table 03-11 value 0). A frame that R177 or R178 refuses and
R190 too counts in `VLAN_INGRESS_DROP` alone, and an entry with `ROUTER` and `DISCARD_DA` is followed by its `ROUTER` (DESIGN CHOICE,
log entry 94). An IP multicast frame that is not for the device itself is bridged, whatever its entry (R182). -/
def lookup (d : Dev) (k f : Nat) (x : Frame) (l2 : Bool) : Fate × Dev :=
  if vlanRefused d k x then (.drop, cnt d (Reg.cplx k + Reg.vlanIngressDrop))
  else
    let sa := be x.bytes 6 6
    let v := vlanOf d k x.vid
    if isGroup sa then (.drop, cnt d (Reg.cplx k + Reg.fdbBadSa))
    else
      let may := v.learn && flag d (Reg.portL2Cfg x.inPort) 15 && decide (sa ≠ 0)
      let d := if x.inject.isSome then d else setFrame d f fun x => { x with learn := some v.fid, mayLearn := may }
      if ((macGet (macTab d k) v.fid sa).map (·.discardSa)).getD false then (.drop, d)
      else
        let router := ((macGet (macTab d k) v.fid (be x.bytes 0 6)).map (·.router)).getD false
        if !router || !v.route || l2 then bridgeFrame d k x
        else if ipMulticast x.parse then
          match toDevice d x with
          | (true, d) => (.trap 7, d)
          | (false, d) => bridgeFrame d k x
        else routeFrame d k x

/-- Make the copies of a frame (R249, R251, R836). -/
def sendCopies (d : Dev) (f : Nat) (x : Frame) (ports : List Nat) (only : Bool) (cls : Nat) (rw : Option Rewrite) (trunc : Bool) : Dev :=
  let x := { x with cls }
  let d := setFrame d f fun x => { x with cls }
  let d := ports.foldl (fun d p =>
    if portDead d p then (if only then tcnt d x.tile Reg.dropLinkDown else d)
    else addCopy d f x p cls rw (trunc || truncates d f (mirSessions d f 1 (mirPort p)) x.len)) d
  if (copiesOf d f).all fun e => e.2.mirror.isSome then dropFrame d f else d

/-- The default action of the frame's port (Table 03-11). -/
def defaultAction (d : Dev) (k f : Nat) (x : Frame) (trunc : Bool) : Dev :=
  let c := rd d (Reg.portRuleCfg x.inPort)
  if bits c 12 2 = 0 then
    match lookup d k f x true with
    | (.send ps only cls rw, d) => learnAtTail (sendCopies d f x ps only cls rw trunc) f
    | (_, d) => dropFrame (learnAtTail d f) f
  else if bits c 12 2 = 2 then learnAtTail (sendCopies d f x [bits c 14 9] true 0 none trunc) f
  else dropFrame (learnAtTail d f) f

/-- A frame that meets a trap cause (R160 to R168, R673). -/
def trapFrame (d : Dev) (k f : Nat) (x : Frame) (cause : Nat) (trunc : Bool) : Dev :=
  if x.inject.isSome then dropFrame (injectDone d f 6 0) f
  else if !x.fcsOk then dropFrame d f
  else
    match trapOffer d x cause with
    | (.overLimit, d) => if cause = 3 then dropFrame (learnAtTail d f) f else defaultAction d k f x trunc
    | (_, d) => dropFrame (learnAtTail d f) f

/-- What a complex answers for a frame's key: the frame coloured, the rule's mirror sessions, whether one truncates it, whether R146
discards it, and where it goes. -/
structure Verdict where
  num : Nat
  frame : Frame
  mir : List Nat
  trunc : Bool
  red : Bool
  fate : Fate

/-- One complex searches a frame's key: rules with counters and meter, the sketch, the tables. -/
def searchKey (d : Dev) (f : Nat) (x : Frame) : Verdict × Dev :=
  let k := cplxOf x.inPort
  let rc := rd d (Reg.portRuleCfg x.inPort)
  let prof := if x.parse.l3 = 1 then bits rc 4 4 else if x.parse.l3 = 2 then bits rc 8 4 else bits rc 0 4
  let key := ruleKey (fld d (Reg.cplx k + Reg.ruleProfCfg prof) 0 4) prof x.inPort x.tenant x.bytes x.parse x.hits
  let (colour, red, cs, d) := ruleSearch d k prof key x.len (decide (0 < x.parse.tagCount) && bit x.parse.tci1 12)
  let d := setFrame (sketchAdd d k x) f fun x => { x with colour }
  let x := { x with keyed := true, colour }
  let mir := mirSessions d f 2 (mirRule cs.head?)
  let v : Verdict := { num := f, frame := x, mir, red, fate := .drop,
                       trunc := truncates d f (mir ++ mirSessions d f 0 (mirPort x.inPort)) x.len }
  if red then (v, d)
  else
    match tileCause d x with
    | some c => ({ v with fate := .trap c }, d)
    | none => let (g, d) := lookup d k f x false; ({ v with fate := g }, d)

/-- The tile takes a result: mirror copies, and the frame's own copies, its trap or its end. A frame that R146, R177 or R178 discards,
and one that stream policing discarded, neither marks `HIT` for its source nor teaches it (DESIGN CHOICE, log entry 23). -/
def takeVerdict (d : Dev) (v : Verdict) : Dev :=
  let f := v.num
  let x := v.frame
  let d := v.mir.foldl (fun d s => mirrorCopy d x.tile f s x.bytes) d
  let d := setFrame d f fun x => { x with keyed := true }
  if v.red then dropFrame d f
  else
    match v.fate with
    | .drop => dropFrame (learnAtTail d f) f
    | .trap c => trapFrame d (cplxOf x.inPort) f x c v.trunc
    | .send ps only cls rw => learnAtTail (sendCopies d f x ps only cls rw v.trunc) f

/-- A frame that left no copy but mirror copies, which have cells of their own, freed its cells; they count until the cycle ends
(R251). -/
def decideFrame (d : Dev) (v : Verdict) : Dev :=
  let e := takeVerdict d v
  if (copiesOf e v.num).all fun c => c.2.mirror.isSome then
    e.onBuf fun b => { b with freeing := tmod [] b.freeing v.frame.tile (· ++ v.frame.chain) }
  else e

/-- The frame's key waits for its complex. -/
def waiting (d : Dev) (e : Nat × Nat) : Option (Nat × Nat × Frame) :=
  match frameOf d e.1 with
  | some x => if x.keyed || x.dead || decide (x.cls = 7) then none else some (e.1, e.2, x)
  | none => none

/-- Keys of one cycle meet a complex's meters in ascending order of tile and lookup slot (R375). -/
def inSlots (d : Dev) (keys : List (Nat × Nat)) : List (Nat × Nat × Frame) :=
  sortBy (fun e => 16 * e.2.2.tile + e.2.1) ((keys.filterMap (waiting d)).foldr (fun e l => e :: l.filter fun g => decide (g.1 ≠ e.1)) [])

/-- The keys of one complex cycle are searched; the tiles then decide admissions in ascending order of ingress port, each decision
seeing the ones before it (R251). -/
def keySearch (keys : List (Nat × Nat)) (d : Dev) : Dev :=
  let (vs, d) := (inSlots d keys).foldl (fun (acc : List Verdict × Dev) e =>
    let (v, d) := searchKey acc.2 e.1 e.2.2
    (acc.1 ++ [v], d)) ([], d)
  ((sortBy (fun v => v.frame.inPort) vs).foldl decideFrame d).onBuf fun b => { b with freeing := [] }

def execKeySearch (keys : List (Nat × Nat)) (s : State) : Host.Outcome State Fault Refusal :=
  s.runIf (Instr.keySearch keys).wf (keySearch keys)

end Sys2Proof.Machine
end

