-- ==== Sys2Proof/Machine/Cellar.lean ====
section
/-! DEFINITION. The cellar: packing, racking, refill, and controllers that stop (chapter 05, R34 to R38), with the repeat of
PFC frames (R265). -/

namespace Sys2Proof.Machine

/-! ## Records (Table 05-6) -/

/-- Bytes among the first w that differ from the previous frame's, or lie beyond its end. -/
def literals (w : Nat) (l prev : List Byte) : Nat :=
  ((List.range w).filter fun i => !(decide (i < prev.length) && decide (l.getD i 0 = prev.getD i 0))).length

/-- The record of a frame that begins at stream byte `at`: packed only against a record of the same rack (R288 to R290). -/
def packRec (copy : Nat) (l : List Byte) (prev : Option (List Byte × Nat)) (start : Nat) : CellarRec :=
  let w := min l.length 128
  match prev with
  | none => { copy, len := 16 + l.length, packed := false, start }
  | some (p, s) =>
    let n := literals w l p
    if s / 4096 = start / 4096 ∧ 16 + n < w then { copy, len := 32 + n + (l.length - w), packed := true, start }
    else { copy, len := 16 + l.length, packed := false, start }

/-- A frame's record as the cellar stores it (Table 05-6): the descriptor, then the body, packed against the bytes of the record
before it where it is packed. -/
def recBytes (x : Frame) (l prev : List Byte) (packed : Bool) : List Byte :=
  let w := min l.length 128
  let same := fun i => decide (i < w) && decide (i < prev.length) && decide (l.getD i 0 = prev.getD i 0)
  let body := if packed then
      toLe 16 (bitSet ((List.range 128).filter same)) ++ ((List.range w).filter fun i => !same i).map (l.getD · 0) ++ l.drop w
    else l
  descriptor { x with len := l.length } 0 packed false ++ body

/-- A tenant's cellar use in KiB (R287), with an extra record of n bytes; `laid` counts the records laid out in staging too. -/
def cellarUse (d : Dev) (laid : Bool) (tn n : Nat) : Nat :=
  let s := d.buf.segs.foldl (fun a e => e.2.recs.foldl (fun a r =>
    if ((copyOf d r.copy).map fun c => decide (c.tenant = tn) && (laid || decide (c.loc = .cellar))).getD false then a + r.len else a) a) n
  ceilDiv (s + 32 * (s / 4096)) 1024

/-- Copies of a VOQ in staging that no record holds yet, oldest first. -/
def unlaid (d : Dev) (t v : Nat) : List (Nat × Copy) :=
  let s := segOf d t v
  d.buf.copies.filter fun e => decide (e.2.tile = t ∧ e.2.voq = v ∧ e.2.loc = .staging) && !(s.recs.any fun r => decide (r.copy = e.1))

/-- Lay the next staging frame out as a record. The answer is false once nothing more can be laid out: a rack's worth is
ready, a tail is not in with a good FCS (R275), or a lossless pair's tenant is at its quota (R285). -/
def layNext (t v : Nat) (acc : Bool × Dev) (e : Nat × Copy) : Bool × Dev :=
  let d := acc.2
  let s := segOf d t v
  match frameOf d e.2.frame with
  | none => (false, d)
  | some x =>
    if !acc.1 || decide (s.written + 4096 ≤ s.laid) || !(x.tailIn && x.fcsOk) then (false, d)
    else
      let l := copyBytes d e.2
      let r := packRec e.1 l s.prev s.laid
      if rd d (Reg.tenantCellarQuota e.2.tenant) % 2 ^ 17 * 1024 < cellarUse d true e.2.tenant r.len then
        if lossless d x.inPort e.2.cls then (false, d) else (true, discardCopy (tcnt d t Reg.dropCellarQuota) e.1)
      else (true, setSeg d t v { s with recs := s.recs ++ [r], laid := s.laid + r.len, prev := some (l, s.laid) })

def layOut (d : Dev) (t v : Nat) : Dev := ((unlaid d t v).foldl (layNext t v) (true, d)).2

/-- Staging holds a full rack of packed stream (R276), laid out. -/
def fullRack (d : Dev) (t v : Nat) : Bool := spilled d t v && let s := segOf d t v; decide (s.written + 4096 ≤ s.laid)

def rackReady (d : Dev) (t v : Nat) : Bool := fullRack (layOut d t v) t v

/-- A rack's 32-byte descriptor (Table 05-5). -/
def rackDesc (s : Segment) (t v : Nat) (k : Rack) : List Byte :=
  let next := s.racks.find? fun r => decide (r.seq = k.seq + 1)
  toLe 4 ((next.map fun r => r.rack + r.stack * 2 ^ 23 + 2 ^ 25).getD 0) ++ toLe 4 (t + v * 16)
    ++ toLe 8 (k.firstRec.getD 0 + b2n k.firstRec.isSome * 2 ^ 12 + k.recCount * 2 ^ 13) ++ toLe 4 k.seq ++ zeros 12

/-! ## Stacks -/

/-- Racks of a stack (R282); one that failed training has none (R765). -/
def stackRacks : Nat := 4161536

/-- Racks of a stack that are not free, cross-linked ones included. -/
def racksUsed (d : Dev) (s : Nat) : List Nat :=
  let u := tget [] d.buf.usedRacks s
  u ++ (crossLinked d d.buf.crossRacks s).filter fun r => !u.contains r

def freeRacks (d : Dev) (s : Nat) : Nat :=
  if d.buf.failed.contains s then 0 else stackRacks - (racksUsed d s).length

/-- Lowest-numbered free rack (R283), from rack n on. -/
def lowestRack (used : List Nat) (fuel n : Nat) : Nat :=
  match fuel with
  | 0 => n
  | fuel + 1 => if used.contains n then lowestRack used fuel (n + 1) else n

/-- Next stack in the tile's rotation that has a free rack. -/
def nextStack (d : Dev) (t : Nat) : Option Nat :=
  (List.range 4).map (fun i => (tget 0 d.buf.rackTurn t + i) % 4) |>.find? fun s => decide (0 < freeRacks d s)

/-- A racking request to a stopped controller raises its wake request; further ones merge into it (R32, R34). -/
def wakeStack (d : Dev) (s : Nat) : Dev :=
  if d.buf.running.contains s then d
  else d.onBuf fun b => { b with stackWake := tins b.stackWake s ((tfind b.stackWake s).getD d.now) }

/-- First after the last served, in cyclic order of VOQ number (R297). -/
def voqTurn (last : Nat) (v : Nat) : Nat := (v + 4096 - (last + 1) % 4096) % 4096

/-- The VOQ is the tile's next in rotation among those for which p holds. -/
def inTurn (d : Dev) (t v last : Nat) (p : Nat → Bool) : Bool :=
  (d.buf.segs.filter fun e => decide (e.1 / 4096 = t)).all fun e =>
    decide (voqTurn last v ≤ voqTurn last (e.1 % 4096)) || !p (e.1 % 4096)

/-- The tile is the next in the cellar's rotation among those with a VOQ for which p holds (R296). -/
def tileInTurn (d : Dev) (t last : Nat) (p : Nat → Nat → Bool) : Bool :=
  d.buf.segs.all fun e =>
    decide ((t + 15 - last % 16) % 16 ≤ (e.1 / 4096 + 15 - last % 16) % 16) || !p (e.1 / 4096) (e.1 % 4096)

/-! ## RACK_WRITE -/

/-- A rack holds bytes of a record. -/
def rackHas (k : Rack) (r : CellarRec) : Bool := decide (r.start < 4096 * (k.seq + 1) ∧ 4096 * k.seq < r.start + r.len)

/-- The record is wholly written; no rack of it is held. -/
def recStored (s : Segment) (r : CellarRec) : Bool :=
  decide (r.start + r.len ≤ s.written) && s.racks.all fun k => !(k.held && rackHas k r)

/-- Copies whose records are wholly written leave their cells for the cellar; a rack all of whose records were discarded before it was
written is done (R284). -/
def storeRec (d : Dev) (r : CellarRec) : Dev :=
  match copyOf d r.copy with
  | none => d
  | some c =>
    if c.loc ≠ .staging then d
    else
      let d := cnt48 (cnt48 d Reg.rackFrameBytes (heldLen d c)) Reg.rackStreamBytes r.len
      setCopy d r.copy fun c => { c with loc := .cellar, ct := false, chain := [] }

def storeRecs (t v : Nat) (d : Dev) : Dev :=
  let s := segOf d t v
  xoffExits (voqChange t v (fun d => freeRacksDone ((s.recs.filter (recStored s)).foldl storeRec d) t v) d)

/-- Write one rack of the segment, or have it wait for a controller that is stopped (R38). -/
def putRack (d : Dev) (t v stack : Nat) : Dev :=
  let s := segOf d t v
  let used := racksUsed d stack
  let k := lowestRack used used.length 0
  let held := !d.buf.running.contains stack
  let n := s.written / 4096
  let begins := s.recs.filter fun r => decide (r.start / 4096 = n)
  let new : Rack := { stack, rack := k, seq := n, firstRec := begins.head?.map (·.start % 4096), recCount := begins.length, held }
  let d := wakeStack d stack
  let d := d.onBuf fun b => { b with
    segs := tins b.segs (segKey t v) { s with written := s.written + 4096, racks := s.racks ++ [new] }
    rackQ := if held then tmod [] b.rackQ stack (· ++ [(segKey t v, n)]) else b.rackQ
    usedRacks := tmod [] b.usedRacks stack (· ++ [k])
    rackTurn := tput 0 b.rackTurn t ((stack + 1) % 4)
    rackVoq := tput 0 b.rackVoq t v
    rackTile := t }
  storeRecs t v d

/-- Errors met in the staged cells of the records that go into the rack, which `was` still holds. -/
def rackErr (was : Dev) (t v : Nat) (k : Rack) (d : Dev) (e : CellErr) : Dev :=
  match copyOf was e.copy with
  | none => d
  | some c =>
    if decide (c.tile = t ∧ c.voq = v ∧ c.loc = .staging ∧ e.cell < c.cells) &&
        (segOf was t v).recs.any (fun r => decide (r.copy = e.copy) && rackHas k r) then
      cellErr t (beyondIn was c e.cell) d e
    else d

/-- The next frames of staging are laid out, with what the quota discards (R285); a full rack goes to the cellar. -/
def rackWrite (t v : Nat) (errs : List CellErr) (d : Dev) : Dev :=
  if !spilled d t v then d
  else
    let e := layOut d t v
    if !fullRack e t v || !inTurn d t v (tget 0 d.buf.rackVoq t) (rackReady d t) || !tileInTurn d t d.buf.rackTile (rackReady d) then e
    else
      match nextStack e t with
      | none => cnt e Reg.cellarFullCnt
      | some s => errs.foldl (rackErr e t v { stack := s, rack := 0, seq := (segOf e t v).written / 4096 }) (putRack e t v s)

def execRackWrite (tile voq : Nat) (s : State) (errs : List CellErr := []) : Host.Outcome State Fault Refusal :=
  s.runIf (Instr.rackWrite tile voq errs).wf (rackWrite tile voq errs)

/-! ## A stopped controller wakes (R34 to R38) -/

/-- A rack that waited at the crossing is written. -/
def deliverRack (d : Dev) (e : Nat × Nat) : Dev :=
  match tfind d.buf.segs e.1 with
  | none => d
  | some s =>
    let s := { s with racks := s.racks.map fun k => if k.seq = e.2 then { k with held := false } else k }
    storeRecs (e.1 / 4096) (e.1 % 4096) (setSeg d (e.1 / 4096) (e.1 % 4096) s)

/-- The controller runs 300 ns after the wake request, then does the racking held for it, in order. -/
def stackUp (d : Dev) (s : Nat) : Dev :=
  if d.buf.failed.contains s || d.buf.running.contains s then d
  else
    let d := reach d ((tfind d.buf.stackWake s).getD d.now + 300000)
    let q := tget [] d.buf.rackQ s
    let d := d.onBuf fun b => { b with
      running := (List.range 4).filter fun i => b.running.contains i || decide (i = s)
      stackWake := tdel b.stackWake s
      rackQ := tdel b.rackQ s }
    q.foldl deliverRack (cnt d Reg.cellarWakeCnt)

/-! ## Refill -/

/-- Reads in flight of a stack, in racks (R23: 16,384 cells). -/
def readsInFlight (d : Dev) (s : Nat) : Nat :=
  d.buf.segs.foldl (fun a e => a + (e.2.racks.filter fun r => decide (r.stack = s) && r.asked && !r.back).length) 0

/-- The oldest rack of the segment not yet asked for. -/
def nextRack (d : Dev) (t v : Nat) : Option Rack := (segOf d t v).racks.find? fun r => !r.asked

/-- The VOQ's head wants a rack back (R278). -/
def wantsRack (d : Dev) (t v : Nat) : Bool :=
  decide (headCells d t v < rd d (Reg.tile t + Reg.spillCfg (v % 8)) / 65536) &&
    match nextRack d t v with
    | some r => decide (readsInFlight d r.stack < 1024)
    | none => false

def refillRequest (t v : Nat) (d : Dev) : Dev :=
  if !spilled d t v || !wantsRack d t v || !inTurn d t v (tget 0 d.buf.refillVoq t) (wantsRack d t) ||
      !tileInTurn d t d.buf.refillTile (wantsRack d) then d
  else
    match nextRack d t v with
    | none => d
    | some r =>
      let s := segOf d t v
      let d := setSeg d t v { s with racks := s.racks.map fun x => if x.seq = r.seq then { x with asked := true } else x }
      wakeStack (d.onBuf fun b => { b with refillVoq := tput 0 b.refillVoq t v, refillTile := t }) r.stack

def execRefillRequest (tile voq : Nat) (s : State) : Host.Outcome State Fault Refusal :=
  s.runIf (Instr.refillRequest tile voq).wf (refillRequest tile voq)

/-- The cells of a refilled copy count again in its lossless pair, whose shared cells may reach XOFF (R263). -/
def backToHead (d : Dev) (c : Copy) : Dev :=
  match frameOf d c.frame with
  | some x => if c.mirror.isSome then d else checkXoff d x.inPort c.cls .shared
  | none => d

/-- A record whose bytes are all back joins the head in cells of the tile, or is discarded (R279, R295). -/
def unpackRec (t v : Nat) (rk : Rack) (bad : List Nat) (d : Dev) (r : CellarRec) : Dev :=
  match copyOf d r.copy with
  | none => d
  | some c =>
    if bad.contains c.frame || !fcsGood (copyBytes d c) then
      bb (discardCopy (tcnt d t Reg.dropCellarInteg) r.copy) t 0x20
        (toLe 1 t ++ toLe 1 0 ++ toLe 2 v ++ toLe 1 rk.stack ++ zeros 3 ++ toLe 4 rk.rack)
    else
      let (chain, d) := allocCells d t c.cells
      backToHead (setCopy d r.copy fun c => { c with loc := .voq, ct := false, since := d.trl.slot, chain }) c

/-- Records that end before stream byte n leave the segment, and the racks that are done with them. -/
def refillTo (d : Dev) (t v : Nat) (rk : Rack) (bad : List Nat) : Dev :=
  let n := 4096 * (rk.seq + 1)
  let s := segOf d t v
  let left : Segment := { s with
    racks := s.racks.map fun x => if x.seq = rk.seq then { x with back := true } else x
    recs := s.recs.filter fun r => decide (n < r.start + r.len) }
  voqChange t v (fun d =>
    freeRacksDone ((s.recs.filter fun r => decide (r.start + r.len ≤ n)).foldl (unpackRec t v rk bad) (setSeg d t v left)) t v) d

/-- The oldest rack asked for comes back; one whose writing its controller still holds has nothing to read, and those behind it wait,
so that records are refilled in order (R279). -/
def refillDone (t v : Nat) (bad : List Nat) (d : Dev) : Dev :=
  if !spilled d t v then d
  else
    match (segOf d t v).racks.find? fun r => r.asked && !r.back with
    | none => d
    | some rk => if rk.held then d else refillTo d t v rk bad

def execRefillDone (tile voq : Nat) (bad : List Nat) (s : State) : Host.Outcome State Fault Refusal :=
  s.runIf (Instr.refillDone tile voq bad).wf (refillDone tile voq bad)

/-! ## CELLAR_STOP, XOFF_REPEAT -/

/-- A controller stops only while its stack holds no racks and no racking request waits for it (R37). Its audit stops with it. -/
def cellarStop (s : Nat) (d : Dev) : Dev :=
  if racksUsed d s = [] ∧ tget [] d.buf.rackQ s = [] then
    d.onBuf fun b => { b with running := b.running.filter (· ≠ s), leesRackAt := tdel b.leesRackAt s }
  else d

def execCellarStop (stack : Nat) (s : State) : Host.Outcome State Fault Refusal :=
  s.runIf (Instr.cellarStop stack).wf (cellarStop stack)

/-- The PFC frame of a pair in XOFF is sent again before its time runs out (R265). -/
def xoffRepeat (p c : Nat) (d : Dev) : Dev :=
  match tfind d.buf.xoff (8 * p + c) with
  | none => d
  | some t =>
    let d := reach d t
    sendPfc (d.onBuf fun b => { b with xoff := tins b.xoff (8 * p + c) (t + 32768 * quantum d p) }) p c 0xFFFF

def execXoffRepeat (port cls : Nat) (s : State) : Host.Outcome State Fault Refusal :=
  s.runIf (Instr.xoffRepeat port cls).wf (xoffRepeat port cls)

end Sys2Proof.Machine
end

