-- ==== Sys2Proof/Machine/Trellis.lean ====
section
/-! DEFINITION. The trellis: requests, readiness, the match of a slot, the filling of bunches, and their landing (chapter 06),
with tasting (R402 to R407). -/

namespace Sys2Proof.Machine

/-! ## What waits in a source tile -/

/-- Bytes of cell i of a copy that its cells hold in n bytes, rounded up to 32-byte words (R311). -/
def pieceBytes (n i : Nat) : Nat := ceilDiv (min 256 (n - 256 * i)) 32 * 32

/-- A copy may start to cross (R829, R492). -/
def copyReady (d : Dev) (c : Copy) : Bool :=
  match frameOf d c.frame with
  | none => false
  | some x => c.ct || (x.tailIn && x.fcsOk)

/-- Copies of tile s bound for tile u in full service (R310). -/
def bound (d : Dev) (s u : Nat) : List (Nat × Copy) :=
  d.buf.copies.filter fun e => decide (e.2.tile = s ∧ tileOf e.2.port = u) && !e.2.lifeline

/-- Cells that have begun to cross and are still in the ingress tile. -/
def continuing (c : Copy) : Bool := decide (0 < c.sent ∧ c.sent < c.cells)

def tc7Waits (c : Copy) : Bool := decide (c.part = .tc7 ∧ c.loc ≠ .cellar ∧ c.sent < c.cells)

/-- Frames of a VOQ's head that may start, in order, up to the first that may not. -/
def starters (d : Dev) (l : List (Nat × Copy)) (v : Nat) : List (Nat × Copy) :=
  (l.filter fun e => decide (e.2.voq = v ∧ e.2.loc = .voq ∧ e.2.part ≠ .tc7)).takeWhile fun e => copyReady d e.2

/-- VOQs of a list, ascending. -/
def voqsOf (l : List (Nat × Copy)) : List Nat := (l.map fun e => e.2.voq).eraseDups

/-- Pair (port, class) of a copy in its destination tile's ready vector. -/
def pairBit (v : Nat) : Nat := 7 * (v / 8 % 32) + v % 8

/-- Pieces of a copy from the cell it has reached, each with the slots it has waited. -/
def piecesOf (d : Dev) (c : Copy) : List (Nat × Nat) :=
  let n := heldLen d c
  (List.range (c.cells - c.sent)).map fun i => (pieceBytes n (c.sent + i), d.trl.slot - c.since)

/-- Full bunches that pieces make, and the longest wait of those left that do not fill one (R312, R320). -/
def countBunches (l : List (Nat × Nat)) : Nat × Option Nat :=
  let (f, k, b, w) := l.foldl (fun (a : Nat × Nat × Nat × Nat) p =>
    if a.2.1 = 32 ∨ 2048 < a.2.2.1 + p.1 then (a.1 + 1, 1, p.1, p.2)
    else (a.1, a.2.1 + 1, a.2.2.1 + p.1, max a.2.2.2 p.2)) (0, 0, 0, 0)
  if k = 32 ∨ b = 2048 then (f + 1, none) else (f, if 0 < k then some w else none)

/-- Longest wait, in slots, among copies. -/
def waited (d : Dev) (l : List (Nat × Copy)) : Nat := l.foldl (fun a e => max a (d.trl.slot - e.2.since)) 0

/-! ## Readiness (R257, R321 to R323) -/

/-- Free cells of the landing area, as reported. -/
def landFree (d : Dev) (u : Nat) : Nat := 4096 - landUse d u

/-- The ready vector of a tile: 7 × port + class. -/
def readyVec (d : Dev) (u : Nat) : Nat :=
  if landFree d u < 64 then 0
  else bitSet ((List.range 224).filter fun b => decide
    (sumCopies d (fun c => decide (c.part ≠ .tc7 ∧ c.port = 32 * u + b / 7 ∧ c.cls = b % 7) && !c.lifeline) (·.landed) < 128))

/-- Bunches granted into a tile that have not landed. -/
def coming (d : Dev) (u : Nat) : Nat :=
  sumOf d.trl.matching (fun l => (l.filter fun g => decide (g.dst / 8 = u)).length)
    + (d.trl.flight.filter fun b => decide (b.dst / 8 = u)).length

/-- R322 holds for the tile. -/
def landHeld (d : Dev) (u : Nat) : Bool := decide (landFree d u < 64 + 32 * coming d u)

/-- The ready vector as a grant carries it (R323). -/
def grantReady (d : Dev) (u : Nat) : Nat := if landHeld d u then 0 else readyVec d u

def allReady : Nat := 2 ^ 224 - 1

/-! ## Request words (Table 06-1) -/

/-- Grants of a pair that have not been transferred. -/
def outstanding (d : Dev) (s u : Nat) (p : Pass → Bool) : Nat :=
  sumOf d.trl.matching fun l => (l.filter fun g => decide (g.src / 8 = s ∧ g.dst / 8 = u) && p g.pass).length

def Pass.isTc7 (p : Pass) : Bool := decide (p = .tc7 ∨ p = .tc7Late)
def Pass.isIter (p : Pass) : Bool := decide (p = .iter1 ∨ p = .iter2 ∨ p = .iter3)

/-- A copy with cells of TC0 to TC6 that wait to cross: in a VOQ's head, or continuing. -/
def waiting06 (e : Nat × Copy) : Bool := decide (e.2.part ≠ .tc7) && (decide (e.2.loc = .voq) || continuing e.2)

/-- The request word of tile s toward tile u, with what is already granted taken off. -/
def requestWord (d : Dev) (s u : Nat) : Nat :=
  let l := bound d s u
  let rdy := tget allReady d.trl.readyRep u
  let st := (voqsOf l).map fun v => (v, starters d l v)
  let ready := (st.filter fun e => bit rdy (pairBit e.1)).flatMap (·.2)
  let (f, left) := countBunches (ready.flatMap fun e => piecesOf d e.2)
  let p := left.any fun w => decide (fld d Reg.trellisCfg 0 3 ≤ w)
  let g := outstanding d s u Pass.isIter
  let (cf, cp) := countBunches ((l.filter fun e => continuing e.2 && decide (e.2.part ≠ .tc7)).flatMap fun e => piecesOf d e.2)
  let c := cf + b2n cp.isSome - outstanding d s u fun p => decide (p = .cont)
  let t7 := l.filter fun e => tc7Waits e.2 && copyReady d e.2
  let (tf, tp) := countBunches (t7.flatMap fun e => piecesOf d e.2)
  let t := decide (outstanding d s u Pass.isTc7 < tf + b2n tp.isSome)
  min 31 (f - g) + 32 * b2n (p && decide (g ≤ f)) + 64 * min 7 c + 512 * b2n t
    + 1024 * (if t then min 7 (waited d t7) else 0) + 8192 * min 255 (waited d (l.filter waiting06))

def reqOf (d : Dev) (s u : Nat) : Nat := tget 0 d.trl.req (16 * s + u)

/-- FULL or PART bunches not yet matched. -/
def wants (d : Dev) (s u : Nat) : Bool := decide (bits (reqOf d s u) 0 6 ≠ 0)

/-- Take a granted bunch off a request. -/
def deduct (p : Pass) (w : Nat) : Nat :=
  if p.isTc7 then setBits w 9 1 0
  else if p = .cont then setBits w 6 3 (bits w 6 3 - 1)
  else if bits w 0 5 ≠ 0 then setBits w 0 5 (bits w 0 5 - 1) else setBits w 5 1 0

/-! ## Channels and grants -/

def matchAt (d : Dev) (i : Nat) : List Grant := d.trl.matching.getD i []

def srcFree (d : Dev) (i c : Nat) : Bool := !((matchAt d i).any fun g => decide (g.src = c))
def dstFree (d : Dev) (i c : Nat) : Bool := !((matchAt d i).any fun g => decide (g.dst = c))

def passReg (p : Pass) : Nat :=
  match p with
  | .tc7 => 0
  | .tc7Late => 1
  | .cont => 2
  | .iter1 => 3
  | .iter2 => 4
  | .iter3 => 5

/-- Matches for five slots, the one that transfers now first. -/
def padMatch (m : List (List Grant)) : List (List Grant) := m ++ List.replicate (5 - m.length) []

def grant (d : Dev) (i src dst : Nat) (p : Pass) : Dev :=
  let g : Grant := { src, dst, pass := p, ready := grantReady d (dst / 8) }
  let d := d.onTrl fun t => { t with
    matching := setNth t.matching i (t.matching.getD i [] ++ [g])
    req := tmod 0 t.req (16 * (src / 8) + dst / 8) (deduct p) }
  let d := cnt d (Reg.trBunch (passReg p))
  if p = .tc7Late then cnt d (Reg.trBunch 0) else d

/-! ## The TC7 passes (R332 to R334) -/

/-- TC7 requests in the order of a pass: oldest first, then destination tiles from the slot's on, then source tiles. -/
def tc7Order (d : Dev) : List (Nat × Nat) :=
  let k := d.trl.slot
  (List.range 8).reverse.flatMap fun a => (List.range 16).flatMap fun i => (List.range 16).filterMap fun j =>
    let u := (k + i) % 16
    let s := (k + j) % 16
    let w := reqOf d s u
    if bit w 9 ∧ bits w 10 3 = a then some (s, u) else none

/-- Late pass: reserved channels only. -/
def lateTc7 (d : Dev) (e : Nat × Nat) : Dev :=
  if srcFree d 1 (8 * e.1 + 7) && dstFree d 1 (8 * e.2 + 7) then grant d 1 (8 * e.1 + 7) (8 * e.2 + 7) .tc7Late else d

/-- Channel that a tile gives TC7 in the pre-pass: the reserved one, else one unreserved one, the lowest free. -/
def tc7Chan (t : Nat) (free : Nat → Bool) : Option Nat :=
  if free (8 * t + 7) then some (8 * t + 7)
  else if (List.range 7).all fun i => free (8 * t + i) then some (8 * t) else none

def preTc7 (d : Dev) (e : Nat × Nat) : Dev :=
  match tc7Chan e.1 (srcFree d 4), tc7Chan e.2 (dstFree d 4) with
  | some i, some j => grant d 4 i j .tc7
  | _, _ => d

/-! ## Continuation (R337) -/

/-- Free unreserved channels of a tile, ascending. -/
def freeChans (t : Nat) (free : Nat → Bool) : List Nat := ((List.range 7).map (8 * t + ·)).filter free

def contPair (u : Nat) (d : Dev) (s : Nat) : Dev :=
  let n := bits (reqOf d s u) 6 3
  let pairs := ((freeChans s (srcFree d 4)).zip (freeChans u (dstFree d 4))).take n
  if pairs = [] then d
  else
    let d := pairs.foldl (fun d e => grant d 4 e.1 e.2 .cont) d
    d.onTrl fun t => { t with contPtr := tput 0 t.contPtr u ((s + 1) % 16) }

def contTile (d : Dev) (u : Nat) : Dev :=
  let p := tget 0 d.trl.contPtr u
  ((List.range 16).map fun j => (p + j) % 16).foldl (contPair u) d

/-! ## The iterations (R325 to R329) -/

/-- First of a list at or after a pointer, cyclically over 128. -/
def firstFrom (p : Nat) (l : List Nat) : Option Nat :=
  match l.find? fun i => decide (p ≤ i) with
  | some i => some i
  | none => l.head?

/-- Grants of one iteration: (destination channel, source channel). -/
def iterGrants (d : Dev) (i : Nat) (res : Bool) : List (Nat × Nat) :=
  let usable := fun c => res || decide (c % 8 ≠ 7)
  let srcs := (List.range 128).filter fun c => usable c && srcFree d i c
  (List.range 128).filterMap fun j =>
    if usable j && dstFree d i j then
      (firstFrom (tget 0 d.trl.grantPtr j) (srcs.filter fun c => wants d (c / 8) (j / 8))).map fun c => (j, c)
    else none

/-- A source channel accepts, moving the pointers in the first iteration. -/
def iterAccept (i : Nat) (p : Pass) (gs : List (Nat × Nat)) (d : Dev) (c : Nat) : Dev :=
  let js := (gs.filter fun e => decide (e.2 = c) && wants d (c / 8) (e.1 / 8)).map (·.1)
  match firstFrom (tget 0 d.trl.acceptPtr c) js with
  | none => d
  | some j =>
    let d := grant d i c j p
    if p = .iter1 then
      d.onTrl fun t => { t with grantPtr := tput 0 t.grantPtr j ((c + 1) % 128), acceptPtr := tput 0 t.acceptPtr c ((j + 1) % 128) }
    else d

def iteration (d : Dev) (i : Nat) (p : Pass) : Dev :=
  (List.range 128).foldl (iterAccept i p (iterGrants d i (decide (p = .iter3)))) d

/-- The stages of one slot in the order of Table 06-2. -/
def matchStages (d : Dev) : Dev :=
  let d := (tc7Order d).foldl lateTc7 d
  let d := iteration d 1 .iter3
  let d := iteration d 2 .iter2
  let d := iteration d 3 .iter1
  let d := (tc7Order d).foldl preTc7 d
  ((List.range 16).map fun i => (d.trl.slot + i) % 16).foldl contTile d

/-! ## Tasting (R402 to R407) -/

/-- Log encoding of R405. -/
def logVal (x : Nat) : Nat :=
  if x < 256 then x
  else
    let e := log2 x - 7
    if 15 < e then 0xFFF else e * 256 + (x >>> (e - 1) - 256)

/-- Residence of a frame in ns (R299). -/
def residence (d : Dev) (x : Frame) : Nat := sub32 (tsuNs d) x.arrival

def tasteSample (d : Dev) (c : Copy) (x : Frame) : Nat :=
  logVal (residence d x / 16) + logVal (voqDepth d c.tile c.voq) * 2 ^ 12 + logVal (segOf d c.tile c.voq).racks.length * 2 ^ 24
    + c.port * 2 ^ 36 + c.cls * 2 ^ 45 + c.tenant * 2 ^ 48 + (tsuNs d / 2 ^ 20) * 2 ^ 52

/-- A frame of class c leaves its VOQ: every 2^k-th is sampled. -/
def taste (d : Dev) (c : Copy) (x : Frame) : Dev :=
  let t := c.tile
  let cfg := rd d (Reg.tile t + Reg.tasteCfg c.cls)
  if !bit cfg 5 then d
  else
    let n := tget 0 d.tel.tasteN (8 * t + c.cls) + 1
    if n % 2 ^ (bits cfg 0 5) ≠ 0 then d.onTel fun m => { m with tasteN := tput 0 m.tasteN (8 * t + c.cls) n }
    else
      let d := d.onTel fun m => { m with tasteN := tput 0 m.tasteN (8 * t + c.cls) 0 }
      let r := Reg.tile t
      let e := rd d (r + Reg.tasteEvc)
      if 1024 ≤ sub32 e (rd d (r + Reg.tasteAck)) then cnt d (r + Reg.tasteDrop)
      else
        let v := tasteSample d c x
        let a := r + Reg.tasteRing (e % 1024)
        cnt (wr (wr d a (v % two32)) (a + 4) (v / two32)) (r + Reg.tasteEvc)

/-! ## Dequeue -/

/-- The frame's residence exceeds its class's limit (R300); TC7 has none. -/
def overAge (d : Dev) (t : Nat) (c : Copy) : Bool :=
  decide (c.cls < 7) &&
    match frameOf d c.frame with
    | some x => decide (fld d (Reg.tile t + Reg.overageLimit c.cls) 0 20 * 1000 < residence d x)
    | none => false

/-- Discard a copy whose port is disabled, absorbed or down, in tile t (R836). -/
def dropDown (d : Dev) (t id : Nat) : Dev :=
  match copyOf d id with
  | none => d
  | some c =>
    let d := match c.mirror with
      | some s => cnt d (Reg.tile c.tile + Reg.mirDrop s)
      | none => tcnt d t Reg.dropLinkDown
    discardCopy d id

/-- Every VOQ of a port without a link loses its frames as they reach the head (R836). -/
def dropDeadHeads (d : Dev) : Dev :=
  (d.buf.copies.filter fun e => decide (e.2.loc = .voq ∧ e.2.sent = 0) && portDead d e.2.port).foldl
    (fun d e => dropDown d e.2.tile e.1) d

/-! ## Filling a bunch (R311 to R318, R839) -/

/-- A bunch being filled. -/
structure Fill where
  dev : Dev
  n : Nat := 0
  bytes : Nat := 0
  pieces : List BunchPiece := []
  full : Bool := false

/-- Cells of a copy of len bytes from cell i on that still fit, with the bunch's count and bytes after them. -/
def fitCells (fuel i cells len n b k : Nat) : Nat × Nat × Nat :=
  match fuel with
  | 0 => (k, n, b)
  | fuel + 1 =>
    if i < cells ∧ n < 32 ∧ b + pieceBytes len i ≤ 2048 then fitCells fuel (i + 1) cells len (n + 1) (b + pieceBytes len i) (k + 1)
    else (k, n, b)

/-- Put as many cells of a copy into the bunch as fit; a first piece takes the frame out of its VOQ. -/
def Fill.take (f : Fill) (id : Nat) : Fill :=
  if f.full then f
  else
    match copyOf f.dev id with
    | none => f
    | some c =>
      let (k, n, b) := fitCells 32 c.sent c.cells (heldLen f.dev c) f.n f.bytes 0
      if k = 0 then { f with full := true }
      else
        let d := match c.sent, frameOf f.dev c.frame with
          | 0, some x => taste f.dev c x
          | _, _ => f.dev
        let go := fun d => setCopy d id fun c =>
          { c with sent := c.sent + k, loc := if c.loc = .voq then .crossing else c.loc, chain := c.chain.drop k }
        { dev := voqChange c.tile c.voq go d
          n, bytes := b, pieces := f.pieces ++ [{ copy := id, frame := c.frame, mirror := c.mirror.isSome, first := c.sent, cells := k, bytes := b - f.bytes }]
          full := decide (c.sent + k < c.cells) }

/-- The next piece of a copy would not break R312. -/
def Fill.fits (f : Fill) (c : Copy) : Bool :=
  decide (f.n < 32 ∧ f.bytes + pieceBytes (heldLen f.dev c) c.sent ≤ 2048)

/-- VOQs of a group (TC6 or TC0 to TC5) whose head may start under a grant's ready vector. -/
def startable (d : Dev) (s u ready : Nat) (tc6 : Bool) : List Nat :=
  let l := bound d s u
  (voqsOf l).filter fun v =>
    decide ((v % 8 = 6) = tc6 ∧ v % 8 < 7) && bit ready (pairBit v) && !(starters d l v).isEmpty
      && !(l.any fun e => decide (e.2.voq = v) && continuing e.2)

/-- First in cyclic order of VOQ number after the last served. -/
def nextVoq (last : Option Nat) (l : List Nat) : Option Nat :=
  match last with
  | none => l.foldl (fun a v => some (a.elim v (min v))) none
  | some p => l.foldl (fun a v => some (a.elim v fun w => if voqTurn p v < voqTurn p w then v else w)) none

/-- One frame from each VOQ per turn (R317) until the next piece would break R312 (R316); an over-age head does not use the turn
up. -/
def fillGroup (fuel s u ready : Nat) (tc6 : Bool) (f : Fill) : Fill :=
  match fuel with
  | 0 => f
  | fuel + 1 =>
    if f.full then f
    else
      let key := 32 * s + 2 * u + b2n tc6
      let last := (tfind f.dev.trl.turn key)
      match nextVoq last (startable f.dev s u ready tc6) with
      | none => f
      | some v =>
        match starters f.dev (bound f.dev s u) v with
        | [] => f
        | e :: _ =>
          if !f.fits e.2 then { f with full := true }
          else if overAge f.dev s e.2 then
            fillGroup fuel s u ready tc6 { f with dev := discardCopy (tcnt f.dev s Reg.dropOverage) e.1 }
          else
            let g := f.take e.1
            fillGroup fuel s u ready tc6 { g with dev := g.dev.onTrl fun t => { t with turn := tins t.turn key v } }

/-- Extended time of arrival of a copy's frame. -/
def arrivedAt (d : Dev) (e : Nat × Copy) : Nat := ((frameOf d e.2.frame).map (·.arrivalExt)).getD 0

/-- Fill and send the bunch of one grant. -/
def sendBunch (d : Dev) (g : Grant) : Dev :=
  let s := g.src / 8
  let u := g.dst / 8
  let l := bound d s u
  let f := ((sortBy (arrivedAt d) (l.filter fun e => tc7Waits e.2 && copyReady d e.2)).map (·.1)).foldl Fill.take { dev := d }
  let f := ((l.filter fun e => continuing e.2 && decide (e.2.part ≠ .tc7)).map (·.1)).foldl Fill.take f
  let fuel := 1 + l.length
  let f := fillGroup fuel s u g.ready false (fillGroup fuel s u g.ready true f)
  if f.pieces = [] then cnt f.dev Reg.trBunchEmpty
  else
    let d := f.dev.onTrl fun t => { t with flight := t.flight ++ [{ src := g.src, dst := g.dst, pieces := f.pieces }] }
    let d := cnt d (Reg.trSrcBunch s)
    if f.bytes < 2048 then cnt d Reg.trBunchPart else d

/-- Grants of a slot by source channel, ascending (R839). -/
def bySource (l : List Grant) : List Grant := (List.range 128).flatMap fun c => l.filter fun g => decide (g.src = c)

/-! ## TRELLIS_SLOT -/

/-- Every pair's request word, as it stands. -/
def requestTab (d : Dev) : Tab Nat :=
  (List.range 256).foldl (fun t k => tput 0 t k (requestWord d (k / 16) (k % 16))) []

/-- An error met in a cell that a slot took out of its ingress tile: `was` before the transfer, `sent` after it. -/
def slotErr (was sent : Dev) (d : Dev) (e : CellErr) : Dev :=
  match copyOf was e.copy, copyOf sent e.copy with
  | some c, some k => if c.sent ≤ e.cell ∧ e.cell < k.sent then cellErr c.tile (beyondIn was c e.cell) d e else d
  | _, _ => d

/-- One slot: the reports, the stages of the match, the transfer, and the words and vectors for the next slot. -/
def trellisSlot (errs : List CellErr) (d : Dev) : Dev :=
  let d := dropDeadHeads (d.onTrl fun t => { t with matching := padMatch t.matching })
  let held := (List.range 16).filter (landHeld d)
  let d := cntAdd d Reg.trHoldCnt held.length
  let vecs := (List.range 16).foldl (fun t u => tput allReady t u (grantReady d u)) []
  let free := (List.range 16).foldl (fun t u => tput 4096 t u (landFree d u)) []
  let d := matchStages d
  let req := requestTab d
  let sent := (bySource (matchAt d 0)).foldl sendBunch d
  let d := errs.foldl (slotErr d sent) sent
  let d := d.onTrl fun t => { t with
    matching := t.matching.drop 1, req, readyRep := vecs, freeRep := free, slot := t.slot + 1 }
  xoffExits (cnt d Reg.trSlots)

/-- The master's slots run while the core die runs. -/
def trellisTurn (errs : List CellErr) (d : Dev) : Dev :=
  if d.boot.phase = .full ∨ d.boot.phase = .quiesced ∨ d.boot.phase = .lifeline then trellisSlot errs d else d

def execTrellisSlot (s : State) (errs : List CellErr := []) : Host.Outcome State Fault Refusal :=
  s.runIf (Instr.trellisSlot errs).wf (trellisTurn errs)

/-! ## BUNCH_LAND -/

/-- A piece's copy has an uncorrectable cell error, with the cells `gone`; a copy that is gone before its piece lands leaves its frame's
other copies to condemn (R245, R314). -/
def condemnPiece (d : Dev) (p : BunchPiece) (gone : List Nat) : Dev :=
  if (copyOf d p.copy).isSome then condemnCopy d p.copy gone
  else if p.mirror then d else condemnSome (·.mirror.isNone) d p.frame

/-- An error that the destination tile's check finds in a piece as it writes it (R245, R313). -/
def pieceErr (u : Nat) (p : BunchPiece) (d : Dev) (e : CellErr) : Dev :=
  if e.bad then condemnPiece (tcnt d u Reg.cellEccUncorr) p [e.cell] else tcnt d u Reg.cellEccCorr

/-- The errors met in the words of a piece. -/
def pieceErrs (errs : List CellErr) (p : BunchPiece) : List CellErr :=
  errs.filter fun e => decide (e.copy = p.copy ∧ p.first ≤ e.cell ∧ e.cell < p.first + p.cells) && !e.link

/-- A piece's cells join what its copy has in the destination tile. -/
def placePiece (u : Nat) (p : BunchPiece) (d : Dev) : Dev :=
  let (cells, d) := allocCells d u p.cells
  setCopy d p.copy fun c =>
    { c with landed := c.landed + p.cells, land := c.land ++ cells, landedAt := d.now
             loc := if c.loc = .crossing ∧ c.landed + p.cells = c.cells then .landed else c.loc }

/-- A piece whose TC7 pool is full takes its frame with it (R256); others are charged to the landing area or its margin. The cells of a
copy that is gone are checked as they are written, and free at once. -/
def landPiece (u : Nat) (errs : List CellErr) (d : Dev) (p : BunchPiece) : Dev :=
  match copyOf d p.copy with
  | none => (pieceErrs errs p).foldl (pieceErr u p) d
  | some c =>
    if c.part = .tc7 ∧ 2048 < tc7Use d u + p.cells then discardCopy (tcnt d u Reg.dropTc7Pool) p.copy
    else (pieceErrs errs p).foldl (pieceErr u p) (placePiece u p d)

/-- Every frame with a piece in a discarded bunch is condemned (R314). -/
def lostPiece (d : Dev) (p : BunchPiece) : Dev :=
  let gone := (List.range p.cells).map (p.first + ·)
  condemnPiece (setCopy d p.copy fun c => { c with missed := c.missed ++ gone }) p gone

/-- A sideband parity error discards the bunch whole (R314); which of its cells in the destination tile have no owner is left open. -/
def sidebandError (d : Dev) (u : Nat) (b : Bunch) : Dev :=
  let d := cnt (cnt d Reg.trHdrErr) Reg.trHdrEvc
  let cells := sumOf b.pieces (·.cells)
  let (r, d) := fresh d
  let (l, d) := allocCells d u (r % (cells + 1))
  let d := b.pieces.foldl lostPiece (d.onBuf fun m => { m with lost := tmod [] m.lost u (· ++ l) })
  let a := toLe 4 (rd d Reg.trHdrEvc)
  note (bb d 20 0x23 a) 6 a

def bunchLand (u : Nat) (parityErr : Bool) (errs : List CellErr) (d : Dev) : Dev :=
  match d.trl.flight.find? fun b => decide (b.dst / 8 = u) with
  | none => d
  | some b =>
    let d := d.onTrl fun t => { t with flight := t.flight.erase b }
    if parityErr then sidebandError d u b
    else b.pieces.foldl (landPiece u errs) (cnt d (Reg.trDstBunch u))

def execBunchLand (tile : Nat) (parityErr : Bool) (errs : List CellErr) (s : State) : Host.Outcome State Fault Refusal :=
  s.runIf (Instr.bunchLand tile parityErr errs).wf (bunchLand tile parityErr errs)

end Sys2Proof.Machine
end

