-- ==== Sys2Proof/Machine/Gates.lean ====
section
/-! DEFINITION. Gate control lists (R376 to R387): which gates a list gives at a time, whether a frame fits, what an event does,
and the fragments that preemption makes (R76, R84). -/

namespace Sys2Proof.Machine

def gbps' (d : Dev) (p : Nat) : Nat := gbps (speedOf d p)

def mmActive (d : Dev) (p : Nat) : Bool := flag d (Reg.port p + Reg.pSts) 5

/-! ## The list in force -/

/-- Where an offset within the cycle lies: entry number, entry, and the offset at which it ends. -/
def entryAt (es : List GateEnt) (i acc off cycle : Nat) : Nat × GateEnt × Nat :=
  match es with
  | [] => (i, { gates := 0xFF, op := 0, interval := 0 }, cycle)
  | [e] => (i, e, cycle)
  | e :: r => if off < min (acc + e.interval) cycle then (i, e, min (acc + e.interval) cycle) else entryAt r (i + 1) (acc + e.interval) off cycle

/-- A list at extended time t: entry number, entry, cycle start, next event. Before its base, which a negative step can bring, its
cycles run on backwards. -/
def listAt (l : GateList) (t : Nat) : Nat × GateEnt × Nat × Nat :=
  let off := (((t : Int) - l.base) % l.cycle).toNat
  let s := t - off
  let (i, e, n) := entryAt l.entries 0 0 off l.cycle
  (i, e, s, s + n)

/-- The last entry of a list's cycle: the one whose states hold when the cycle ends (R378, R381). -/
def lastEnt (l : GateList) : GateEnt := (entryAt l.entries 0 0 (l.cycle - 1) l.cycle).2.1

/-- The next cycle of the running list, starting at s, does not start: it lies within the extension before T_new (R381). -/
def extended (e : EgrPort) (l : GateList) (s : Nat) : Bool :=
  match e.pending with
  | some (_, t) => decide (e.cycleAt < s ∧ s < t ∧ t - s < l.ext)
  | none => false

/-- No list runs: every gate is open. -/
def noList : GateEnt := { gates := 0xFF, op := 0, interval := 0 }

/-- The entry whose states hold at extended time t, and the next time they may change. -/
def gatesAt (e : EgrPort) (t : Nat) : GateEnt × Option Nat :=
  match e.pending with
  | some (l, n) =>
    if n ≤ t then let (_, x, _, nx) := listAt l t; (x, some nx)
    else
      match e.gates with
      | none => (noList, some n)
      | some o =>
        let (_, x, s, nx) := listAt o t
        if extended e o s then (lastEnt o, some n) else (x, some (min nx n))
  | none =>
    match e.gates with
    | none => (noList, none)
    | some o => let (_, x, _, nx) := listAt o t; (x, some nx)

/-- The gate of class c is open from t until `stop`, a time in units of 2^−32 ns over the port speed; for a preemptable class no
entry asserts hold before then (R385). -/
def staysOpen (fuel : Nat) (e : EgrPort) (pre : Bool) (c t stop speed : Nat) : Bool :=
  match fuel with
  | 0 => true
  | fuel + 1 =>
    let (x, nx) := gatesAt e t
    if !bit x.gates c || (pre && decide (x.op = 1)) then false
    else
      match nx with
      | none => true
      | some n => if stop ≤ n * two32 * speed ∨ n ≤ t then true else staysOpen fuel e pre c n stop speed

/-- The gate of class c stays open, and preemptable frames are not held, for the time n bytes take (R383, R385); events that lie apart
lie 1 ns apart at least. -/
def gateFor (d : Dev) (p : Nat) (pre : Bool) (c n : Nat) : Bool :=
  let g := gbps' d p
  staysOpen (n * 8 / g + 3) (egrOf d p) pre c (extTime d) ((extTime d * two32 + d.time.frac) * g + n * 8 * two32) g

/-- Bytes of the shortest non-final fragment (R76). -/
def minFrag (d : Dev) (p : Nat) : Nat := 64 * (1 + fld d (Reg.port p + Reg.pMm) 0 2)

/-- Class c goes through the preemptable MAC (R71, R72, R75). -/
def preemptable (d : Dev) (p c : Nat) : Bool :=
  mmActive d p && (decide (c < 6) || (decide (c = 6) && !flag d (Reg.port p + Reg.pMode) 14))

/-- A frame of L bytes fits before its gate closes, whole or by a non-final fragment. -/
def gateFits (d : Dev) (p c len : Nat) : Bool :=
  let pre := preemptable d p c
  gateFor d p pre c (len + 8) || (pre && decide (64 + minFrag d p ≤ len) && gateFor d p pre c (minFrag d p + 8))

/-! ## Events -/

def stsAddr (p : Nat) : Nat := Reg.egr p + Reg.eSts

/-- Preamble with the delimiter of IEEE 802.3 and 802.3br before what a MAC sends (R65): an express frame, or a fragment of
preemptable frame number `smd` after `frags` others (log entry 98). -/
def wireLead (pre : Bool) (smd frags : Nat) : List Byte :=
  let pad := fun n => List.replicate n (0x55 : Byte)
  if !pre then pad 7 ++ [0xD5]
  else if frags = 0 then pad 7 ++ [([0xE6, 0x4C, 0x7F, 0xB3] : List Byte).getD (smd % 4) 0]
  else pad 6 ++ [([0x61, 0x52, 0x9E, 0x2A] : List Byte).getD (smd % 4) 0,
                 ([0xE6, 0x4C, 0x7F, 0xB3] : List Byte).getD ((frags - 1) % 4) 0]

/-- What a port puts on the wire. -/
def putOut (d : Dev) (p : Nat) (lead l : List Byte) : Dev := setEgr d p fun e => { e with lead, out := l }

/-- The mCRC after the first bytes of a frame: its FCS over them with the low 16 bits inverted (IEEE 802.3br, log entry 98). -/
def mcrcOf (l : List Byte) : List Byte := toLe 4 (crc32 l ^^^ 0x0000FFFF)

/-- A preemptable frame in transmission stops after a non-final fragment, where R76 permits one (R84, R348, R350, R384, R385): the
fragment has its least length with its mCRC, and leaves 64 bytes (log entry 28). How many bytes it carries beyond that is open. -/
def preemptNow (d : Dev) (p : Nat) : Dev :=
  let e := egrOf d p
  match e.preempt with
  | none => d
  | some id =>
    match copyOf d id with
    | none => d
    | some c =>
      let l := copyBytes d c
      let left := l.length - c.fragBytes
      if c.loc ≠ .sending ∨ !mmActive d p ∨ left < 64 + minFrag d p then d
      else
        let (r, d) := fresh d
        let n := c.fragBytes + (minFrag d p - 4) + r % (left - 59 - minFrag d p)
        let d := putOut d p (wireLead true e.smd c.frags) ((l.take n).drop c.fragBytes ++ mcrcOf (l.take n))
        pcnt (setCopy d id fun c => { c with loc := .preempted, fragBytes := n, frags := c.frags + 1 }) p Reg.txMmPreempt

/-- Bytes ended with the inverse of their FCS (R83). -/
def badFcs (b : List Byte) : List Byte := b ++ (fcsOf b).map fun x => ~~~x

/-- A corked frame's FCS is the inverse (R83). -/
def corkFcs (l : List Byte) : List Byte := badFcs (l.take (l.length - 4))

/-- A transmission can end once its tail is in and all its cells are in the tile, but for those that an error destroyed. -/
def canEnd (d : Dev) (c : Copy) : Bool :=
  ((frameOf d c.frame).map (·.tailIn)).getD true && (c.lifeline || decide (c.landed = c.cells ∨ c.holes ≠ []))

/-- A frame that the port sent whole is counted; a PAUSE or PFC frame, whoever made it, in no other way than R69 gives. -/
def countSent (d : Dev) (p : Nat) (l : List Byte) : Dev :=
  let d := match macControl l with
    | 1 => pcnt d p Reg.txPause
    | 2 => pcnt d p Reg.txPfc
    | _ => countGood d p l.length (be l 0 6) Reg.txFramesOk Reg.txBytesOk Reg.txUcast Reg.txSize
  pcnt48 d p Reg.txBytesAll l.length

/-- End a transmission: its counts and the bytes put on the wire, the final fragment's after others (R83, R84, R85). -/
def endCopy (d : Dev) (p id : Nat) (c : Copy) (pre : Bool) : Dev :=
  let l := copyBytes d c
  let d := if c.corked then pcnt48 (pcnt d p Reg.txCorked) p Reg.txBytesAll l.length else countSent d p l
  let d := putOut d p (wireLead pre (egrOf d p).smd c.frags) ((if c.corked then corkFcs l else l).drop c.fragBytes)
  removeCopy (if pre then setEgr d p fun e => { e with smd := (e.smd + 1) % 4 } else d) id

/-- The preemptable MAC leaves the wire for a gate that closes or a hold (R384, R385): a fragment ends; a rest too short to be cut was
let start because it would end before (`gateFits`, `restFits`), and has ended by now (log entry 28). -/
def clearWire (d : Dev) (p : Nat) : Dev :=
  let d := preemptNow d p
  match (egrOf d p).preempt with
  | none => d
  | some id =>
    match copyOf d id with
    | none => d
    | some c => if c.loc = .sending ∧ canEnd d c then endCopy d p id c true else d

/-- Apply the states of an entry: gates, hold and release, and the fragments they end; a preempted frame whose gate is closed waits
for it. -/
def applyEntry (d : Dev) (p : Nat) (x : GateEnt) : Dev :=
  let a := stsAddr p
  let d := setFld d a 0 8 x.gates
  let d :=
    if !mmActive d p then d
    else if x.op = 1 then
      let d := if flag d a 8 then d else cnt (setFlag d a 8 true) (Reg.egr p + Reg.eHoldCnt)
      clearWire d p
    else if x.op = 2 then setFlag d a 8 false else d
  let shut := fun d => ((egrOf d p).preempt.bind (copyOf d)).any fun c => !bit x.gates c.cls
  let d := if shut d then clearWire d p else d
  setFlag d a 12 (shut d && ((egrOf d p).preempt.bind (copyOf d)).any fun c => decide (c.loc = .preempted))

/-- The list moves to entry i of the cycle that starts at s. -/
def enterEntry (d : Dev) (p : Nat) (l : GateList) (s i : Nat) : Dev :=
  let d := if s = (egrOf d p).cycleAt then d else cnt d (Reg.egr p + Reg.eGateCycle)
  let d := setFlag (setEgr d p fun e => { e with cycleAt := s, entry := i }) (stsAddr p) 10 false
  applyEntry d p (l.entries.getD i noList)

/-- The hold or release that was last asserted when entry i of a cycle is in force. -/
def lastHold (l : GateList) (i : Nat) : Nat :=
  let es := l.entries.take ((entryAt l.entries 0 0 (l.cycle - 1) l.cycle).1 + 1)
  ((((es.take (i + 1)).reverse ++ (es.drop (i + 1)).reverse).find? fun x => decide (x.op = 1 ∨ x.op = 2)).map (·.op)).getD 0

/-- The list moves to where it stands at extended time, whatever it passed (R421): gates, hold, extension. -/
def enterNow (d : Dev) (p : Nat) (l : GateList) : Dev :=
  let (i, x, s, _) := listAt l (extTime d)
  let n := (entryAt l.entries 0 0 (l.cycle - 1) l.cycle).1
  if extended (egrOf d p) l s then
    let d := setFlag (setEgr d p fun e => { e with cycleAt := s - l.cycle, entry := n }) (stsAddr p) 10 true
    applyEntry d p { lastEnt l with op := lastHold l n }
  else
    let d := if s = (egrOf d p).cycleAt then d else cnt d (Reg.egr p + Reg.eGateCycle)
    let d := setFlag (setEgr d p fun e => { e with cycleAt := s, entry := i }) (stsAddr p) 10 false
    applyEntry d p { x with op := lastHold l i }

/-- Offset in the cycle at which the entry in force ends. -/
def entryEnds (e : EgrPort) (l : GateList) : Nat :=
  if l.entries.length ≤ e.entry + 1 then l.cycle else min ((l.entries.take (e.entry + 1)).foldl (fun a x => a + x.interval) 0) l.cycle

/-- Next event of the running list: none while its last cycle is extended to T_new (R381). -/
def entryEnd (d : Dev) (p : Nat) (l : GateList) : Option Nat :=
  let e := egrOf d p
  let t := e.cycleAt + entryEnds e l
  if flag d (stsAddr p) 10 && extended e l t && decide (entryEnds e l = l.cycle) then none else some t

/-- The event itself: the next entry, the next cycle, or the extension of the last one. -/
def gateStep (d : Dev) (p : Nat) (l : GateList) : Dev :=
  let e := egrOf d p
  let n := entryEnds e l
  if n < l.cycle then enterEntry d p l e.cycleAt (e.entry + 1)
  else if extended e l (e.cycleAt + n) then applyEntry (setFlag d (stsAddr p) 10 true) p (lastEnt l)
  else enterEntry d p l (e.cycleAt + n) 0

/-- The pending list is the operational one, from the cycle that starts at t on (R380, R382). -/
def takeList (d : Dev) (p : Nat) (l : GateList) (t : Nat) : Dev :=
  let d := setEgr d p fun e => { e with gates := some l, pending := none, cycleAt := t, entry := 0 }
  let d := setFlag (setFlag (setFlag d (Reg.egr p + Reg.eCfg) 0 true) (stsAddr p) 9 false) (stsAddr p) 10 false
  cnt (cnt d (Reg.egr p + Reg.eGateSwitchEvc)) (Reg.egr p + Reg.eGateCycle)

/-- The pending list becomes operational at T_new, the start of a cycle of its own. -/
def switchList (d : Dev) (p : Nat) (l : GateList) (t : Nat) : Dev := applyEntry (takeList d p l t) p (l.entries.getD 0 noList)

/-- What is due first of a port's gate events: the running list's next one, or the switch at T_new. -/
def gateDue (d : Dev) (p : Nat) : Option (Nat × Bool) :=
  let e := egrOf d p
  let nx := e.gates.bind fun l => entryEnd d p l
  match e.pending, nx with
  | some (_, n), some t => if n ≤ t then some (n, true) else some (t, false)
  | some (_, n), none => some (n, true)
  | none, some t => some (t, false)
  | none, none => none

/-- Do the port's next gate event. -/
def gateNext (d : Dev) (p : Nat) (switch : Bool) : Dev :=
  let e := egrOf d p
  if switch then
    match e.pending with
    | some (l, n) => switchList d p l n
    | none => d
  else
    match e.gates with
    | some l => gateStep d p l
    | none => d

/-- Gate events whose time has come, `fuel` at most. -/
def gatesRun (fuel : Nat) (d : Dev) (p : Nat) : Dev :=
  match fuel with
  | 0 => d
  | fuel + 1 =>
    match gateDue d p with
    | none => d
    | some (t, sw) => if extTime d < t then d else gatesRun fuel (gateNext d p sw) p

/-- More events than a list has from extended time t until now. -/
def eventsSince (d : Dev) (l : GateList) (t : Nat) : Nat := ((extTime d - t) / l.cycle + 2) * (l.entries.length + 1)

/-- Every gate event whose time has come, in order: it takes effect before a selection of the same cycle (R351). -/
def gatesDue (d : Dev) (p : Nat) : Dev :=
  let e := egrOf d p
  let old := match e.gates with
    | some l => eventsSince d l e.cycleAt
    | none => 0
  let new := match e.pending with
    | some (l, t) => eventsSince d l t + 1
    | none => 0
  gatesRun (old + new) d p

/-- The running list's next event takes effect at the first tick at or after its time (R379). -/
def gateEvent (p : Nat) (d : Dev) : Dev :=
  match gateDue d p with
  | some (t, false) =>
    let d := reachExt d t
    if extTime d < t then d else gateNext d p false
  | _ => d

def execGateEvent (port : Nat) (s : State) : Host.Outcome State Fault Refusal :=
  s.runIf (Instr.gateEvent port).wf (gateEvent port)

/-- The switch at T_new, with what was due before it. -/
def gateListSwitch (p : Nat) (d : Dev) : Dev :=
  match (egrOf d p).pending with
  | none => d
  | some (_, t) =>
    let d := reachExt d t
    if extTime d < t then d else gatesDue d p

def execGateListSwitch (port : Nat) (s : State) : Host.Outcome State Fault Refusal :=
  s.runIf (Instr.gateListSwitch port).wf (gateListSwitch port)

end Sys2Proof.Machine
end

