-- ==== Sys2Proof/Machine/Egress.lean ====
section
/-! DEFINITION. Egress: queues, eligibility, fair queuing, shapers, the bytes a port sends with their tags, rewrites and
one-step corrections, and the frame boundary (chapters 02, 04, 07, 08). -/

namespace Sys2Proof.Machine

/-! ## The bytes of a copy (R179, R226, R499) -/

/-- A frame with its bridging tag, if it has one, taken out and another, if any, put in. -/
def retag (l : List Byte) (tagged : Bool) (tag : Option (Nat × Nat)) : List Byte :=
  let t := match tag with
    | some (tpid, tci) => toBe 2 tpid ++ toBe 2 tci
    | none => []
  l.take 12 ++ t ++ l.drop (if tagged then 16 else 12)

/-- The last four bytes become the FCS of the others. -/
def withFcs (l : List Byte) : List Byte := let b := l.take (l.length - 4); b ++ fcsOf b

/-- Incremental ones' complement update of a checksum for bytes that change. -/
def sumUpdate (hc : Nat) (old new : List Byte) : Nat :=
  65535 - fold16 ((65535 - hc) + (old.length / 2 * 65535 - sum16 old) + sum16 new)

/-- Hop limit or TTL less one, with the IPv4 header checksum (R226). -/
def decTtl (l : List Byte) (p : Parse) : List Byte :=
  match p.l3Off with
  | none => l
  | some o =>
    if p.l3 = 1 then
      let w := (l.drop (o + 8)).take 2
      let n := toBe 1 (be l (o + 8) 1 - 1) ++ w.drop 1
      overlay (overlay l (o + 8) n) (o + 10) (toBe 2 (sumUpdate (be l (o + 10) 2) w n))
    else if p.l3 = 2 then overlay l (o + 7) (toBe 1 (be l (o + 7) 1 - 1))
    else l

/-- A routed frame's addresses and hop count. -/
def reroute (l : List Byte) (p : Parse) (rw : Rewrite) : List Byte := toBe 6 rw.dmac ++ toBe 6 rw.smac ++ (decTtl l p).drop 12

def portTpid (d : Dev) (p : Nat) : Nat := if flag d (Reg.portL2Cfg p) 16 then 0x88A8 else 0x8100

/-- Sent as it is: mirror copies, directly injected frames, frames of the lifeline bridge. -/
def verbatim (x : Frame) (c : Copy) : Bool := c.mirror.isSome || c.lifeline || ((x.inject.map fun i => !i.2.2).getD false)

/-- Outgoing bridging VID of a copy (R500); a verbatim one has that of its own tag. -/
def outVid (d : Dev) (x : Frame) (c : Copy) : Option Nat :=
  if verbatim x c then
    let l := copyBytes d c
    if be l 12 2 = portTpid d c.port then some (be l 14 2 % 4096) else none
  else some ((c.rewrite.map (·.vid)).getD x.vid)

/-- The slot of a decision word that names a port, with its number. -/
def slotOf (w : DecWord) (p : Nat) : Option Nat := findIdx (fun e => decide (e = some p)) w.egress

/-- A TC7 frame as its output stage sends it (R499). -/
def tc7Bytes (d : Dev) (x : Frame) (c : Copy) (w : DecWord) : List Byte :=
  let tag := match slotOf w c.port with
    | some i => if bit w.tagged i then some (portTpid d c.port, 7 * 8192 + x.dei * 4096 + w.outVid) else none
    | none => none
  withFcs (retag x.bytes x.tagged tag)

/-- The bytes a port sends for a copy, before any one-step correction. -/
def txBytes (d : Dev) (x : Frame) (c : Copy) : List Byte :=
  if verbatim x c then copyBytes d c
  else
    match c.accepted with
    | some (w, _) => tc7Bytes d x c w
    | none =>
      let l := match c.rewrite with
        | some rw => reroute x.bytes x.parse rw
        | none => x.bytes
      let vid := (c.rewrite.map (·.vid)).getD x.vid
      let tag := if bit (vlanOf d (cplxOf x.inPort) vid).untagged c.port then none
        else some (portTpid d c.port, x.pcp * 8192 + x.dei * 4096 + vid)
      withFcs (retag l x.tagged tag)

/-- Length charged and queued (R363). -/
def txLen (d : Dev) (id : Nat) : Nat :=
  match copyOf d id with
  | none => 0
  | some c =>
    match frameOf d c.frame with
    | none => 0
    | some x => (txBytes d x c).length

/-! ## One-step PTP (R434 to R442) -/

def cfMax : Nat := 0x7FFFFFFFFFFFFFFF

/-- A signed 64-bit correctionField with a correction added; a sum outside 64 bits saturates (R438). -/
def cfAdd (cf : Nat) (units : Int) : Nat × Bool :=
  if cf = cfMax then (cfMax, true)
  else
    let v := signed 64 cf + units
    if (cfMax : Int) < v ∨ v < -(cfMax : Int) - 1 then (cfMax, true) else (unsigned 64 v, false)

def dieAligned (d : Dev) (p : Nat) : Bool := !unaligned d (p / 64)

/-- A PTP event message: messageType 0 to 3 over ethertype 0x88F7 or UDP destination port 319. -/
def ptpEvent (r : Parse) : Bool := r.ptpOff.isSome && decide (r.ptpType ≤ 3 ∧ (r.l4 = 6 → r.dport = 319))

/-- The correction of a copy that port p starts with a transmit stamp, in units of 2^−16 ns, and whether R434 or R436 asks for it,
which need both lane dies aligned (R439). -/
def correction (d : Dev) (x : Frame) (p stamp : Nat) : Option (Int × Bool) :=
  let r := x.parse
  let event := ptpEvent r
  let fwd := (x.inject.map (·.2.2)).getD true
  let sync := event && fwd && decide (r.ptpType = 0) && flag d (Reg.tsPortCfg x.inPort) 1
  let link : Int := if sync then (rd d (Reg.tsLinkDelay x.inPort) : Int) else 0
  if x.departIntent ≠ 0 then (if r.ptpOff.isSome then some (diff32 stamp x.departIntent * 65536, true) else none)
  else if event && fwd && flag d (Reg.tsPortCfg p) 0 then some (diff32 stamp x.arrival * 65536 + link, true)
  else if sync then some (link, false)
  else none

/-- Put a correctionField at offset o, with the UDP checksum at offset u (R440). -/
def putCf (l : List Byte) (o : Nat) (v : Nat) (udp : Option Nat) (v4 : Bool) : List Byte :=
  let old := (l.drop o).take 8
  let new := toBe 8 v
  let l' := overlay l o new
  match udp with
  | none => l'
  | some u =>
    let hc := be l u 2
    if v4 ∧ hc = 0 then l'
    else
      let s := sumUpdate hc old new
      overlay l' u (toBe 2 (if s = 0 then 65535 else s))

/-- Apply the correction to the bytes sent; the answer says whether it saturated. -/
def oneStep (d : Dev) (x : Frame) (c : Copy) (l : List Byte) (stamp : Nat) : List Byte × Bool :=
  if c.cls = 7 ∨ c.mirror.isSome then (l, false)
  else
    match correction d x c.port stamp, x.parse.ptpOff with
    | some (u, timed), some o =>
      let sh := fun (k : Nat) => k + l.length - x.bytes.length
      let cf := sh (o + 8)
      let aligned := !timed || (dieAligned d x.inPort && dieAligned d c.port)
      let (v, s) := if aligned then cfAdd (be l cf 8) u else (cfMax, true)
      let udp := if x.parse.l4 = 6 then x.parse.l4Off.map fun k => sh (k + 6) else none
      (withFcs (putCf l cf v udp (decide (x.parse.l3 = 1))), s)
    | _, _ => (l, false)

/-! ## Buckets (R359 to R370) -/

/-- Index 0 to 6 class shapers, 7 the port shaper, 8 the governor's. -/
def govActive (d : Dev) : Bool := d.health.steps.contains 103

def shaperEn (d : Dev) (p s : Nat) : Bool :=
  if s = 8 then govActive d else flag d (Reg.egr p + Reg.eShRate s) 31

/-- Units of a byte in a bucket: the governor's are five times finer, so that 75 % of every speed is a whole number. -/
def bktUnit (s : Nat) : Nat := if s = 8 then 5 * tokenUnit else tokenUnit

def bktGain (d : Dev) (p s : Nat) : Nat :=
  if s = 8 then 2 ^ 31 * 3 * gbps' d p / 320 else rateGain (rd d (Reg.egr p + Reg.eShRate s) % 2 ^ 20)

def bktCap (d : Dev) (p s : Nat) : Nat :=
  bktUnit s * if s = 8 then 65536 else rd d (Reg.egr p + Reg.eShBurst s) % 2 ^ 25

/-- A bucket brought up to now; one never used is full. -/
def bktNow (d : Dev) (p s : Nat) : Bucket :=
  match tfind (egrOf d p).buckets s with
  | some b => b.fill (bktGain d p s) (bktCap d p s) d.now
  | none => .full (bktCap d p s) d.now

def setBkt (d : Dev) (p s : Nat) (b : Bucket) : Dev := setEgr d p fun e => { e with buckets := tins e.buckets s b }

def bktOk (d : Dev) (p s : Nat) : Bool := !shaperEn d p s || decide (0 ≤ (bktNow d p s).tokens)

/-- Charge L bytes to a bucket that is enabled. -/
def charge (len p : Nat) (d : Dev) (s : Nat) : Dev :=
  if shaperEn d p s then setBkt d p s ((bktNow d p s).take (len * bktUnit s)) else d

/-- Buckets that a frame of a class is charged to (R367, R368). -/
def chargedTo (c : Nat) : List Nat := if c = 7 then [7] else if c = 6 then [6, 7] else [c, 7, 8]

/-- ps from now until a bucket that is below 0 holds 0 tokens. -/
def tokenBucketRefill (p s : Nat) (d : Dev) : Dev :=
  let b := bktNow d p s
  if !shaperEn d p s || decide (0 ≤ b.tokens) then d
  else
    let d := reach d (d.now + ceilDiv (-b.tokens).toNat (bktGain d p s))
    setBkt d p s (bktNow d p s)

def execTokenBucketRefill (port bucket : Nat) (s : State) : Host.Outcome State Fault Refusal :=
  s.runIf (Instr.tokenBucketRefill port bucket).wf (tokenBucketRefill port bucket)

/-! ## Queues and tags (R341 to R343, R352 to R358, R833) -/

def queueOf (d : Dev) (p c : Nat) : List Nat := tget [] (egrOf d p).queues c

def vtime (d : Dev) (p : Nat) : Nat := rd d (Reg.egr p + Reg.eVtime) + two32 * (rd d (Reg.egr p + Reg.eVtime + 4) % 65536)

def setVtime (d : Dev) (p v : Nat) : Dev :=
  wr (wr d (Reg.egr p + Reg.eVtime) (v % two32)) (Reg.egr p + Reg.eVtime + 4) (v / two32 % 65536)

/-- Finish tag of a frame of L bytes (R355). -/
def finTag (d : Dev) (p c start len : Nat) : Nat :=
  (start + ceilDiv (len * 65536) (max 1 (fld d (Reg.egr p + Reg.eClass c) 0 8))) % 2 ^ 48

/-- Give the head of a class its tags. -/
def tagHead (d : Dev) (p c start : Nat) : Dev :=
  match queueOf d p c with
  | [] => setEgr d p fun e => { e with start := tdel e.start c, fin := tdel e.fin c, head := tdel e.head c }
  | id :: _ =>
    let f := finTag d p c start (txLen d id)
    setEgr d p fun e => { e with start := tins e.start c start, fin := tins e.fin c f, head := tins e.head c id }

/-- After a head was discarded instead of started, the next keeps its start tag (R833). -/
def syncHead (p : Nat) (d : Dev) (c : Nat) : Dev :=
  let e := egrOf d p
  match tfind e.head c with
  | none => d
  | some h => if (queueOf d p c).head? = some h then d else tagHead d p c (tget 0 e.start c)

def syncHeads (d : Dev) (p : Nat) : Dev := (List.range 6).foldl (syncHead p) d

/-- Lead of Table 02-4 in cells. -/
def leadCells (speed : Nat) : Nat := [1, 1, 1, 2, 4, 7, 13, 25].getD speed 1

/-- The copy can start: whole in the destination tile, or cut through with the lead held (R81, R341). A TC7 frame's word has
been accepted (R496). -/
def canJoin (d : Dev) (c : Copy) : Bool :=
  !c.lifeline &&
    if c.part = .tc7 then decide (c.loc = .landed) && c.accepted.isSome
    else decide (c.loc = .landed) || (c.ct && decide (c.loc = .crossing ∧ leadCells (speedOf d c.port) ≤ c.landed))

/-- No frame that left the same VOQ before it is still to join (R342). -/
def firstLeft (d : Dev) (id : Nat) (c : Copy) : Bool :=
  !(d.buf.copies.any fun e => decide (e.1 < id ∧ e.2.tile = c.tile ∧ e.2.voq = c.voq ∧ (e.2.loc = .crossing ∨ e.2.loc = .landed)) && !e.2.lifeline)

/-! ## Eligibility (Table 07-1) -/

def eligible (d : Dev) (p c : Nat) : Bool :=
  match queueOf d p c with
  | [] => false
  | id :: _ =>
    if c = 7 then true
    else gateFits d p c (txLen d id) && bktOk d p c && bktOk d p 7 && (decide (c = 6) || bktOk d p 8)
      && !(decide (d.now < tget 0 (egrOf d p).paused c)) && !(preemptable d p c && flag d (stsAddr p) 8)

/-- A frame for the express MAC is eligible. -/
def expressReady (d : Dev) (p : Nat) : Bool := eligible d p 7 || (!preemptable d p 6 && eligible d p 6)

def joinQueue (d : Dev) (id : Nat) (c : Copy) : Dev :=
  let p := c.port
  let d := syncHeads d p
  let was := queueOf d p c.cls
  let d := setCopy d id fun c => { c with loc := .queued }
  let d := setEgr d p fun e => { e with queues := tins e.queues c.cls (was ++ [id]) }
  if portDead d p then dropDown d (tileOf p) id
  else
    let d := if was = [] ∧ c.cls < 6 then tagHead d p c.cls (vtime d p) else d
    if !preemptable d p c.cls && expressReady d p then preemptNow d p else d

def egressQueueJoin (id : Nat) (d : Dev) : Dev :=
  match copyOf d id with
  | none => d
  | some c => if canJoin d c && firstLeft d id c then joinQueue d id c else d

def execEgressQueueJoin (copy : Nat) (s : State) : Host.Outcome State Fault Refusal :=
  s.runIf (Instr.egressQueueJoin copy).wf (egressQueueJoin copy)

/-! ## Starting order -/

/-- Smallest finish tag among the eligible queues of TC0 to TC5, ties to the higher class (R346, R347, R357). -/
def wfqPick (d : Dev) (p : Nat) : Option Nat :=
  [5, 4, 3, 2, 1, 0].foldl (fun b c =>
    if !eligible d p c then b
    else
      match b with
      | none => some c
      | some k =>
        if signed 48 (tget 0 (egrOf d p).fin c + 2 ^ 48 - tget 0 (egrOf d p).fin k) < 0 then some c else b) none

/-- The class that the express MAC starts next (R345, R350). -/
def pickExpress (d : Dev) (p : Nat) : Option Nat :=
  if eligible d p 7 then some 7
  else if (egrOf d p).ctl ≠ [] then none
  else if !preemptable d p 6 && eligible d p 6 then some 6
  else if mmActive d p then none else wfqPick d p

/-- The class that the preemptable MAC starts next (R346). -/
def pickPre (d : Dev) (p : Nat) : Option Nat := if preemptable d p 6 && eligible d p 6 then some 6 else wfqPick d p

/-- Something waits for the express MAC. -/
def expressWaits (d : Dev) (p : Nat) : Bool :=
  let e := egrOf d p
  e.tele ≠ [] || e.ctl ≠ [] || expressReady d p

/-! ## Discards at the head (R300, R498, R500, R836) -/

/-- Tile of a port's output stage counters. -/
def osCnt (d : Dev) (p off : Nat) : Dev := cnt d (Reg.outStage (tileOf p) + off)

/-- A TC7 frame would leave after its deadline by either word (R498). -/
def tooLate (c : Copy) (stamp : Nat) : Bool :=
  match c.accepted with
  | some (a, b) => decide (diff32 a.due stamp < 0) || decide (diff32 b.due stamp < 0)
  | none => true

/-- Key of the last frame of a stream that a port's output stage sent (R497). -/
def sentKey (p stream : Nat) : Nat := 4096 * p + stream

/-- The frame equals the last one of its stream that the stage sent, by its `ARRIVAL` (R497). -/
def sentLast (d : Dev) (p stream : Nat) (x : Frame) : Bool := decide (tfind d.safe.lastSent (sentKey p stream) = some x.arrival)

/-- The outgoing bridging VID is marked in the output stage's copy of the safety VID map (R500). -/
def leaks (d : Dev) (x : Frame) (c : Copy) : Bool := (outVid d x c).any (stageMarks d c.port x)

/-- The head is discarded instead of started: the device after that. -/
def headDiscard (d : Dev) (p id : Nat) (c : Copy) (x : Frame) : Option Dev :=
  let t := tileOf p
  if portDead d p then some (dropDown d t id)
  else if c.cls = 7 then
    let stream := (c.accepted.map (·.1.stream)).getD 0
    if tooLate c (stampExt d p true) then some (discardCopy (osCnt d p Reg.osLateDrop) id)
    else if sentLast d p stream x then some (discardCopy (osCnt d p Reg.osDupDrop) id)
    else none
  else if overAge d t c then some (discardCopy (tcnt d t Reg.dropOverage) id)
  else if leaks d x c then some (discardCopy (osCnt d p Reg.osLeakDrop) id)
  else none

/-! ## Starting a frame -/

/-- Egress sessions copy a frame as it starts (Table 13-3); a mirror copy that starts is counted (R734). -/
def egressMirrors (d : Dev) (p : Nat) (c : Copy) (l : List Byte) : Dev :=
  match c.mirror with
  | some s => cnt d (Reg.tile c.tile + Reg.mirCopies s)
  | none => if c.cls = 7 then d else (mirSessions d c.frame 1 (mirPort p)).foldl (fun d s => mirrorCopy d (tileOf p) c.frame s l) d

/-- Start the head of class c on the express or the preemptable MAC. -/
def startHead (d : Dev) (p c id : Nat) (cp : Copy) (x : Frame) (pre : Bool) : Dev :=
  let l := txBytes d x cp
  let stamp := stampExt d p true % two32
  let (l', sat) := oneStep d x cp l stamp
  let d := if sat then cnt d (Reg.tsCfSat p) else d
  let d := (chargedTo c).foldl (charge l.length p) d
  let d := egressMirrors d p cp l
  let fin := tget 0 (egrOf d p).fin c
  let d := setCopy d id fun k => { k with loc := .sending, bytes := some l', stamp }
  let d := setEgr d p fun e => { e with
    queues := tmod [] e.queues c List.tail
    express := if pre then e.express else some id
    preempt := if pre then some id else e.preempt }
  let d := if c < 6 then tagHead (setVtime d p fin) p c fin else d
  let d := if c = 7 then
      osCnt (d.onSafe fun s => { s with lastSent := tins s.lastSent (sentKey p ((cp.accepted.map (·.1.stream)).getD 0)) x.arrival }) p Reg.osFwd
    else d
  if cp.mirror = none then injectDone d cp.frame 0 stamp else d

/-- Start the next eligible frame, discarding heads that may not start. -/
def startNext (fuel : Nat) (d : Dev) (p : Nat) (pre : Bool) : Dev :=
  match fuel with
  | 0 => d
  | fuel + 1 =>
    match (if pre then pickPre d p else pickExpress d p) with
    | none => d
    | some c =>
      match queueOf d p c with
      | [] => d
      | id :: _ =>
        match copyOf d id with
        | none => d
        | some cp =>
          match frameOf d cp.frame with
          | none => d
          | some x =>
            match headDiscard d p id cp x with
            | some d => startNext fuel (syncHeads d p) p pre
            | none => startHead d p c id cp x pre

/-- Frames waiting at a port, a bound on the discards of one boundary. -/
def waitingAt (d : Dev) (p : Nat) : Nat := sumOf (List.range 8) fun c => (queueOf d p c).length

/-! ## Control frames and telegrams -/

/-- Put an express frame on the wire. -/
def putExpress (d : Dev) (p : Nat) (l : List Byte) : Dev := putOut d p (wireLead false 0 0) l

/-- A verify or respond mPacket: its SMD, 60 zero bytes and their mCRC (IEEE 802.3br, log entry 98). -/
def putVerify (d : Dev) (p : Nat) (smd : Byte) : Dev := putOut d p (List.replicate 7 0x55 ++ [smd]) (zeros 60 ++ mcrcOf (zeros 60))

/-- The PFC frame of IEEE 802.1Qbb; the manual gives the ports no address, so the source is a free value. -/
def pfcFrame (sa classes time : Nat) : List Byte :=
  let b := toBe 6 0x0180C2000001 ++ toBe 6 (sa % 2 ^ 48) ++ toBe 2 0x8808 ++ toBe 2 0x0101 ++ toBe 2 classes
    ++ ((List.range 8).flatMap fun c => toBe 2 (if bit classes c then time else 0)) ++ zeros 26
  b ++ fcsOf b

/-- Send what waits first at the express MAC: verify and respond ahead of PFC frames (R834). -/
def sendCtl (d : Dev) (p : Nat) : Dev :=
  let q := (egrOf d p).ctl
  match (q.find? fun c => decide (c = .verify ∨ c = .respond)).orElse (fun _ => q.head?) with
  | none => d
  | some c =>
    let d := setEgr d p fun e => { e with ctl := e.ctl.erase c }
    match c with
    | .verify => putVerify (pcnt d p Reg.mmVerifyTx) p 0x07
    | .respond => putVerify d p 0x19
    | .pfc k t =>
      let (sa, d) := fresh d
      let l := pfcFrame sa k t
      putExpress (countSent d p l) p l

/-- Emitter e's own banks: guard A's, guard B's, the hardwired stop path's (R534). -/
def emitBanks (d : Dev) (e : Nat) : Banks := if e < 2 then (guardOf d e).banks else d.safe.hk

/-- Its telegrams in force: it takes up a commit's with the guards' banks, at T_sw (R551). -/
def telesNow (d : Dev) (e : Nat) : Tab Tele := (if d.safe.loaded then (emitBanks d e).old else (emitBanks d e).new).teles

def sealOf (j port kind len : Nat) (b : List Byte) : Nat :=
  crc32c (toLe 1 j ++ toLe 2 port ++ toLe 1 kind ++ toLe 2 len ++ padTo 256 b)

/-- The telegram's seal is that of its bytes (R533). -/
def sealGood (j : Nat) (t : Tele) : Bool := decide (t.sealCrc = sealOf j t.port t.kind t.len t.bytes)

/-- Telegram j as the first emitter offers it whose copy has a good seal. -/
def teleSent (d : Dev) (j : Nat) : Option Tele := [0, 1, 2].findSome? fun e => (tfind (telesNow d e) j).filter (sealGood j)

/-- The telegram of lowest index leaves (R538). -/
def sendTele (d : Dev) (p : Nat) : Dev :=
  match (egrOf d p).tele with
  | [] => d
  | j0 :: r =>
    let j := r.foldl min j0
    let d := setEgr d p fun e => { e with tele := e.tele.filter (· ≠ j) }
    match teleSent d j with
    | none => d
    | some t =>
      let b := t.bytes.take t.len
      let l := b ++ fcsOf b
      let d := osCnt (d.onSafe fun s => { s with teleAt := tins s.teleAt j d.now }) p Reg.osTelegrams
      putExpress (countSent d p l) p l

/-! ## The lifeline queues (Table 14-2) -/

/-- Next copy of the lifeline bridge at a port: PCP 6 and 7 ahead of the rest. -/
def lifeNext (d : Dev) (p : Nat) : Option (Nat × Copy) :=
  let l := d.buf.copies.filter fun e => e.2.lifeline && decide (e.2.port = p ∧ e.2.loc = .landed)
  (l.find? fun e => decide (e.2.cls = 6)).orElse fun _ => l.head?

/-- A frame of the lifeline bridge goes on the wire, corrected as any forwarded frame is (R434, R435). -/
def sendLife (d : Dev) (p id : Nat) (c : Copy) (x : Frame) : Dev :=
  let stamp := stampExt d p true % two32
  let (l, sat) := oneStep d x c x.bytes stamp
  let d := if sat then cnt d (Reg.tsCfSat p) else d
  setEgr (setCopy d id fun k => { k with loc := .sending, bytes := some l, stamp }) p fun e => { e with express := some id }

/-- Start the next frame of the lifeline bridge, discarding heads that may not start. A PFC frame pauses classes of the egress queues;
these queues, of which Table 14-2 says nothing, it leaves alone (DESIGN CHOICE, log entry 80). -/
def startLife (fuel : Nat) (d : Dev) (p : Nat) : Dev :=
  match fuel with
  | 0 => d
  | fuel + 1 =>
    match lifeNext d p with
    | none => d
    | some (id, c) =>
      match frameOf d c.frame with
      | none => d
      | some x =>
        if overAge d 0 c then startLife fuel (discardCopy (tcnt d 0 Reg.dropOverage) id) p
        else if leaks d x c then startLife fuel (discardCopy (osCnt d p Reg.osLeakDrop) id) p
        else if !x.tailIn then d
        else sendLife d p id c x

/-! ## FRAME_BOUNDARY -/

/-- End what the MAC transmits, if it can end; the answer says whether the MAC is free. -/
def endMac (d : Dev) (p : Nat) (pre : Bool) : Bool × Dev :=
  let e := egrOf d p
  match (if pre then e.preempt else e.express) with
  | none => (true, d)
  | some id =>
    match copyOf d id with
    | none => (true, d)
    | some c =>
      if c.loc = .preempted then (true, d)
      else if canEnd d c then (true, endCopy d p id c pre)
      else (false, d)

/-- The preemptable MAC has the wire. -/
def preSends (d : Dev) (p : Nat) : Bool := ((egrOf d p).preempt.bind (copyOf d)).any fun c => decide (c.loc = .sending)

/-- The express MAC's boundary (R345, R350, R537, R538, R834): a preemptable frame in transmission is preempted where R76 permits
it, and goes on to its end where not. -/
def expressBoundary (d : Dev) (p : Nat) : Dev :=
  let d := if expressWaits d p then preemptNow d p else d
  if preSends d p then d
  else if (egrOf d p).tele ≠ [] then sendTele d p
  else
    let d := startNext (waitingAt d p + 1) d p false
    if (egrOf d p).express.isSome then d
    else if (egrOf d p).ctl ≠ [] then sendCtl d p
    else startLife (d.buf.copies.length + 1) d p

/-- The rest of a preempted frame fits before its gate closes or preemptable frames are held, whole or by a non-final fragment
(R383 to R385). -/
def restFits (d : Dev) (p : Nat) (c : Copy) : Bool :=
  let pre := preemptable d p c.cls
  let left := (copyBytes d c).length - c.fragBytes
  gateFor d p pre c.cls (left + 8) || (pre && decide (64 + minFrag d p ≤ left) && gateFor d p pre c.cls (minFrag d p + 8))

/-- The preemptable MAC's boundary (R346, R349, R384). -/
def preBoundary (d : Dev) (p : Nat) : Dev :=
  let e := egrOf d p
  if expressWaits d p || e.express.isSome then d
  else
    match e.preempt with
    | none => startNext (waitingAt d p + 1) d p true
    | some id =>
      match copyOf d id with
      | none => d
      | some c =>
        if !restFits d p c ∨ (mmActive d p && flag d (stsAddr p) 8) then d
        else pcnt (setFlag (setCopy d id fun k => { k with loc := .sending }) (stsAddr p) 12 false) p Reg.txMmFrag

/-- An error met in a cell that the MAC has read of the frame it sends (R82, R245). -/
def macErr (p : Nat) (pre : Bool) (d : Dev) (e : CellErr) : Dev :=
  let m := if pre then (egrOf d p).preempt else (egrOf d p).express
  match copyOf d e.copy with
  | none => d
  | some c =>
    if m ≠ some e.copy ∨ (if c.lifeline then c.cells else c.arrived) ≤ e.cell then d
    else cellErr (tileOf p) (if c.lifeline then beyondIn d c e.cell else beyondOut c e.cell) d e

/-- A boundary of one of the port's MACs: what is due on its gates comes first (R351), then the errors met in what it sent. A frame
that MAC merge left on the preemptable MAC when it ceased to be active goes on to its end. -/
def frameBoundary (p : Nat) (pre : Bool) (errs : List CellErr) (d : Dev) : Dev :=
  if portDead d p || (pre && !mmActive d p && (egrOf d p).preempt.isNone) then d
  else
    match endMac (errs.foldl (macErr p pre) (gatesDue d p)) p pre with
    | (false, d) => d
    | (true, d) =>
      let d := syncHeads d p
      if !pre then expressBoundary d p
      else if mmActive d p || (egrOf d p).preempt.isSome then preBoundary d p
      else d

def execFrameBoundary (port : Nat) (pre : Bool) (s : State) (errs : List CellErr := []) : Host.Outcome State Fault Refusal :=
  s.runIf (Instr.frameBoundary port pre errs).wf (frameBoundary port pre errs)

/-! ## MAC merge verification and links (R73 to R75, R821, R234, R836) -/

def psts (p : Nat) : Nat := Reg.port p + Reg.pSts

def mmEn (d : Dev) (p : Nat) : Bool := flag d (Reg.port p + Reg.pMode) 13
def verifyEn (d : Dev) (p : Nat) : Bool := flag d (Reg.port p + Reg.pMm) 2

/-- Without verification MAC merge is active as soon as it is enabled, link or no link (R73); a verification that runs ends. -/
def mmPlain (d : Dev) (p : Nat) : Dev := setPort (setFlag d (psts p) 5 true) p fun s => { s with verify := none }

/-- Verification runs afresh (R821); until it succeeds MAC merge is not active. -/
def mmVerify (d : Dev) (p : Nat) : Dev :=
  setPort (setFlag (setFlag d (psts p) 6 false) (psts p) 5 false) p fun s => { s with verify := some 0, verifyAt := d.now }

/-- MAC merge as a port's link comes up. -/
def mmStart (d : Dev) (p : Nat) : Dev := if mmEn d p then (if verifyEn d p then mmVerify d p else mmPlain d p) else d

def mmStop (d : Dev) (p : Nat) : Dev := setPort (setFlag d (psts p) 5 false) p fun s => { s with verify := none }

def verifyTime (d : Dev) (p : Nat) : Nat := (fld d (Reg.port p + Reg.pMm) 3 7 + 1) * ps_ms

def mmVerifySend (p : Nat) (d : Dev) : Dev :=
  let s := portOf d p
  match s.verify with
  | none => d
  | some n =>
    let d := reach d s.verifyAt
    if 3 ≤ n then setPort (setFlag d (psts p) 6 true) p fun s => { s with verify := none }
    else
      setEgr (setPort d p fun s => { s with verify := some (n + 1), verifyAt := s.verifyAt + verifyTime d p }) p
        fun e => { e with ctl := e.ctl ++ [.verify] }

def execMmVerifySend (port : Nat) (s : State) : Host.Outcome State Fault Refusal :=
  s.runIf (Instr.mmVerifySend port).wf (mmVerifySend port)

def mmRespondReceive (p : Nat) (d : Dev) : Dev :=
  if !receives d p then d
  else
    let d := pcnt d p Reg.mmVerifyRx
    if (portOf d p).verify.isSome then setFlag (setPort d p fun s => { s with verify := none }) (psts p) 5 true else d

def execMmRespondReceive (port : Nat) (s : State) : Host.Outcome State Fault Refusal :=
  s.runIf (Instr.mmRespondReceive port).wf (mmRespondReceive port)

def setLink (d : Dev) (p : Nat) (up : Bool) : Dev :=
  let d := setFld d (psts p) 0 3 (if up then 7 else 0)
  cnt (setFlag (setFlag d (psts p) 3 (up && flag d (Reg.port p + Reg.pMode) 9)) (psts p) 4 false) (Reg.port p + Reg.pLinkEvc)

/-- Management port p − 512 is enabled (R63). -/
def mgmtOn (d : Dev) (p : Nat) : Bool := decide (fld d (Reg.mgmt (p - 512)) 0 4 ≠ 0)

/-- The link of a management port comes up or falls (Table 02-10). -/
def mgmtLink (d : Dev) (p : Nat) (up : Bool) : Dev :=
  let a := Reg.mgmt (p - 512)
  let d := setFlag (setFlag (setFld d (a + 4) 0 3 (if up then 7 else 0)) (a + 4) 3 (up && flag d a 9)) (a + 4) 4 false
  if up then d else cnt d (a + 0x2C)

def mgmtFall (d : Dev) (p : Nat) : Dev := if flag d (Reg.mgmt (p - 512) + 4) 0 then mgmtLink d p false else d

def linkUp (p : Nat) (d : Dev) : Dev :=
  if 512 ≤ p then (if !mgmtOn d p || flag d (Reg.mgmt (p - 512) + 4) 0 then d else mgmtLink d p true)
  else if !ownPath d p || flag d (psts p) 0 then d else mmStart (setLink d p true) p

def execLinkUp (port : Nat) (s : State) : Host.Outcome State Fault Refusal := s.runIf (Instr.linkUp port).wf (linkUp port)

/-- Frames of a port without a link: those on the wire are gone, those in its queues are discarded (R836, R830). -/
def clearPort (d : Dev) (p : Nat) : Dev :=
  let mine := d.buf.copies.filter fun e => decide (e.2.port = p)
  let d := (mine.filter fun e => decide (e.2.loc = .sending ∨ e.2.loc = .preempted)).foldl (fun d e => removeCopy d e.1) d
  let d := (mine.filter fun e => decide (e.2.loc = .queued) || (e.2.lifeline && decide (e.2.loc = .landed))).foldl
    (fun d e => dropDown d (tileOf p) e.1) d
  let d := (mine.filter fun e => decide (e.2.loc = .voq ∧ e.2.sent = 0)).foldl (fun d e => dropDown d e.2.tile e.1) d
  let d := setFlag d (stsAddr p) 12 false
  syncHeads (setEgr d p fun e => { e with ctl := [], tele := [] }) p

/-- Locks that a port without a link keeps: the PCS's, or the FEC's alone; without FEC the FEC bit follows the PCS (Table 02-7). Both
together are a link. -/
def setLocks (d : Dev) (p : Nat) (pcs fec : Bool) : Dev :=
  let none' := decide (fld d (Reg.port p + Reg.pMode) 6 3 = 0) || (pcs && fec)
  setFld d (psts p) 1 2 (if none' then 0 else b2n pcs + 2 * b2n fec)

/-- A link that is up falls. -/
def fallLink (d : Dev) (p : Nat) : Dev :=
  let d := pcnt (setLink d p false) p Reg.linkDownCnt
  clearPort (if mmEn d p && !verifyEn d p then d else mmStop d p) p

/-- A port that stops running its mode loses its link, and its locks where it had no link. -/
def stopPort (d : Dev) (p : Nat) : Dev := if flag d (psts p) 0 then fallLink d p else setFld d (psts p) 1 2 0

/-- The link falls, or the locks of a port without one change. -/
def linkDown (p : Nat) (pcs fec : Bool) (d : Dev) : Dev :=
  if 512 ≤ p then mgmtFall d p
  else
    let d := if flag d (psts p) 0 then fallLink d p else d
    if ownPath d p then setLocks d p pcs fec else d

def execLinkDown (port : Nat) (s : State) (pcs fec : Bool := false) : Host.Outcome State Fault Refusal :=
  s.runIf (Instr.linkDown port pcs fec).wf (linkDown port pcs fec)

end Sys2Proof.Machine
end

