-- ==== Sys2Proof/Machine/Emit.lean ====
section
/-! DEFINITION. Claims, safe state and degraded operation, the emitters with their sealed telegrams, and health events (chapter
09, R785). -/

namespace Sys2Proof.Machine

/-! ## SAFE_STS and the guards' status -/

def safeFlag (d : Dev) (i : Nat) : Bool := flag d Reg.safeSts i
def setSafe (d : Dev) (i : Nat) (b : Bool) : Dev := setFlag d Reg.safeSts i b
def guardsStarted (d : Dev) : Bool := safeFlag d 17
def claim (d : Dev) (g : Nat) : Nat := fld d Reg.safeSts (4 * g) 4

/-- The settings in force: the registers once the guards run, the committed image for the hardwired path before (Table 09-15). -/
def stopCfg (d : Dev) : Nat :=
  if guardsStarted d then rd d Reg.safeStopCfg else if d.safe.armedHk then d.safe.hk.new.stopCfg else rd d Reg.safeStopCfg

def tpFilter (d : Dev) : Nat := bits (stopCfg d) 1 10
/-- `DISC` in ticks of 10 µs. -/
def discTicks (d : Dev) : Nat := bits (stopCfg d) 11 10 * 100
def stopRepeat (d : Dev) : Nat := bits (stopCfg d) 21 10 * 100 * ps_us

def defClaim (d : Dev) (g : Nat) : Nat := bits (rd d Reg.safeDegradeCfg) (18 + 4 * g) 4

/-- A notification of kind 1 (Table 12-7). -/
def noteSafe (d : Dev) : Dev :=
  note d 1 (toLe 4 (rd d Reg.safeSts) ++ toLe 4 (rd d (Reg.guardSts 0)) ++ toLe 4 (rd d (Reg.guardSts 1)))

/-- Arguments [4–7] `SAFE_STS` of a record with a first byte. -/
def safeArgs (d : Dev) (b c : Nat) : List Byte := toLe 1 b ++ toLe 1 c ++ zeros 2 ++ toLe 4 (rd d Reg.safeSts)

/-- A health event of code h (R785). -/
def healthEvent (d : Dev) (h : Nat) (args : List Byte) : Dev :=
  note (bb d 41 (0x40 + h) args) 9 (toLe 2 h ++ toLe 2 0 ++ (padTo 16 args).take 12)

/-! ## Safe state and degraded operation (R502, R511, R518) -/

/-- Latch a cause that forces a claim (Table 09-14). -/
def latchCause (d : Dev) (g cause : Nat) : Dev := setFlag (setFlag d (Reg.guardSts g) cause true) (Reg.guardSts g) 11 false

/-- A claim becomes 0 by hardware, without the refresh that follows. On a guard that is forced already its proof tests keep their times
(R514). -/
def forceDown (d : Dev) (g : Nat) : Dev :=
  let was := claim d g
  let d := setGuard d g fun k =>
    if was ≠ 0 ∨ (k.forcedAt = none ∧ k.failedAt = none) then { k with forcedAt := some d.now, failedAt := none } else k
  if was = 0 then d
  else
    let d := setFld d Reg.safeSts (4 * g) 4 0
    let d := bb (cnt d Reg.safeFaultEvc) (38 + g) 0x10 (toLe 1 g ++ toLe 1 was ++ zeros 2 ++ toLe 4 (rd d (Reg.guardSts g)))
    mramTrigger d 3

/-- A cause of Table 09-4 is latched and forces a claim. -/
def dropClaim (d : Dev) (g cause : Nat) : Dev := forceDown (latchCause d g cause) g

/-- Firmware posts the notification of a claim forced (Table 12-7), once the flags have followed. -/
def noteForced (was : Nat) (d : Dev) : Dev := if was = 0 then d else noteSafe d

/-- Safe state, degraded operation and the degrade timer follow the claims; an entry to or exit from safe state is recorded. -/
def claimFlags (d : Dev) : Dev :=
  let a := claim d 0
  let b := claim d 1
  let safe := decide (a = 0 ∧ b = 0)
  let was := safeFlag d 8
  let deg := decide ((a = 0) ≠ (b = 0))
  let d := setSafe (setSafe d 8 safe) 9 deg
  let d := d.onSafe fun s => { s with degradeFrom := if deg then some (s.degradeFrom.getD d.now) else none }
  if safe && !was then noteSafe (mramTrigger (bb (cnt d Reg.safeFaultEvc) 41 0x11 (safeArgs d 1 0)) 2)
  else if was && !safe then bb d 41 0x11 (safeArgs d 0 0)
  else d

/-! ## Telegrams (R533 to R541) -/

/-- Trigger kinds that are active: bit 0 stop, 1 thermal trip, 2 safe state. -/
def activeKinds (d : Dev) : Nat := b2n (safeFlag d 10) + 2 * b2n (safeFlag d 21) + 4 * b2n (safeFlag d 8)

/-- Emitters that emit: guards A and B by their heartbeat, and the hardwired path. -/
def emitters (d : Dev) : List Nat :=
  (List.range 3).filter fun e => safeFlag d (18 + e) && (if e = 2 then d.safe.armedHk else guardsStarted d)

/-- A frame in transmission is cut short once 60 bytes at least have been sent, those of its fragments among them, how many more the
manual leaves open, and ended with the inverted FCS. A frame of no more than 60 bytes has ended by then. -/
def cutFrame (d : Dev) (p : Nat) (pre : Bool) (id : Nat) : Dev :=
  match copyOf d id with
  | none => d
  | some c =>
    let l := copyBytes d c
    if c.cls = 7 ∨ c.loc ≠ .sending ∨ l.length ≤ 60 then d
    else
      let (r, d) := fresh d
      let lo := max c.fragBytes 60
      let n := lo + r % (max lo (l.length - 4) + 1 - lo)
      let d := pcnt48 (pcnt (osCnt d p Reg.osStopTrunc) p Reg.txCorked) p Reg.txBytesAll (n + 4)
      removeCopy (putOut d p (wireLead pre (egrOf d p).smd c.frags) ((badFcs (l.take n)).drop c.fragBytes)) id

/-- The output stage ends what an offered telegram finds in transmission (R537): TC7 and control frames finish. -/
def cutShort (d : Dev) (p : Nat) : Dev :=
  let d := preemptNow d p
  let e := egrOf d p
  let d := match e.preempt with
    | some id => if mmActive d p then d else cutFrame d p true id
    | none => d
  match e.express with
  | some id => cutFrame d p false id
  | none => d

/-- Offer telegram j on its port (R536, R830). -/
def offerTele (d : Dev) (j : Nat) (t : Tele) : Dev :=
  let recent := match tfind d.safe.teleAt j with
    | some x => decide (d.now < x + stopRepeat d / 2)
    | none => false
  if portDead d t.port || recent || (egrOf d t.port).tele.contains j then d
  else cutShort (setEgr d t.port fun e => { e with tele := e.tele ++ [j] }) t.port

/-- A seal mismatch at an emitter: the telegram is skipped, counted and recorded, and a guard's claim is forced (R535). -/
def sealError (j : Nat) (d : Dev) (e : Nat) : Dev :=
  let d := if e = 2 then cnt d Reg.hkSealErr else cnt d (Reg.guard e + Reg.gSealErr)
  let d := bb d (if e = 2 then 41 else 38 + e) 0x14 (toLe 1 e ++ toLe 1 j)
  if e = 2 then d else noteForced (claim d e) (claimFlags (dropClaim d e 3))

/-- Emitter e emits telegram j from its own copy while an active trigger matches it, once its seal has been checked (R534, R535). -/
def emitFrom (j : Nat) (d : Dev) (e : Nat) : Dev :=
  match tfind (telesNow d e) j with
  | none => d
  | some t => if t.kind &&& activeKinds d = 0 then d else if sealGood j t then offerTele d j t else sealError j d e

/-- Emit one telegram from every emitter. -/
def emitTele (d : Dev) (j : Nat) : Dev := (emitters d).foldl (emitFrom j) d

/-- Telegrams whose kind matches a set of triggers in some emitter's copy, ascending. -/
def telesOf (d : Dev) (kinds : Nat) : List Nat :=
  (List.range 64).filter fun j => [0, 1, 2].any fun e => ((tfind (telesNow d e) j).map fun t => decide (t.kind &&& kinds ≠ 0)).getD false

/-- A telegram is emitted, and repeats from its first emission (R539, R540); one that repeats already, by another trigger, is sent once
per repetition and goes on as it does. -/
def startTele (d : Dev) (j : Nat) : Dev :=
  if (tfind d.safe.teleDue j).isSome then d
  else (emitTele d j).onSafe fun s => { s with teleDue := tins s.teleDue j (d.now + stopRepeat d) }

/-- Telegrams of some kinds are emitted. -/
def startTeles (d : Dev) (kinds : Nat) : Dev :=
  if emitters d = [] then d else (telesOf d kinds).foldl startTele d

/-- After emissions that may have forced claims: an entry to safe state is a trigger of its own (R535, R540). -/
def sealSafe (was : Bool) (d : Dev) : Dev := if safeFlag d 8 && !was then startTeles d 4 else d

/-- A trigger becomes active. -/
def triggerOn (d : Dev) (kinds : Nat) : Dev := sealSafe (safeFlag d 8) (startTeles d kinds)

/-- Repetition ends for telegrams that match no active trigger. -/
def triggerOff (d : Dev) : Dev :=
  let keep := telesOf d (activeKinds d)
  d.onSafe fun s => { s with teleDue := s.teleDue.filter fun e => keep.contains e.1 }

/-- The telegrams in force have changed: those that no active trigger matches end, and new ones that match one begin. -/
def renewTeles (d : Dev) : Dev :=
  let d := triggerOff d
  triggerOn d (activeKinds d)

/-- The telegrams that fall due next are emitted again. -/
def telegramRepeat (d : Dev) : Dev :=
  match d.safe.teleDue with
  | [] => d
  | e :: r =>
    let d := reach d (r.foldl (fun a x => min a x.2) e.2)
    let due := (d.safe.teleDue.filter fun x => decide (x.2 ≤ d.now)).map (·.1)
    sealSafe (safeFlag d 8)
      (due.foldl (fun d j => emitTele (d.onSafe fun s => { s with teleDue := tmod 0 s.teleDue j (· + stopRepeat d) }) j) d)

def execTelegramRepeat (s : State) : Host.Outcome State Fault Refusal := s.runIf Instr.telegramRepeat.wf telegramRepeat

/-! ## Claims (R502, R512, R520 to R522) -/

/-- Claims have changed: the flags follow, and the telegrams of kind "safe state" begin or end (R522, R540). -/
def refreshClaims (d : Dev) : Dev :=
  let was := safeFlag d 8
  let d := claimFlags d
  if safeFlag d 8 && !was then triggerOn d 4 else if was && !safeFlag d 8 then triggerOff d else d

def setClaim (d : Dev) (g v : Nat) : Dev := refreshClaims (setFld d Reg.safeSts (4 * g) 4 v)

/-- Force a guard's claim to 0 (R502). -/
def forceClaim (d : Dev) (g cause : Nat) : Dev := noteForced (claim d g) (refreshClaims (dropClaim d g cause))

/-- The temperature of guard g's island departs from its specification, 0 to 105 °C (Table 00-2), or is back within it: a departure
forces the claim, and as Table 09-14 has no bit for it latches none (R482, log entry 52). -/
def guardTemp (d : Dev) (g : Nat) (out : Bool) : Dev :=
  if (guardOf d g).hot = out then d
  else
    let d := setGuard d g fun k => { k with hot := out }
    if out then noteForced (claim d g) (refreshClaims (forceDown (setFlag d (Reg.guardSts g) 11 false) g)) else d

/-- A cause of Table 09-4 arises: before the guards have started, too, it is latched. -/
def claimForce (g cause : Nat) (d : Dev) : Dev := if alive d then forceClaim d g cause else d

def execClaimForce (guard cause : Nat) (s : State) : Host.Outcome State Fault Refusal :=
  s.runIf (Instr.claimForce guard cause).wf (claimForce guard cause)

/-- When degraded operation will have lasted the `DEGRADE_LIMIT` in force. -/
def degradeEnd (d : Dev) : Option Nat := d.safe.degradeFrom.map (· + rd d Reg.safeDegradeCfg % 2 ^ 18 * ps_s)

/-- The degraded limit expires for the surviving guard (R512). -/
def degradeLimitExpiry (d : Dev) : Dev :=
  match degradeEnd d with
  | none => d
  | some t =>
    let d := reach d t
    forceClaim d (if claim d 0 ≠ 0 then 0 else 1) 8

/-- The level of `SAFE_STATE_N`: low while `RESET_N` is low, until the guards have started, and in safe state (R520). -/
def safeStateN (d : Dev) : Bool := d.pins.resetN && guardsStarted d && !safeFlag d 8

def execDegradeLimitExpiry (s : State) : Host.Outcome State Fault Refusal :=
  s.runIf Instr.degradeLimitExpiry.wf degradeLimitExpiry

/-- An emitter's heartbeat is lost (Table 09-13, Table 12-7). -/
def emitterHeartbeatLoss (e : Nat) (d : Dev) : Dev := if safeFlag d (18 + e) then noteSafe (setSafe d (18 + e) false) else d

def execEmitterHeartbeatLoss (emitter : Nat) (s : State) : Host.Outcome State Fault Refusal :=
  s.runIf (Instr.emitterHeartbeatLoss emitter).wf (emitterHeartbeatLoss emitter)

/-! ## Proof tests (R513 to R517) -/

/-- Tests in the last 24 h. -/
def proofCount (d : Dev) : Nat := (d.safe.proofs.filter fun t => decide (d.now < t)).length

/-- A proof test of guard g runs. -/
def testing (d : Dev) (g : Nat) : Bool := flag d (Reg.guardSts g) 10

/-- A test begins: the guard's island goes through reset, and its tables are loaded from the MRAM image (R513). -/
def proofBegin (d : Dev) (g : Nat) : Dev :=
  let d := d.onSafe fun s => { s with proofs := (d.now + 86400 * ps_s) :: s.proofs }
  let d := setGuard d g fun k =>
    { banks := { k.banks with old := if d.safe.loaded then k.banks.old else d.safe.cfg, new := d.safe.cfg }, failedAt := k.failedAt
      hot := k.hot }
  setClaim (setFlag d (Reg.guardSts g) 10 true) g 0

/-- A test ends. -/
def proofEnd (d : Dev) (g : Nat) (pass : Bool) : Dev :=
  let r := Reg.guardSts g
  let d := bb (setFlag d r 10 false) (38 + g) 0x17 (toLe 1 g ++ toLe 1 (b2n pass))
  if pass then
    let d := setFlag (setFld d r 0 9 0) r 11 true
    let d := setGuard d g fun k => { k with failedAt := none, forcedAt := none }
    if claim d (1 - g) = 0 ∨ (guardOf d g).hot then d else setClaim (setFlag d r 9 false) g (defClaim d g)
  else setGuard d g fun k => { k with failedAt := some d.now, forcedAt := none }

/-- When firmware starts a test: 1 s after the force, 10 minutes after a failed test. -/
def proofAt (k : Guard) : Option Nat :=
  match k.failedAt, k.forcedAt with
  | some t, _ => some (t + 600 * ps_s)
  | none, some t => some (t + ps_s)
  | none, none => none

def proofTestStart (g : Nat) (d : Dev) : Dev :=
  match proofAt (guardOf d g) with
  | none => d
  | some t =>
    let e := reach d t
    if d.boot.fwRunning && !testing d g && decide (proofCount e < 3) then proofBegin e g else d

def execProofTestStart (guard : Nat) (s : State) : Host.Outcome State Fault Refusal :=
  s.runIf (Instr.proofTestStart guard).wf (proofTestStart guard)

def proofTestDone (g : Nat) (pass : Bool) (d : Dev) : Dev := if testing d g then proofEnd d g pass else d

def execProofTestDone (guard : Nat) (pass : Bool) (s : State) : Host.Outcome State Fault Refusal :=
  s.runIf (Instr.proofTestDone guard pass).wf (proofTestDone guard pass)

/-! ## Safe stop inputs (R523 to R532) -/

def stopSeen (d : Dev) (b : Bool) : Bool := safeFlag d (if b then 12 else 11)

/-- A channel's level means stop (Table 09-5). -/
def levelStop (d : Dev) (b level : Bool) : Bool := if b && bit (stopCfg d) 0 then level else !level

/-- Discrepancy between a channel's recognised change and the other's: answers whether the pair's change stayed below `DISC`. -/
def discStep (d : Dev) (b stop : Bool) : Bool × Dev :=
  let clear := d.onSafe fun s => { s with disc := none }
  match d.safe.disc with
  | some (first, dir, t, _) =>
    if first ≠ b ∧ dir = stop then (decide ((d.now - t) / (10 * ps_us) < discTicks d), clear)
    else (false, if stopSeen d (!b) = stop then clear else d.onSafe fun s => { s with disc := some (b, stop, d.now, false) })
  | none =>
    if stopSeen d (!b) = stop then (false, d) else (false, d.onSafe fun s => { s with disc := some (b, stop, d.now, false) })

/-- A stop begins (R524). -/
def stopBegin (d : Dev) : Dev :=
  if safeFlag d 10 then d
  else
    let d := cnt (setSafe d 10 true) Reg.stopEvc
    let d := bb d 41 0x15 (safeArgs d 1 (b2n (stopSeen d false) + 2 * b2n (stopSeen d true)))
    triggerOn (noteSafe d) 1

/-- Progress of clearing a discrepancy fault (R531). -/
def clearStep (d : Dev) (ok stop : Bool) : Dev :=
  if !safeFlag d 13 || stopSeen d false ≠ stopSeen d true then d
  else if stop then d.onSafe fun s => { s with clearing := ok }
  else if ok && d.safe.clearing then setSafe (d.onSafe fun s => { s with clearing := false }) 13 false
  else d.onSafe fun s => { s with clearing := false }

/-- A discrepancy fault is latched. -/
def latchDisc (d : Dev) : Dev :=
  match d.safe.disc with
  | some (first, dir, t, false) =>
    let d := d.onSafe fun s => { s with disc := some (first, dir, t, true), clearing := false }
    let d := bb (cnt (setSafe d 13 true) Reg.discEvc) 41 0x16 (toLe 1 (b2n first) ++ zeros 3 ++ toLe 4 (discTicks d))
    noteSafe (mramTrigger d 4)
  | _ => d

/-- The count has reached `DISC` by now, whatever changes next (R525). -/
def discDue (d : Dev) : Dev :=
  match d.safe.disc with
  | some (_, _, t, false) => if discTicks d ≤ (d.now - t) / (10 * ps_us) then latchDisc d else d
  | _ => d

/-- A channel's change is recognised. -/
def recognise (d : Dev) (b stop : Bool) : Dev :=
  if stopSeen d b = stop then d
  else
    let (ok, d) := discStep (discDue d) b stop
    let d := clearStep (setSafe d (if b then 12 else 11) stop) ok stop
    if stop then stopBegin d else d

def safeStopChange (b level : Bool) (heldUs : Nat) (d : Dev) : Dev :=
  let d := d.onPins fun p => if b then { p with safeStopB := level } else { p with safeStopA := level }
  if (d.safe.armedHk || guardsStarted d) && decide (tpFilter d ≤ heldUs) then recognise d b (levelStop d b level) else d

def execSafeStopChange (b level : Bool) (heldUs : Nat) (s : State) : Host.Outcome State Fault Refusal :=
  s.runIf (Instr.safeStopChange b level heldUs).wf (safeStopChange b level heldUs)

/-- The count reaches `DISC` (R525, R532). -/
def discrepancyFault (d : Dev) : Dev :=
  match d.safe.disc with
  | some (_, _, t, false) =>
    latchDisc (reach d (t + discTicks d * 10 * ps_us))
  | _ => d

def execDiscrepancyFault (s : State) : Host.Outcome State Fault Refusal := s.runIf Instr.discrepancyFault.wf discrepancyFault

/-- An acknowledge (R527, R530): it releases the stop, or is ignored and counted. -/
def acknowledge (d : Dev) : Bool × Dev :=
  if !safeFlag d 10 || safeFlag d 11 || safeFlag d 12 || safeFlag d 13 then (false, cnt d Reg.stopAckIgnored)
  else
    let d := setSafe d 10 false
    (true, triggerOff (bb d 41 0x15 (safeArgs d 0 0)))

/-- `ACK_STUCK` clears once the pin has been high for 10 ms (R529). -/
def ackDue (d : Dev) : Dev :=
  match d.safe.ackRiseAt with
  | some t => if t + 10 * ps_ms ≤ d.now then setSafe d 14 false else d
  | none => d

def stopAckNFall (d : Dev) : Dev :=
  if d.pins.stopAckN then
    ((ackDue d).onPins fun p => { p with stopAckN := false }).onSafe fun s => { s with ackFallAt := some d.now, ackRiseAt := none }
  else d

def execStopAckNFall (s : State) : Host.Outcome State Fault Refusal := s.runIf Instr.stopAckNFall.wf stopAckNFall

/-- `STOP_ACK_N` rises (R528, R529). -/
def stopAckNEdge (d : Dev) : Dev :=
  if d.pins.stopAckN then d
  else
    let low := d.now - (d.safe.ackFallAt.getD d.now)
    let d := (d.onPins fun p => { p with stopAckN := true }).onSafe fun s => { s with ackFallAt := none, ackRiseAt := some d.now }
    if 5 * ps_s < low then setSafe d 14 true
    else if 10 * ps_ms ≤ low then (acknowledge d).2 else d

def execStopAckNEdge (s : State) : Host.Outcome State Fault Refusal := s.runIf Instr.stopAckNEdge.wf stopAckNEdge

def ackStuck (d : Dev) : Dev :=
  match d.safe.ackFallAt with
  | none => d
  | some t => setSafe (reach d (t + 5 * ps_s + 1)) 14 true

def execAckStuck (s : State) : Host.Outcome State Fault Refusal := s.runIf Instr.ackStuck.wf ackStuck

def ackStuckClear (d : Dev) : Dev :=
  match d.safe.ackRiseAt with
  | none => d
  | some t => if safeFlag d 14 then setSafe (reach d (t + 10 * ps_ms)) 14 false else d

def execAckStuckClear (s : State) : Host.Outcome State Fault Refusal := s.runIf Instr.ackStuckClear.wf ackStuckClear

/-! ## Starting (R542, R557) -/

/-- Channels already at stop count. -/
def judgeChannels (d : Dev) : Dev :=
  let d := recognise d false (levelStop d false d.pins.safeStopA)
  recognise d true (levelStop d true d.pins.safeStopB)

/-- The hardwired stop path is armed from the MRAM image; channels already at stop and triggers already active count. -/
def stopPathArm (d : Dev) : Dev :=
  if d.safe.armedHk || !alive d then d
  else
    let d := reach d (d.boot.releasedAt + 80 * ps_ms)
    let d := setSafe (d.onSafe fun s => { s with armedHk := true, hk := { old := s.cfg, new := s.cfg } }) 20 true
    let d := triggerOn d (activeKinds d)
    if guardsStarted d then d else judgeChannels d

def execStopPathArm (s : State) : Host.Outcome State Fault Refusal := s.runIf Instr.stopPathArm.wf stopPathArm

/-- The occurrence of a 32-bit time nearest now, at 0 or later, the later of two equally near (R841). -/
def nearestExt (now base : Nat) : Nat := base + two32 * ((now + 2 ^ 31 - base) / two32)

/-- The committed configuration with each `BASE` in extended time (R390, R841). -/
def fixBases (c : SafeCfg) (now : Nat) : SafeCfg :=
  { c with streams := c.streams.map fun e => (e.1, { e.2 with baseExt := nearestExt now e.2.base }) }

/-- A guard's claim at the start: its default one, but 0 while a departure on its island lasts (R482, R510). -/
def firstClaim (d : Dev) (g : Nat) : Nat := if fld d (Reg.guardSts g) 4 2 = 0 ∧ ¬ (guardOf d g).hot then defClaim d g else 0

/-- Both guards' self-tests have passed: no failure of one is latched (R557, Table 09-14). -/
def selfTestsPassed (d : Dev) : Bool := !flag d (Reg.guardSts 0) 0 && !flag d (Reg.guardSts 1) 0

/-- The guards start from the MRAM image, whose `BASE`s they read as of now, and take their default claims (R510, R521, R557); tiles and
output stages then judge by the image's safety VID map, as the guards do. -/
def guardsStart (d : Dev) : Dev :=
  if guardsStarted d || !d.boot.fwRunning || !selfTestsPassed d then d
  else
    let d := d.onSafe fun s => { s with cfg := fixBases s.cfg (extTime d) }
    let own : Banks := { old := d.safe.cfg, new := d.safe.cfg }
    let d := setGuard (setGuard d 0 fun k => { k with banks := own }) 1 fun k => { k with banks := own }
    let d := putMaps (putMaps d true d.safe.cfg.vids) true d.safe.cfg.vids
    let d := wr (wr d Reg.safeStopCfg d.safe.cfg.stopCfg) Reg.safeDegradeCfg d.safe.cfg.degradeCfg
    let d := setSafe (setSafe (setSafe d 17 true) 18 true) 19 true
    let d := setFld (setFld d Reg.safeSts 0 4 (firstClaim d 0)) Reg.safeSts 4 4 (firstClaim d 1)
    let d := refreshClaims d
    if d.safe.armedHk then d else judgeChannels d

def execGuardsStart (s : State) : Host.Outcome State Fault Refusal := s.runIf Instr.guardsStart.wf guardsStart

end Sys2Proof.Machine
end

