-- ==== Sys2Proof/Machine/Guards.lean ====
section
/-! DEFINITION. The guards' decisions and the output stages (chapter 09, R485 to R504). -/

namespace Sys2Proof.Machine

/-! ## Decisions (R485 to R493) -/

/-- Number of the bank that guard g decides a frame on (R551). -/
def bankOf (d : Dev) (g arrivalExt : Nat) : Bool := bySwitch d (!(guardOf d g).banks.act) (guardOf d g).banks.act arrivalExt

/-- Number of the window a time lies in, the tolerance included (R389, R489 check 3). -/
def windowNo (t base : Int) (cycle opn cls tol : Nat) : Int :=
  let x := ((t - base) % (max cycle 1 : Nat)).toNat
  let n := (t - base) / (max cycle 1 : Nat)
  if opn + cycle ≤ x + tol ∧ cls + tol ≤ x then n + 1 else if x + cycle < cls + tol then n - 1 else n

/-- The digest of R491. -/
def frameDigest (stream : Nat) (x : Frame) : Nat :=
  let l := retag x.bytes x.tagged none
  crc32c (toBe 2 stream ++ l.take (l.length - 4))

/-- What the vector recovery algorithm answers (IEEE 802.1CB). -/
inductive RecovRes where
  | pass | dup | rogue
  deriving DecidableEq, Repr

/-- Vector recovery over a history of `hist` numbers (R489 check 4). -/
def recover (r : Option Recov) (seq hist resetMs now : Nat) : RecovRes × Option Recov :=
  match r with
  | none => (.pass, some { seq, hist := 1, since := now })
  | some r =>
    if r.since + resetMs * ps_ms ≤ now then (.pass, some { seq, hist := 1, since := now })
    else
      let k := signed 16 (seq + 65536 - r.seq)
      if (hist : Int) ≤ k ∨ k ≤ -(hist : Int) then (.rogue, some r)
      else if k ≤ 0 then
        let i := (-k).toNat
        if bit r.hist i then (.dup, some r) else (.pass, some { r with hist := r.hist ||| 1 <<< i, since := now })
      else (.pass, some { seq, hist := ((r.hist <<< k.toNat) + 1) % 2 ^ hist, since := now })

/-- Checks 1 to 4 of R489 in guard g: the counter of the first that fails, if any. -/
def guardChecks (d : Dev) (g n : Nat) (st : Stream) (x : Frame) : Bool × Dev :=
  let r := Reg.guard g
  if st.maxLen < x.len then (false, cnt d (r + Reg.gLenDrop))
  else
    let w := windowOf x.arrivalExt st.baseExt st.cycle st.opn st.cls st.tol
    if w = 2 then (false, cnt d (r + Reg.gWinEarly))
    else if w = 3 then (false, cnt d (r + Reg.gWinLate))
    else
      let d := if w = 1 then cnt d (r + Reg.gWinTol) else d
      let k := windowNo x.arrivalExt st.baseExt st.cycle st.opn st.cls st.tol
      let c := match tfind (guardOf d g).windows n with
        | some (j, c) => if j = k then c + 1 else 1
        | none => 1
      let d := setGuard d g fun q => { q with windows := tins q.windows n (k, c) }
      if st.budget < c then (false, cnt d (r + Reg.gBudgetDrop))
      else if !st.rtag then (true, d)
      else
        match x.parse.rtag with
        | none => (false, cnt d (r + Reg.gRogueDrop))
        | some s =>
          let (a, v) := recover (tfind (guardOf d g).recov st.rcvy) s st.hist st.resetMs d.now
          let d := setGuard d g fun q => { q with recov := match v with
            | some v => tins q.recov st.rcvy v
            | none => q.recov }
          match a with
          | .pass => (true, d)
          | .dup => (false, cnt d (r + Reg.gDupDrop))
          | .rogue => (false, cnt d (r + Reg.gRogueDrop))

/-- The decision word of an identified frame (Table 09-2). -/
def decWord (d : Dev) (g n : Nat) (st : Stream) (x : Frame) (fwd : Bool) : DecWord :=
  { egress := st.egress, tagged := st.tagged, outVid := if st.outVid = 0 then x.vid else st.outVid, bank := bankOf d g x.arrivalExt,
    forward := fwd, stream := n, seq := x.parse.rtag.getD 0, digest := frameDigest n x, due := (x.arrival + st.deadline) % two32 }

/-- Ports named in a word's valid slots. -/
def DecWord.ports (w : DecWord) : List Nat := w.egress.filterMap id

/-- What guard g makes of frame f: its word, or `none` for an unknown frame (R486 to R490). -/
def judge (d : Dev) (g : Nat) (x : Frame) : Option DecWord × Dev :=
  let cfg := guardCfg d g x.arrivalExt
  let da := be x.bytes 0 6
  let d := cnt d (Reg.guard g + Reg.gFrames)
  match cfg.streams.find? fun e => decide (e.2.inPort = x.inPort ∧ e.2.da = da ∧ e.2.vid = x.vid) with
  | some (n, st) =>
    let (ok, d) := guardChecks d g n st x
    (some (decWord d g n st x ok), d)
  | none =>
    match cfg.streams.find? fun e => decide (e.2.da = da ∧ e.2.vid = x.vid) with
    | some (n, st) =>
      let d := bb (cnt d (Reg.guard g + Reg.gMasq)) (38 + g) 0x13 (toLe 2 x.inPort ++ toBe 6 da ++ toLe 2 x.vid)
      (some { decWord d g n st x false with egress := [] }, d)
    | none => (none, cnt d (Reg.guard g + Reg.gUnknown))

/-- A guard decides: its island runs and its proof test does not. -/
def guardDecides (d : Dev) (g : Nat) : Bool := guardsStarted d && !testing d g

def decided (d : Dev) (g f : Nat) : Bool := (tfind (guardOf d g).words f).isSome || (guardOf d g).unknown.contains f

/-- Ports that guard g's word of frame f sends it to: `FORWARD` = 1 and a nonzero claim (R492). -/
def sentPorts (d : Dev) (g f : Nat) : List Nat :=
  match tfind (guardOf d g).words f with
  | some w => if w.forward && decide (claim d g ≠ 0) then w.ports else []
  | none => []

/-- One TC7 copy (R255, R492). -/
def tc7Copy (f : Nat) (x : Frame) (d : Dev) (p : Nat) : Dev :=
  if portDead d p then d
  else enqueue d { frame := f, tile := x.tile, port := p, cls := 7, cells := cellsOf x.len, part := .tc7, tenant := x.tenant }

/-- The copies for ports that are not dead; a single port that is dead is counted (R836). -/
def sendTc7 (d : Dev) (f : Nat) (x : Frame) (ports : List Nat) : Dev :=
  let d := match ports with
    | [p] => if portDead d p then tcnt d x.tile Reg.dropLinkDown else d
    | _ => d
  ports.foldl (tc7Copy f x) d

/-- Remove the guards' notes of frames that are gone. -/
def forgetWords (d : Dev) (g : Nat) : Dev :=
  setGuard d g fun k => { k with
    words := k.words.filter fun e => (frameOf d e.1).isSome
    wordAt := k.wordAt.filter fun e => (frameOf d e.1).isSome
    unknown := k.unknown.filter fun f => (frameOf d f).isSome }

/-- Both guards that can decide have decided: an unknown frame leaves TC7 for the class of its PCP and is trapped (log entry 14), one that
goes nowhere is freed (R488, R492). -/
def finishTc7 (d : Dev) (f : Nat) (x : Frame) : Dev :=
  let d := setFrame d f fun x => { x with keyed := true }
  if !(copiesOf d f).isEmpty then d
  else
    let gs := (List.range 2).filter fun g => decided d g f
    let live := gs.filter fun g => decide (claim d g ≠ 0)
    let say := if live = [] then gs else live
    if say ≠ [] ∧ say.all (fun g => (guardOf d g).unknown.contains f) then (trapOffer d { x with cls := classOf x.pcp } 3).2 else d

/-- Guard g decides frame f. Its word alone sends the copies it names, without waiting for the other guard's: R492 asks for a decision word,
and the output stage waits for both (DESIGN CHOICE for R829, log entry 56). -/
def guardDecide (g f : Nat) (d : Dev) : Dev :=
  match frameOf d f with
  | none => d
  | some x =>
    if x.cls ≠ 7 ∨ x.keyed ∨ x.dead ∨ !x.tailIn ∨ !guardDecides d g ∨ decided d g f then d
    else
      let (w, d) := judge d g x
      let d := setGuard d g fun k => match w with
        | some w => { k with words := tins k.words f w, wordAt := tins k.wordAt f d.now }
        | none => { k with unknown := k.unknown ++ [f] }
      let ps := (sentPorts d g f).filter fun p => !x.sentTo.contains p
      let d := sendTc7 (setFrame d f fun x => { x with sentTo := x.sentTo ++ ps }) f x ps
      if decided d (1 - g) f || !guardDecides d (1 - g) then
        forgetWords (forgetWords (sweepFrame (finishTc7 d f x) f) 0) 1
      else d

def execGuardDecide (guard frame : Nat) (s : State) : Host.Outcome State Fault Refusal :=
  s.runIf (Instr.guardDecide guard frame).wf (guardDecide guard frame)

/-! ## Output stages (Table 09-3) -/

/-- The word of guard g that has reached the stage of a port (R493). -/
def wordAt (d : Dev) (g f p : Nat) : Option DecWord :=
  (tfind (guardOf d g).words f).bind fun w => if w.ports.contains p then some w else none

/-- A discard counted at the stage. -/
def osDrop (d : Dev) (id : Nat) (c : Copy) (off : Nat) : Dev := discardCopy (osCnt d c.port off) id

/-- The accepted word's own checks (R496), and whether the stage sent this very frame last (R497), which it asks again at the start; the
frame then waits for that. -/
def osAccept (d : Dev) (id : Nat) (c : Copy) (x : Frame) (w v : DecWord) : Dev :=
  if !(w.ports.contains c.port && w.forward && decide (w.queue = 7)) then osDrop d id c Reg.osPortErr
  else if w.digest ≠ frameDigest w.stream x then osDrop d id c Reg.osDigestErr
  else if sentLast d c.port w.stream x then osDrop d id c Reg.osDupDrop
  else setCopy d id fun k => { k with accepted := some (w, v) }

/-- The two words differ (Table 13-6 code 0x12). -/
def osMismatch (d : Dev) (id : Nat) (c : Copy) (a b : DecWord) : Dev :=
  osDrop (bb d (tileOf c.port) 0x12 (toLe 2 c.port ++ toLe 2 a.stream ++ toLe 2 a.seq ++ toLe 2 0 ++ toLe 4 a.digest ++ toLe 4 b.digest))
    id c Reg.osMismatch

/-- Both claims are forced by a tie (R504), which `SAFE_FAULT_EVC` counts beside the forcings (Table 09-12). -/
def tieForce (d : Dev) : Dev :=
  noteForced (claim d 1) (noteForced (claim d 0) (refreshClaims (dropClaim (dropClaim (cnt d Reg.safeFaultEvc) 0 7) 1 7)))

/-- Arbitrate by Table 09-3 with the words present. -/
def arbitrate (d : Dev) (id : Nat) (c : Copy) (x : Frame) (wa wb : Option DecWord) : Dev :=
  let a := claim d 0
  let b := claim d 1
  if a = 0 ∧ b = 0 then osDrop d id c Reg.osSafestateDrop
  else if a = 0 ∨ b = 0 then
    match (if a = 0 then wb else wa) with
    | some w => osAccept d id c x w w
    | none => osDrop d id c Reg.osDecMissing
  else if a = b then tieForce (osDrop d id c Reg.osTieDrop)
  else
    match wa, wb with
    | some v, some w => if v = w then osAccept d id c x v w else osMismatch d id c v w
    | _, _ => osDrop d id c Reg.osDecMissing

/-- A TC7 frame that lies whole at its stage and has not been accepted. -/
def atStage (d : Dev) (id : Nat) : Option (Copy × Frame) :=
  match copyOf d id with
  | some c => if c.part = .tc7 ∧ c.loc = .landed ∧ c.accepted = none then (frameOf d c.frame).map fun x => (c, x) else none
  | none => none

/-- The stage has every word that its claims need, or the claims leave none to wait for. -/
def wordsIn (d : Dev) (wa wb : Option DecWord) : Bool :=
  let a := claim d 0
  let b := claim d 1
  (wa.isSome || decide (a = 0)) && (wb.isSome || decide (b = 0)) || (decide (a = b))

/-- The latest time at which guard g's word still arrives: 100 ns after the frame and the other guard's word are both at the stage
(R494). -/
def wordLimit (d : Dev) (g : Nat) (c : Copy) : Nat := max c.landedAt (tget 0 (guardOf d (1 - g)).wordAt c.frame) + 100000

/-- Guard g's word at the stage; one that came too late after the other is as good as missing (R494). -/
def wordInTime (d : Dev) (g : Nat) (c : Copy) : Option DecWord :=
  if (wordAt d (1 - g) c.frame c.port).isSome && decide (wordLimit d g c < tget 0 (guardOf d g).wordAt c.frame) then none
  else wordAt d g c.frame c.port

def outputStageAccept (id : Nat) (d : Dev) : Dev :=
  match atStage d id with
  | none => d
  | some (c, x) =>
    if wordsIn d (wordAt d 0 c.frame c.port) (wordAt d 1 c.frame c.port) then
      arbitrate d id c x (wordInTime d 0 c) (wordInTime d 1 c)
    else d

def execOutputStageAccept (copy : Nat) (s : State) : Host.Outcome State Fault Refusal :=
  s.runIf (Instr.outputStageAccept copy).wf (outputStageAccept copy)

/-- A word is missing when it is absent 100 ns after the frame and the other word are both at the stage (R494). -/
def decisionMissing (id g : Nat) (d : Dev) : Dev :=
  match atStage d id with
  | none => d
  | some (c, x) =>
    let other := wordAt d (1 - g) c.frame c.port
    if (wordAt d g c.frame c.port).isSome || other.isNone then d
    else
      let d := reach d (wordLimit d g c)
      if g = 0 then arbitrate d id c x none other else arbitrate d id c x other none

def execDecisionMissing (copy guard : Nat) (s : State) : Host.Outcome State Fault Refusal :=
  s.runIf (Instr.decisionMissing copy guard).wf (decisionMissing copy guard)

end Sys2Proof.Machine
end

