-- ==== Sys2Proof/Machine/SafeEdit.lean ====
section
/-! DEFINITION. The safety edit session and the other commands of the safety group (chapter 09, Tables 09-10 and 12-14). -/

namespace Sys2Proof.Machine

/-! ## The configuration as bytes (R548) -/

def optPort (e : Option Nat) : Nat := match e with
  | some p => p + 32768
  | none => 0

def Stream.bytes (n : Nat) (s : Stream) : List Byte :=
  toLe 2 n ++ toLe 1 1 ++ toLe 1 (b2n s.rtag) ++ toLe 2 s.inPort ++ toBe 6 s.da ++ toLe 2 s.vid ++ toLe 2 s.maxLen ++ toLe 1 s.budget
    ++ toLe 1 s.hist ++ toLe 2 s.resetMs ++ toLe 4 s.deadline ++ toLe 4 s.base ++ toLe 4 s.cycle ++ toLe 4 s.opn ++ toLe 4 s.cls
    ++ toLe 2 s.tol ++ toLe 2 s.rcvy ++ s.egress.flatMap (fun e => toLe 2 (optPort e)) ++ toLe 1 s.tagged ++ [0] ++ toLe 2 s.outVid ++ zeros 8

def Tele.enc (j : Nat) (t : Tele) : List Byte :=
  toLe 1 j ++ [1] ++ toLe 2 t.port ++ toLe 1 t.kind ++ [0] ++ toLe 2 t.len ++ padTo 256 t.bytes ++ zeros 8

/-- The digest of a safety configuration; the manual gives no byte layout (log entry 5). -/
def safeDigest (c : SafeCfg) : Nat :=
  crc64 (Config.safeLayout (c.streams.flatMap (fun e => e.2.bytes e.1) ++ toLe 512 c.vids ++ c.teles.flatMap (fun e => e.2.enc e.1)
    ++ toLe 4 c.stopCfg ++ toLe 4 c.degradeCfg))

/-! ## Elements of the payloads (Tables 12-14, 12-15) -/

def parseSlotPort (v : Nat) : Option Nat := if bit v 15 then some (v % 512) else none

/-- One stream element: its number, and the entry if `VALID`. -/
def parseStream (l : List Byte) : Nat × Option Stream :=
  (le l 0 2, if le l 2 1 = 1 then some
    { inPort := le l 4 2, da := be l 6 6, vid := le l 12 2, maxLen := le l 14 2, budget := le l 16 1, hist := le l 17 1,
      resetMs := le l 18 2, deadline := le l 20 4, base := le l 24 4, cycle := le l 28 4, opn := le l 32 4, cls := le l 36 4,
      tol := le l 40 2, rcvy := le l 42 2, rtag := bit (le l 3 1) 0,
      egress := (List.range 4).map fun i => parseSlotPort (le l (44 + 2 * i) 2), tagged := le l 52 1, outVid := le l 54 2 } else none)

/-- A stream element is well formed: flags 0 or 1, reserved bits 0. -/
def streamOk (l : List Byte) : Bool :=
  decide (le l 0 2 < 4096 ∧ le l 2 1 ≤ 1 ∧ le l 3 1 ≤ 1 ∧ le l 53 1 = 0 ∧ le l 56 8 = 0) &&
    (List.range 4).all fun i => decide (le l (44 + 2 * i) 2 / 512 % 64 = 0)

def parseTele (l : List Byte) : Nat × Option Tele :=
  let j := le l 0 1
  let port := le l 2 2
  let kind := le l 4 1
  let len := le l 6 2
  let b := padTo 256 (((l.drop 8).take 256).take len)
  (j, if le l 1 1 = 1 then some { port, kind, len, bytes := b, sealCrc := sealOf j port kind len b } else none)

def teleOk (l : List Byte) : Bool := decide (le l 0 1 < 64 ∧ le l 1 1 ≤ 1 ∧ le l 5 1 = 0 ∧ le l 264 8 = 0)

/-- Elements of n bytes. -/
def chunks (fuel n : Nat) (l : List Byte) : List (List Byte) :=
  match fuel with
  | 0 => []
  | fuel + 1 => if l = [] then [] else l.take n :: chunks fuel n (l.drop n)

/-! ## Ports as the checks see them (R399, Table 07-7) -/

def portMode (d : Dev) (p : Nat) : Nat := rd d (Reg.port p + Reg.pMode)

/-- Enabled and not absorbed. -/
def portUsable (d : Dev) (p : Nat) : Bool := decide (p < 512) && ownPath d p

/-- Receive and transmit PHY maxima in ns. -/
def phyNs (d : Dev) (p : Nat) : Nat × Nat :=
  let m := portMode d p
  let s := m % 16
  if s ≤ 1 then (110, 80)
  else if s = 2 then (if bits m 6 3 = 2 then (260, 120) else (110, 80))
  else if s = 3 then (230, 130) else if s = 4 then (190, 140) else if s = 5 then (180, 140) else (170, 138)

/-- ps that a byte takes on the wire. -/
def bytePs (d : Dev) (p : Nat) : Nat := 8000 / gbps (speedOf d p)

/-- Streams leaving a port. -/
def backlogOf (c : SafeCfg) (p : Nat) : Nat :=
  sumOf (c.streams.filter fun e => e.2.egress.contains (some p)) fun e => e.2.budget * (e.2.maxLen + 20)

/-- t_hop of R399 in ps, for stream s leaving port p. -/
def hopPs (d : Dev) (c : SafeCfg) (s : Stream) (p : Nat) : Nat :=
  let m := portMode d p
  let block := if bit m 13 ∧ ¬ bit m 14 then 147 + 64 * fld d (Reg.port p + Reg.pMm) 0 2 else bits m 16 14 + 20
  (phyNs d s.inPort).1 * 1000 + s.maxLen * bytePs d s.inPort + 305000
    + (backlogOf c p - (s.maxLen + 20) + block) * bytePs d p + 80000 + (phyNs d p).2 * 1000

/-- t_j of R539 in ps, with every valid telegram of the port active. -/
def telePs (d : Dev) (c : SafeCfg) (j : Nat) (t : Tele) : Nat :=
  let b := bytePs d t.port
  400000 + (phyNs d t.port).2 * 1000 + 276 * b
    + sumOf (c.teles.filter fun e => decide (e.1 < j ∧ e.2.port = t.port)) fun e => (e.2.len + 24) * b

/-! ## The checks (Table 09-10, R835) -/

def ports (s : Stream) : List Nat := s.egress.filterMap id

/-- First number in a list for which a test of the element fails. -/
def firstBad {α : Type} (kind : Nat) (l : Tab α) (bad : Nat → α → Bool) : Option Nat :=
  (l.find? fun e => bad e.1 e.2).map fun e => kind * 4096 + e.1

def badIdent (c : SafeCfg) (n : Nat) (s : Stream) : Bool :=
  (c.streams.any fun e => decide (e.1 < n ∧ e.2.inPort = s.inPort ∧ e.2.da = s.da ∧ e.2.vid = s.vid))
    || !bit c.vids s.vid || (decide (s.outVid ≠ 0) && !bit c.vids s.outVid)

def badRange (s : Stream) : Bool :=
  !decide (s.inPort < 512 ∧ s.vid < 4096 ∧ 64 ≤ s.maxLen ∧ s.maxLen ≤ 256 ∧ 1 ≤ s.budget ∧ s.budget ≤ 8 ∧ 500 ≤ s.deadline ∧
    s.deadline ≤ 1000000 ∧ 1000 ≤ s.cycle ∧ s.cycle ≤ 1000000000 ∧ s.opn < s.cls ∧ s.cls ≤ s.cycle ∧
    2 * s.tol < s.cycle - (s.cls - s.opn) ∧ s.rcvy < 4096 ∧ 1 ≤ s.hist ∧ s.hist ≤ 32 ∧ 1 ≤ s.resetMs ∧ s.tagged < 16 ∧ s.outVid < 4096)

def badTele (t : Tele) : Bool := !decide (t.port < 512 ∧ t.kind < 8 ∧ 64 ≤ t.len ∧ t.len ≤ 256)

def badSettings (c : SafeCfg) : Bool :=
  !decide (bits c.stopCfg 1 10 ≤ 1000 ∧ 1 ≤ bits c.stopCfg 11 10 ∧ bits c.stopCfg 11 10 ≤ 1000 ∧ 1 ≤ bits c.stopCfg 21 10 ∧
    bits c.stopCfg 21 10 ≤ 1000 ∧ c.stopCfg < 2 ^ 31 ∧ 1 ≤ c.degradeCfg % 2 ^ 18 ∧ c.degradeCfg % 2 ^ 18 ≤ 259200 ∧ c.degradeCfg < 2 ^ 26)

def badEgress (d : Dev) (s : Stream) : Bool :=
  let p := ports s
  decide (p = [] ∨ p.eraseDups.length ≠ p.length) || p.contains s.inPort || !portUsable d s.inPort || !p.all (portUsable d)

/-- Per tile, ascending: streams are added one by one; the first that a test of the tile so far rejects. -/
def firstByTile (c : SafeCfg) (bad : Nat → Tab Stream → Bool) : Option Nat :=
  ((List.range 16).findSome? fun t => (List.range c.streams.length).findSome? fun i =>
    if bad t (c.streams.take (i + 1)) then (c.streams[i]?).map (·.1) else none)

def trellisBad (t : Nat) (l : Tab Stream) : Bool :=
  let out := ((l.filter fun e => decide (tileOf e.2.inPort = t)).flatMap fun e => (ports e.2).map tileOf).eraseDups
  let inn := ((l.filter fun e => (ports e.2).any fun p => decide (tileOf p = t)).map fun e => tileOf e.2.inPort).eraseDups
  decide (8 < out.length ∨ 8 < inn.length)

def poolBad (t : Nat) (l : Tab Stream) : Bool :=
  let mine := l.filter fun e => decide (tileOf e.2.inPort = t) || (ports e.2).any fun p => decide (tileOf p = t)
  decide (2048 < sumOf mine fun e => e.2.budget * ceilDiv e.2.maxLen 256 * (1 + ceilDiv e.2.deadline e.2.cycle))

def badPaths (c : SafeCfg) (j : Nat) (t : Tele) : Bool :=
  !(c.teles.any fun e => decide (e.1 ≠ j ∧ e.2.kind = t.kind ∧ e.2.bytes.take 6 = t.bytes.take 6 ∧ e.2.port ≠ t.port))

def settingsBad (b : Bool) : Option Nat := if b then some (3 * 4096) else none

/-- The rows of Table 09-10: the `DETAIL` of the element that fails row r. -/
def safeRow (d : Dev) (c : SafeCfg) (r : Nat) : Option Nat :=
  if r = 0 then firstBad 0 c.streams (badIdent c)
  else if r = 1 then
    ((firstBad 0 c.streams fun _ s => badRange s).orElse fun _ => firstBad 1 c.teles fun _ t => badTele t).orElse
      fun _ => settingsBad (badSettings c)
  else if r = 2 then firstBad 0 c.streams fun _ s => badEgress d s
  else if r = 3 then firstByTile c trellisBad
  else if r = 4 then firstBad 0 c.streams fun _ s => (ports s).any fun p => decide (1000000 < hopPs d c s p)
  else if r = 5 then firstBad 0 c.streams fun _ s => (ports s).any fun p => decide (s.deadline * 1000 < hopPs d c s p)
  else if r = 6 then firstByTile c poolBad
  else if r = 7 then firstBad 1 c.teles fun j t => !portUsable d t.port || decide (2000000 < telePs d c j t)
  else if r = 8 then
    let a := bits c.degradeCfg 18 4
    let b := bits c.degradeCfg 22 4
    settingsBad (decide (a = 0 ∨ b = 0 ∨ a = b))
  else firstBad 1 c.teles (badPaths c)

/-- First failure: row and detail (R835). -/
def safeCheck (d : Dev) (c : SafeCfg) : Option (Nat × Nat) :=
  (List.range 10).findSome? fun r => (safeRow d c r).map fun x => (r, x)

/-! ## The session (R545 to R553, R840) -/

def setEdit (d : Dev) (e : Option Edit) : Dev :=
  let d := d.onSafe fun s => { s with edit := e }
  setSafe (setSafe d 15 e.isSome) 16 ((e.map fun e => e.armed.isSome).getD false)

/-- A safety command arrives: the session's 60 s restart, and a step one is no longer the last command (R547, R549). -/
def touch (d : Dev) : Dev :=
  match d.safe.edit with
  | none => d
  | some e => setEdit d (some { e with last := d.now, armed := none })

/-- Carry out a command of the safety group. -/
def runSafe (d : Dev) (ch op flags : Nat) (sel lenOk : Slot → Bool) (body : Dev → Slot → Res) : Dev :=
  runCmd d ch op flags sel lenOk fun d sl => body (touch d) sl

def safeIds (d : Dev) : List Byte := toLe 4 (rd d Reg.safeVintage) ++ toLe 8 (safeDigest d.safe.cfg)

def safetyEditOpen (ch : Nat) (d : Dev) : Dev :=
  runSafe d ch 0x601 0 anySlot noPayload fun d _ =>
    if d.safe.edit.isSome then fail d eBusy
    else { dev := setEdit d (some { cfg := d.safe.cfg, last := d.now }), payload := safeIds d }

def execSafetyEditOpen (ch : Nat) (s : State) : Host.Outcome State Fault Refusal :=
  s.runIf (Instr.safetyEditOpen ch).wf (safetyEditOpen ch)

/-- Change the staged copy. -/
def stageSafe (d : Dev) (f : SafeCfg → SafeCfg) : Res :=
  match d.safe.edit with
  | none => fail d eState
  | some e => { dev := setEdit d (some { e with cfg := f e.cfg }) }

def setOrDrop {α : Type} (t : Tab α) (e : Nat × Option α) : Tab α :=
  match e.2 with
  | some v => tins t e.1 v
  | none => tdel t e.1

/-- The lengths that the three forms of `SAFETY_STREAM_SET` have. -/
def streamSetLen (sl : Slot) : Bool := headedLen 4 64 255 sl || decide (sl.len = 516 ∨ sl.len = 12)

def safetyStreamSet (ch : Nat) (d : Dev) : Dev :=
  runSafe d ch 0x602 0 anySlot streamSetLen fun d sl =>
    let l := sl.payload
    let n := le l 2 2
    let es := chunks n 64 (l.drop 4)
    if d.safe.edit.isNone then fail d eState
    else if le l 1 1 ≠ 0 then fail d eArg
    else if le l 0 1 = 0 then
      if n = 0 ∨ 255 < n ∨ sl.len ≠ 4 + 64 * n then fail d eArg
      else
        match findIdx (fun e => !streamOk e) es with
        | some i => fail d eArg i
        | none => stageSafe d fun c => { c with streams := (es.map parseStream).foldl setOrDrop c.streams }
    else if le l 0 1 = 1 then
      if n ≠ 0 ∨ sl.len ≠ 516 then fail d eArg else stageSafe d fun c => { c with vids := le l 4 512 }
    else if le l 0 1 = 2 then
      if n ≠ 0 ∨ sl.len ≠ 12 then fail d eArg else stageSafe d fun c => { c with stopCfg := le l 4 4, degradeCfg := le l 8 4 }
    else fail d eArg

def execSafetyStreamSet (ch : Nat) (s : State) : Host.Outcome State Fault Refusal :=
  s.runIf (Instr.safetyStreamSet ch).wf (safetyStreamSet ch)

def telegramLoad (ch : Nat) (d : Dev) : Dev :=
  runSafe d ch 0x603 0 anySlot (headedLen 4 272 60) fun d sl =>
    let l := sl.payload
    let n := le l 0 1
    let es := chunks n 272 (l.drop 4)
    if d.safe.edit.isNone then fail d eState
    else if n = 0 ∨ 60 < n ∨ sl.len ≠ 4 + 272 * n ∨ le l 1 3 ≠ 0 then fail d eArg
    else
      match findIdx (fun e => !teleOk e) es with
      | some i => fail d eArg i
      | none => stageSafe d fun c => { c with teles := (es.map parseTele).foldl setOrDrop c.teles }

def execTelegramLoad (ch : Nat) (s : State) : Host.Outcome State Fault Refusal :=
  s.runIf (Instr.telegramLoad ch).wf (telegramLoad ch)

/-- Step one (R548). -/
def stepOne (d : Dev) : Res :=
  match d.safe.edit with
  | none => fail d eState
  | some e =>
    match safeCheck d e.cfg with
    | some (r, x) => fail d eArg x r
    | none =>
      let g := safeDigest e.cfg
      { dev := setEdit d (some { e with armed := some (g, d.now) }), payload := toLe 8 g }

def safetyCommit (ch : Nat) (d : Dev) : Dev :=
  runSafe d ch 0x604 3 (fun sl => decide (sl.flags % 4 = 0)) noPayload fun d _ => stepOne d

def execSafetyCommit (ch : Nat) (s : State) : Host.Outcome State Fault Refusal :=
  s.runIf (Instr.safetyCommit ch).wf (safetyCommit ch)

/-- Both guards' inactive banks, the hardwired path's, and the maps of the tiles and output stages are loaded (R550). -/
def loadAll (d : Dev) (c : SafeCfg) : Dev :=
  let past := !(d.safe.loaded && (d.safe.tsw.any fun t => decide (extTime d < t)))
  let load := fun (k : Guard) => { k with banks := k.banks.load past c }
  let d := setGuard (setGuard d 0 load) 1 load
  putMaps (d.onSafe fun s => { s with hk := s.hk.load past c }) past c.vids

/-- The logical state of channel B is judged anew after a change of `MODE`, at the electrical level recognised before (R526). -/
def rejudgeB (d : Dev) (level : Bool) : Dev := recognise d true (levelStop d true level)

/-- The record of `SAFE_DIGEST` in the canonical configuration: there once it differs from what it was when Ralku started (R696, R762). -/
def digestRecord (d : Dev) : Dev :=
  let g := safeDigest d.safe.cfg
  if g = d.safe.startDigest then delCfg d 46 0 (toLe 8 g) else putCfg d 46 0 (toLe 8 g)

/-- Step two carried out (R550 to R552): image, banks, T_sw, vintage and digest. T_sw is open beyond its 100 µs. -/
def stepTwo (d : Dev) (e : Edit) : Res :=
  let (r, d) := fresh d
  let t := extTime d + 100000 + r % 99900000
  let c := fixBases e.cfg (extTime d)
  let level := bit (stopCfg d) 0 == stopSeen d true
  let d := (loadAll d c).onSafe fun s => { s with cfg := c, tsw := some t, loaded := true }
  let d := if guardsStarted d then wr (wr d Reg.safeStopCfg e.cfg.stopCfg) Reg.safeDegradeCfg e.cfg.degradeCfg else d
  let d := if guardsStarted d || d.safe.armedHk then rejudgeB d level else d
  let d := digestRecord (setEdit (cnt d Reg.safeVintage) none)
  let d := bb d 41 0x18 (safeIds d)
  { dev := d, payload := safeIds d ++ toLe 4 t, vint := true }

/-- Step two (R549 to R553, R840). -/
def confirm (d : Dev) (sl : Slot) (mramOk : Bool) : Res :=
  let t := touch d
  if bit sl.flags 1 then fail d eArg
  else
    match d.safe.edit with
    | none => fail t eState
    | some e =>
      match e.armed with
      | none => fail t eState
      | some (g, at1) =>
        if at1 + 10 * ps_s < d.now then fail t eState
        else if safeFlag d 10 || safeFlag d 21 then fail (setEdit t (some { e with last := d.now })) eLocked
        else if le sl.payload 0 8 ≠ g ∨ !mramOk then fail t eIntegrity
        else stepTwo t e

def safetyCommitConfirm (ch : Nat) (mramOk : Bool) (d : Dev) : Dev :=
  runCmd d ch 0x604 3 (slotFlag 0) (fun sl => slotFlag 1 sl || decide (sl.len = 8)) fun d sl => confirm d sl mramOk

def execSafetyCommitConfirm (ch : Nat) (mramOk : Bool) (s : State) : Host.Outcome State Fault Refusal :=
  s.runIf (Instr.safetyCommitConfirm ch mramOk).wf (safetyCommitConfirm ch mramOk)

/-- Abandon the session (R547). -/
def safetyCommitAbandon (ch : Nat) (d : Dev) : Dev :=
  runSafe d ch 0x604 3 (fun sl => decide (sl.flags % 4 = 2)) noPayload fun d _ =>
    if d.safe.edit.isNone then fail d eState else { dev := setEdit d none }

def execSafetyCommitAbandon (ch : Nat) (s : State) : Host.Outcome State Fault Refusal :=
  s.runIf (Instr.safetyCommitAbandon ch).wf (safetyCommitAbandon ch)

def safetyEditTimeout (d : Dev) : Dev :=
  match d.safe.edit with
  | none => d
  | some e => setEdit (reach d (e.last + 60 * ps_s)) none

def execSafetyEditTimeout (s : State) : Host.Outcome State Fault Refusal := s.runIf Instr.safetyEditTimeout.wf safetyEditTimeout

/-- Both guards switch banks at T_sw (R551), and the telegrams with them. -/
def safetyBankSwitch (d : Dev) : Dev :=
  match d.safe.tsw with
  | none => d
  | some t =>
    if d.safe.loaded then renewTeles ((reachExt d t).onSafe fun s => { s with loaded := false }) else d

def execSafetyBankSwitch (s : State) : Host.Outcome State Fault Refusal := s.runIf Instr.safetyBankSwitch.wf safetyBankSwitch

/-! ## CLAIM_SET, STOP_ACK -/

def claimRsp (d : Dev) : List Byte := toLe 1 (claim d 0) ++ toLe 1 (claim d 1) ++ toLe 1 (proofCount d) ++ [0]

def proofBit (sl : Slot) : Bool := bit (le sl.payload 2 1) 0

/-- Fields of the payload in range. -/
def claimArgs (sl : Slot) : Bool :=
  let l := sl.payload
  decide (le l 0 1 < 2 ∧ le l 1 1 < 16 ∧ le l 2 1 < 2 ∧ le l 3 1 = 0)

def claimSetTo (d : Dev) (g v : Nat) : Res :=
  let r := Reg.guardSts g
  let done := fun (d : Dev) => ({ dev := d, payload := claimRsp d } : Res)
  if v = 0 then done (setClaim (setFlag d r 9 true) g 0)
  else if v = claim d (1 - g) ∨ v = defClaim d (1 - g) then fail d eArg
  else if !guardsStarted d || (decide (fld d r 0 9 ≠ 0) && !flag d r 11) || (guardOf d g).hot then fail d eState
  else if testing d g then fail d eBusy
  else done (setClaim (setFlag (setFld d r 0 9 0) r 9 false) g v)

def claimSet (ch : Nat) (d : Dev) : Dev :=
  runSafe d ch 0x605 0 (fun sl => !proofBit sl) (lenIs 4) fun d sl =>
    if claimArgs sl then claimSetTo d (le sl.payload 0 1) (le sl.payload 1 1) else fail d eArg

def execClaimSet (ch : Nat) (s : State) : Host.Outcome State Fault Refusal := s.runIf (Instr.claimSet ch).wf (claimSet ch)

/-- With `PROOF` the command runs a proof test and completes after it (R513, R515). -/
def claimSetProof (ch : Nat) (pass : Bool) (d : Dev) : Dev :=
  runSafe d ch 0x605 0 proofBit (lenIs 4) fun d sl =>
    let g := le sl.payload 0 1
    if ¬ (g < 2 ∧ le sl.payload 2 1 < 2 ∧ le sl.payload 3 1 = 0) then fail d eArg
    else if testing d 0 || testing d 1 then fail d eBusy
    else if 3 ≤ proofCount d then fail d eLocked
    else
      let d := proofEnd (proofBegin d g) g pass
      if pass then { dev := d, payload := claimRsp d } else fail d eIntegrity

def execClaimSetProof (ch : Nat) (pass : Bool) (s : State) : Host.Outcome State Fault Refusal :=
  s.runIf (Instr.claimSetProof ch pass).wf (claimSetProof ch pass)

def stopAck (ch : Nat) (d : Dev) : Dev :=
  runSafe d ch 0x606 0 anySlot noPayload fun d _ =>
    match acknowledge d with
    | (true, d) => { dev := d }
    | (false, d) => fail d eState

def execStopAck (ch : Nat) (s : State) : Host.Outcome State Fault Refusal := s.runIf (Instr.stopAck ch).wf (stopAck ch)

/-! ## Ports in use by the safety plane (R554) -/

def cfgUses (c : SafeCfg) (p : Nat) : Bool :=
  (c.streams.any fun e => decide (e.2.inPort = p) || (ports e.2).contains p) || c.teles.any fun e => decide (e.2.port = p)

/-- Until T_sw either bank counts. -/
def safeUses (d : Dev) (p : Nat) : Bool := cfgUses d.safe.cfg p || (d.safe.loaded && cfgUses (guardOf d 0).banks.old p)

end Sys2Proof.Machine
end

