-- ==== Sys2Proof/Machine/Ports.lean ====
section
/-! DEFINITION. Port configuration, lane training and the module management buses (chapter 02, Table 12-9). -/

namespace Sys2Proof.Machine

/-! ## Port modes (Table 02-1) -/

/-- A row of Table 02-1: `SPEED` and `LANES` codes, lanes, baud-rate family, allowed `FEC` codes. -/
structure ModeRow where
  speed : Nat
  lanesCode : Nat
  lanes : Nat
  fam : Nat
  fecs : List Nat

/-- Modes A to N. -/
def modeRows : List ModeRow :=
  [⟨1, 0, 1, 0, [0, 1]⟩, ⟨2, 0, 1, 1, [0, 1, 2]⟩, ⟨3, 0, 1, 2, [3]⟩, ⟨4, 2, 4, 1, [2]⟩, ⟨4, 1, 2, 2, [3]⟩, ⟨4, 0, 1, 2, [3]⟩,
    ⟨5, 2, 4, 2, [3]⟩, ⟨5, 1, 2, 2, [3]⟩, ⟨5, 0, 1, 2, [3]⟩, ⟨6, 3, 8, 2, [3]⟩, ⟨6, 2, 4, 2, [3]⟩, ⟨6, 1, 2, 2, [3]⟩,
    ⟨7, 3, 8, 2, [3]⟩, ⟨7, 2, 4, 2, [3]⟩]

/-- Row of mode 1 to 14. -/
def modeRow (m : Nat) : Option ModeRow := if m = 0 then none else modeRows[m - 1]?

/-- Mode J of Table 02-1 by its number. -/
def modeJ : Nat := 10

/-- The row that a port's `SPEED` and `LANES` name. -/
def portRow (d : Dev) (p : Nat) : Option ModeRow :=
  modeRows.find? fun r => decide (r.speed = fld d (Reg.port p + Reg.pMode) 0 4 ∧ r.lanesCode = fld d (Reg.port p + Reg.pMode) 4 2)

/-- MACs above m whose lanes a port of n lanes at m takes (R44, R47). -/
def covered (m n : Nat) : List Nat := (List.range (n / 2 - 1)).map (m + 1 + ·)

def absorbed (d : Dev) (p : Nat) : Bool := flag d (Reg.port p + Reg.pMode) 11 || flag d (Reg.port p + Reg.pMode) 12

/-! ## PORT_SET -/

def pByte (l : List Byte) (i : Nat) : Nat := le l i 1

/-- Logical positions of the lanes (payload [10–12]). -/
def lanePos (l : List Byte) (n : Nat) : List Nat := (List.range n).map fun i => bits (le l 10 3) (3 * i) 3

/-- Fields in range, whatever the mode (R820). -/
def portFieldsOk (l : List Byte) : Bool :=
  decide (pByte l 2 ≤ 14 ∧ pByte l 4 < 64 ∧ pByte l 5 ≤ 3 ∧ 1 ≤ pByte l 6 ∧ pByte l 6 ≤ 128 ∧ pByte l 7 = 0 ∧ 1518 ≤ le l 8 2 ∧
    le l 8 2 ≤ 10240 ∧ pByte l 15 = 0)

/-- The mode is allowed on MAC m with these fields (R46, R54, R57). -/
def modeOk (m : Nat) (l : List Byte) (r : ModeRow) : Bool :=
  let pos := lanePos l r.lanes
  r.fecs.contains (pByte l 3) && decide (m % max 1 (r.lanes / 2) = 0) && !(decide (pByte l 2 = modeJ) && bit (pByte l 4) 0)
    && pos.all (fun x => decide (x < r.lanes)) && decide (pos.eraseDups.length = pos.length)

/-- The `PORT_MODE` word of a payload. -/
def portModeWord (l : List Byte) : Nat :=
  let f := pByte l 4
  let (sp, ln, fec) := match modeRow (pByte l 2) with
    | some r => (r.speed, r.lanesCode, pByte l 3)
    | none => (0, 0, 0)
  sp + 16 * ln + 64 * fec + 512 * (f % 4) + 8192 * (f / 4 % 8) + 65536 * le l 8 2

/-- The parts of a port's mode that R554 protects: speed, MAC merge, `TC6_EXPRESS`, `MAX_LEN`, `ADD_FRAG_SIZE`. -/
def lockedPart (mode mm : Nat) : List Nat := [mode % 16, bits mode 13 2, bits mode 16 14, mm % 4]

def pmmWord (l : List Byte) : Nat := pByte l 5 + 4 * bits (pByte l 4) 5 1 + 8 * (pByte l 6 - 1)

/-! ### Ports 0 to 7 in lifeline mode

They keep the mode of R60 until full service (R60, R764); what `PORT_SET` configures for them stands in the committed
configuration until then. -/

def lifelinePort (d : Dev) (p : Nat) : Bool := decide (p < 8 ∧ d.boot.phase = .lifeline)

/-- The committed settings of a MAC as a payload of 16 bytes. -/
def portPayload (d : Dev) (p : Nat) : List Byte := toLe 2 p ++ cfgOf d 32 p

/-- The row of Table 02-1 that a MAC is configured for. -/
def rowSet (d : Dev) (p : Nat) : Option ModeRow := if lifelinePort d p then modeRow (pByte (portPayload d p) 2) else portRow d p

/-- The MAC is configured as absorbed by a port of its group. -/
def absorbedSet (d : Dev) (p : Nat) : Bool :=
  if lifelinePort d p then
    (List.range 4).any fun i => ((rowSet d (4 * (p / 4) + i)).map fun r => (covered (4 * (p / 4) + i) r.lanes).contains p).getD false
  else absorbed d p

/-- The MAC is configured as an enabled port of its own. -/
def ownSet (d : Dev) (p : Nat) : Bool := if lifelinePort d p then (rowSet d p).isSome && !absorbedSet d p else ownPath d p

/-- The port that lane L is configured for, if one is (R44, R48). -/
def lanePort (d : Dev) (lane : Nat) : Option Nat :=
  (List.range 4).map (fun i => 4 * (lane / 8) + i) |>.find? fun m =>
    ownSet d m && match rowSet d m with
      | some r => decide (2 * m ≤ lane ∧ lane < 2 * m + r.lanes)
      | none => false

/-- The port that uses lane L now: in lifeline mode ports 0 to 7 on lanes 0, 2, …, 14 (R60); every other lane is its configured port's,
in lifeline mode too (Table 14-4). -/
def laneUser (d : Dev) (lane : Nat) : Option Nat :=
  if !alive d then none
  else if d.boot.phase = .lifeline ∧ lane < 16 then (if d.boot.lifeline && decide (lane % 2 = 0) then some (lane / 2) else none)
  else lanePort d lane

/-- A lane has power and its transmitter is not squelched: a port uses it (R48, R820). -/
def laneOn (d : Dev) (lane : Nat) : Bool := (laneUser d lane).isSome

/-- The mode and MAC merge words that a MAC is configured for. -/
def modeSet (d : Dev) (p : Nat) : Nat × Nat :=
  if lifelinePort d p then (portModeWord (portPayload d p), pmmWord (portPayload d p))
  else (portMode d p, rd d (Reg.port p + Reg.pMm))

/-- Families that the group of MAC m uses with mode r on m, where `on` says which MACs are ports and `row` in which modes (R49). -/
def familiesWith (on : Nat → Bool) (row : Nat → Option ModeRow) (m : Nat) (r : ModeRow) : Nat :=
  let others := (List.range 4).map (fun i => 4 * (m / 4) + i) |>.filter fun q => decide (q ≠ m) && on q
  ((r.fam :: others.filterMap fun q => (row q).map (·.fam)).eraseDups).length

/-- Families that the group of MAC m would use as configured. -/
def familiesAfter (d : Dev) (m : Nat) (r : ModeRow) : Nat := familiesWith (ownSet d) (rowSet d) m r

/-- Modes that MAC m advertises in auto-negotiation: those that R46 and R49 permit for it at that moment, beside the modes that its
group's ports run then (in lifeline mode R60's), but not mode J (R56). A mode whose lanes would absorb a running port is not
permitted. -/
def advertised (d : Dev) (m : Nat) : List Nat :=
  if !flag d (Reg.port m + Reg.pMode) 9 || !ownPath d m then []
  else (List.range' 1 14).filter fun n => decide (n ≠ modeJ) && (modeRow n).any fun r =>
    decide (m % max 1 (r.lanes / 2) = 0 ∧ familiesWith (ownPath d) (portRow d) m r ≤ 2) && ((covered m r.lanes).filter (ownPath d)).isEmpty

/-- Write the group-address filter. -/
def setGaf (d : Dev) (p : Nat) (f : List Byte) : Dev :=
  (List.range 128).foldl (fun d i => wr d (Reg.port p + Reg.pGaf i) (le f (4 * i) 4)) d

/-- Set and clear the marks of MACs whose lanes a port takes (R47, R52). -/
def markCovered (d : Dev) (p : Nat) (r : Option ModeRow) (on : Bool) : Dev :=
  match r with
  | none => d
  | some r => (covered p r.lanes).foldl (fun d q =>
      let a := Reg.port q + Reg.pMode
      setFlag (setFlag d a 12 on) a 11 (on && decide (r.speed = 7 ∧ q = p + 1))) d

/-- The committed records of a port (Table 12-6, types 32 and 33). -/
def portRecord (d : Dev) (p : Nat) (l : List Byte) : Dev :=
  let b := (l.take 16).drop 2
  let b := if pByte l 2 = 0 then overlay b 1 [0] else b
  let d := putCfg d 32 p b
  if 16 < l.length then putCfg d 33 p (l.drop 16) else d

/-- No lane of a port is trained any more. -/
def untrained (d : Dev) (p : Nat) : Dev := setPort d p fun s => { s with lanesTrained := 0, trainDone := false }

/-- Set a MAC's mode registers; a change of `falls`'s kind takes its link and its locks down. -/
def setPortRegs (d : Dev) (p : Nat) (l : List Byte) (falls : Bool) : Dev :=
  let d := if falls then stopPort d p else d
  let d := wr (wr (wr (wr d (Reg.port p + Reg.pMode) (portModeWord l)) (Reg.port p + Reg.pLaneMap) (le l 10 3)) (Reg.port p + Reg.pMm)
    (pmmWord l)) (Reg.port p + Reg.pLanePol) (pByte l 13 + 256 * pByte l 14)
  if falls then untrained d p else d

/-- MAC merge follows the new settings (R73, R75, R820, R821): it stops, as it does on a disabled port; it is active without
verification; or, where it had not been enabled with verification before, it is not active until a verification succeeds, which begins
at once on a link that is up. -/
def mmFollow (d : Dev) (p : Nat) (was : Bool) : Dev :=
  if !mmEn d p || !ownPath d p then mmStop d p
  else if !verifyEn d p then mmPlain d p
  else if was then d
  else if flag d (psts p) 0 then mmVerify d p
  else mmStop d p

/-- Carry out a checked `PORT_SET` of a MAC. -/
def applyPort (d : Dev) (p : Nat) (l : List Byte) : Dev :=
  let d := if 16 < l.length then setGaf d p (l.drop 16) else d
  if lifelinePort d p then portRecord d p l
  else
    let old := portMode d p
    let was := ownPath d p && mmEn d p && verifyEn d p
    let d := markCovered d p (portRow d p) false
    let d := setPortRegs d p l (decide (old % 512 ≠ portModeWord l % 512))
    portRecord (mmFollow (markCovered d p (modeRow (pByte l 2)) true) p was) p l

/-- Fields of a management port's `PORT_SET` (R63). With mode 0 the FEC byte may be anything, as for a MAC (R820), though R63 names only
FEC 0 and 1 (DESIGN CHOICE, log entry 91). -/
def mgmtFieldsOk (l : List Byte) : Bool :=
  decide (pByte l 2 ≤ 1 ∧ pByte l 3 ≤ (if pByte l 2 = 0 then 255 else 1) ∧ pByte l 4 ≤ 1 ∧ pByte l 5 = 0 ∧ le l 6 2 = 0 ∧ 1518 ≤ le l 8 2 ∧
    le l 8 2 ≤ 10240 ∧ le l 10 3 = 0 ∧ pByte l 13 ≤ 1 ∧ pByte l 14 ≤ 1 ∧ pByte l 15 = 0) && (l.drop 16).all (· = 0)

/-- A management port (R63); a change of speed or FEC takes an up link down. -/
def applyMgmt (d : Dev) (p : Nat) (l : List Byte) : Dev :=
  let a := Reg.mgmt (p - 512)
  let d := if rd d a % 512 ≠ portModeWord l % 512 then untrained (mgmtFall d p) p else d
  portRecord (wr (wr d a (portModeWord l)) (a + 8) (pByte l 13 + 256 * pByte l 14)) p (l.take 16)

def portSetRes (d : Dev) (sl : Slot) : Res :=
  let l := sl.payload
  let p := le l 0 2
  if 513 < p then fail d eArg
  else if 512 ≤ p then
    if mgmtFieldsOk l then { dev := applyMgmt d p l, vint := true } else fail d eArg
  else
    let r := modeRow (pByte l 2)
    if !portFieldsOk l || absorbedSet d p || !((r.map (modeOk p l)).getD true) then fail d eArg
    else
      match (r.map fun r => (covered p r.lanes).filter (ownSet d)).getD [] with
      | q :: _ => fail d eArg q
      | [] =>
        if 2 < (r.map (familiesAfter d p)).getD 0 then fail d eArg
        else if safeUses d p && decide (lockedPart (modeSet d p).1 (modeSet d p).2 ≠ lockedPart (portModeWord l) (pmmWord l)) then
          fail d eLocked
        else { dev := applyPort d p l, vint := true }

def portSet (ch : Nat) (d : Dev) : Dev :=
  runCmd d ch 0x101 1 (fun sl => !slotFlag 0 sl) (fun sl => decide (sl.len = 16 ∨ sl.len = 528)) portSetRes

def execPortSet (ch : Nat) (s : State) : Host.Outcome State Fault Refusal := s.runIf (Instr.portSet ch).wf (portSet ch)

/-! ## LANE_TRAIN -/

/-- Attempts that a lane used, and those of them that were abandoned. -/
def triesUsed (k : Nat) : Nat := if k = 0 then 3 else k
def triesLost (k : Nat) : Nat := if k = 0 then 3 else k - 1

/-- Address of a port's `TRAIN_ABANDON`. -/
def abandonAt (p : Nat) : Nat := if 512 ≤ p then Reg.mgmt (p - 512) + 0x30 else Reg.port p + Reg.trainAbandon

/-- Count abandoned attempts; a port's counter has its HALF (R96). -/
def abandon (d : Dev) (p n : Nat) : Dev := if 512 ≤ p then cntAdd d (abandonAt p) n else pcntAdd d p Reg.trainAbandon n

/-- Mode J has no link training (R57). -/
def noTraining (d : Dev) (p : Nat) : Bool :=
  decide (p < 512 ∧ fld d (Reg.port p + Reg.pMode) 0 4 = 6 ∧ fld d (Reg.port p + Reg.pMode) 4 2 = 3)

/-- Lanes of a port. -/
def laneCount (d : Dev) (p : Nat) : Nat := if 512 ≤ p then 1 else ((portRow d p).map (·.lanes)).getD 0

/-- Attempts of each of a port's lanes. -/
def laneTries (d : Dev) (p : Nat) (tries : List Nat) : List Nat := (List.range (laneCount d p)).map fun i => tries.getD i 0

/-- Train the lanes of an enabled port: its link falls, abandoned attempts count, and the training has finished (R58, R59). -/
def trainPort (d : Dev) (p : Nat) (ks : List Nat) : Dev :=
  let d := if 512 ≤ p then mgmtFall d p else if flag d (psts p) 0 then fallLink d p else d
  let d := abandon d p (sumOf ks triesLost)
  setPort d p fun s => { s with lanesTrained := (ks.filter (· ≠ 0)).length, trainDone := true }

def trainRes (tries : List Nat) (d : Dev) (sl : Slot) : Res :=
  let p := le sl.payload 0 2
  if 513 < p ∨ le sl.payload 2 2 ≠ 0 then fail d eArg
  else
    let on := if 512 ≤ p then mgmtOn d p else ownPath d p
    if !on then fail d eState
    else if noTraining d p then fail d eUnsup
    else
      let ks := laneTries d p tries
      let ok := (ks.filter (· ≠ 0)).length
      let d := trainPort d p ks
      if ok < laneCount d p then fail d eTimeout else { dev := d, payload := toLe 1 ok ++ toLe 1 (ks.foldl (fun a k => max a (triesUsed k)) 0) ++ toLe 2 0 }

def laneTrain (ch : Nat) (tries : List Nat) (d : Dev) : Dev := runCmd d ch 0x102 0 anySlot (lenIs 4) (trainRes tries)

def execLaneTrain (ch : Nat) (tries : List Nat) (s : State) : Host.Outcome State Fault Refusal :=
  s.runIf (Instr.laneTrain ch tries).wf (laneTrain ch tries)

/-- An attempt outside a `LANE_TRAIN` command is abandoned and counted (R58). -/
def trainingAttemptAbandon (p : Nat) (d : Dev) : Dev :=
  if (if 512 ≤ p then mgmtOn d p else ownPath d p && !noTraining d p) then abandon d p 1 else d

def execTrainingAttemptAbandon (port : Nat) (s : State) : Host.Outcome State Fault Refusal :=
  s.runIf (Instr.trainingAttemptAbandon port).wf (trainingAttemptAbandon port)

/-! ## Module management buses (R98 to R105) -/

def busOf (d : Dev) (b : Nat) : ModBus := tget {} d.modBus b
def setBus (d : Dev) (b : Nat) (x : ModBus) : Dev := { d with modBus := tput {} d.modBus b x }

/-- Time that a bus clear takes: 9 pulses on `MOD_SCL` at the bus's rate, 90 µs at 100 kHz (Table 02-9) and 22.5 µs at 400 kHz (R99, log
entry 99). -/
def clearTime (b : Nat) : Nat := if Config.busFast b then 22500000 else 90 * ps_us

/-- The bus is marked failed; firmware is told (R102, R103, Table 12-7 kind 7, Table 14-7 code 8). -/
def failBus (d : Dev) (b : Nat) : Dev := note (healthEvent (setBus d b { busOf d b with failed := true, stuck := false }) 8 (toLe 1 b)) 7 (toLe 1 b)

def modBusStuck (b : Nat) (d : Dev) : Dev :=
  let x := busOf d b
  if !alive d || x.failed || x.stuck then d
  else
    let d := reach d (d.now + 100 * ps_us)
    setBus d b { stuck := true, nextAt := d.now }

def execModBusStuck (bus : Nat) (s : State) : Host.Outcome State Fault Refusal := s.runIf (Instr.modBusStuck bus).wf (modBusStuck bus)

/-- A bus clear: 9 pulses on `MOD_SCL`, which take `clearTime`, and a stop condition. The next begins 1 ms later; after the third without
release the bus is failed (R101, R102). -/
def modBusClear (b : Nat) (released : Bool) (d : Dev) : Dev :=
  let x := busOf d b
  if !x.stuck then d
  else
    let d := reach d (x.nextAt + clearTime b)
    let x := { x with clears := x.clears + 1, pulses := x.pulses + 9, stops := x.stops + 1 }
    if released then setBus d b { pulses := x.pulses, stops := x.stops }
    else if 3 ≤ x.clears then failBus (setBus d b x) b
    else setBus d b { x with nextAt := d.now + ps_ms }

def execModBusClear (bus : Nat) (released : Bool) (s : State) : Host.Outcome State Fault Refusal :=
  s.runIf (Instr.modBusClear bus released).wf (modBusClear bus released)

def modBusStretchLimit (b : Nat) (d : Dev) : Dev := if !alive d || (busOf d b).failed then d else failBus d b

def execModBusStretchLimit (bus : Nat) (s : State) : Host.Outcome State Fault Refusal :=
  s.runIf (Instr.modBusStretchLimit bus).wf (modBusStretchLimit bus)

/-- `PORT_SET` with `BUS_RECOVER` (R104). -/
def recoverRes (d : Dev) (sl : Slot) : Res :=
  let b := le sl.payload 0 1
  if 16 ≤ b ∨ le sl.payload 1 3 ≠ 0 then fail d eArg
  else { dev := if (busOf d b).failed then setBus d b {} else d }

def busRecover (ch : Nat) (d : Dev) : Dev := runCmd d ch 0x101 1 (slotFlag 0) (lenIs 4) recoverRes

def execBusRecover (ch : Nat) (s : State) : Host.Outcome State Fault Refusal := s.runIf (Instr.busRecover ch).wf (busRecover ch)

end Sys2Proof.Machine
end

