-- ==== Sys2Proof/Machine/Time.lean ====
section
/-! DEFINITION. Steering of the time-stamping unit, pulse per second, frequency references and the wall calendar (chapter
08). -/

namespace Sys2Proof.Machine

/-- A quotient that the manual leaves open to rounding: the whole number below or above it (log entry 3). -/
def roundFree (d : Dev) (num den : Int) : Int × Dev :=
  let q := num / den
  if q * den = num then (q, d) else let (r, d) := fresh d; (q + (r % 2 : Nat), d)

/-! ## The counter's adjustments (R415 to R421) -/

/-- The nominal increment in units of 2^−32 ns (Table 08-1). -/
def nominal : Nat := two32 + 0x47AE147B

def slewing (d : Dev) : Bool := flag d Reg.tsuSts 1
def stepArmed (d : Dev) : Bool := flag d Reg.tsuSts 0

/-- The increment runs from the next tick (R416). -/
def setInc (d : Dev) (inc : Nat) : Dev := d.onTime fun t => { t with incNs := inc / two32, incFrac := inc % two32 }

def loadInc (d : Dev) : Dev :=
  cnt (setInc d (fld d Reg.tsuCtl 0 4 * two32 + rd d Reg.tsuIncFrac)) Reg.tsuAdjEvc

/-- A slew ends or is stopped; the phase gained stays (R417, Table 08-3). -/
def endSlew (d : Dev) : Dev :=
  if slewing d then cnt (setFlag (wr (d.onTime fun t => { t with slewFrac := 0 }) Reg.tsuSlewLeft 0) Reg.tsuSts 1 false) Reg.tsuAdjEvc else d

/-- A slew of `ticks` ticks begins, ending one in progress. -/
def beginSlew (d : Dev) (frac : Int) (ticks : Nat) : Dev :=
  setFlag (wr ((endSlew d).onTime fun t => { t with slewFrac := frac }) Reg.tsuSlewLeft ticks) Reg.tsuSts 1 true

def startSlew (d : Dev) : Dev := beginSlew d (signed 32 (rd d Reg.tsuSlewFrac)) (rd d Reg.tsuSlewTicks)

/-- First time at or after extended time `e` at which `TSU_NS` is `ns`. -/
def nextAtNs (e ns : Nat) : Nat := e + sub32 ns (e % two32)

/-- `TSU_NS` is at or beyond a 32-bit time: half a wrap behind at most (log entry 101). -/
def atOrBeyond (d : Dev) (ns : Nat) : Bool := decide (sub32 (extTime d % two32) ns < 2 ^ 31)

/-- A step is armed for the first tick after which `TSU_NS` is at or beyond `TSU_STEP_AT`, the next one where it is already (R418). -/
def armStep (d : Dev) : Dev :=
  let at_ := rd d Reg.tsuStepAt
  (setFlag d Reg.tsuSts 0 true).onTime fun t =>
    { t with stepExt := if atOrBeyond d at_ then extTime d else nextAtNs (extTime d) at_ }

/-- Whole ns that the slew in progress has not yet added. -/
def notSlewed (d : Dev) : Int × Dev :=
  if slewing d then roundFree d (d.time.slewFrac * (rd d Reg.tsuSlewLeft : Int)) (two32 : Nat) else (0, d)

/-! ### TSU_CMD, written by firmware (R477) -/

def onFw (d : Dev) (f : Dev → Dev) : Dev := if d.boot.fwRunning then f d else d

def fwLoadInc (d : Dev) : Dev := onFw d loadInc
def execTsuLoadInc (s : State) : Host.Outcome State Fault Refusal := s.runIf Instr.tsuLoadInc.wf fwLoadInc
def fwArmStep (d : Dev) : Dev := onFw d armStep
def execTsuArmStep (s : State) : Host.Outcome State Fault Refusal := s.runIf Instr.tsuArmStep.wf fwArmStep
def fwStartSlew (d : Dev) : Dev := onFw d startSlew
def execTsuStartSlew (s : State) : Host.Outcome State Fault Refusal := s.runIf Instr.tsuStartSlew.wf fwStartSlew
def fwStopSlew (d : Dev) : Dev := onFw d endSlew
def execTsuStopSlew (s : State) : Host.Outcome State Fault Refusal := s.runIf Instr.tsuStopSlew.wf fwStopSlew

/-- A word written to `TSU_CMD`: its commands act in the order of their bits (DESIGN CHOICE, log entry 113). -/
def tsuCommand (d : Dev) (v : Nat) : Dev :=
  let d := if bit v 0 then loadInc d else d
  let d := if bit v 1 then armStep d else d
  let d := if bit v 2 then startSlew d else d
  if bit v 3 then endSlew d else d

/-- The slew's ticks pass and it ends. -/
def tsuSlewEnd (d : Dev) : Dev := if slewing d then endSlew (fwAcks (elapse d (rd d Reg.tsuSlewLeft))) else d

def execTsuSlewEnd (s : State) : Host.Outcome State Fault Refusal := s.runIf Instr.tsuSlewEnd.wf tsuSlewEnd

/-- Set the counter's whole nanoseconds. -/
def setExt (d : Dev) (x : Nat) : Dev := wr (wr d Reg.tsuNs (x % two32)) Reg.tsuWrap (x / two32 % two32)

/-- Edges of `PPS_OUT` that a positive step passes are not emitted (R447). -/
def skipPps (d : Dev) (before s : Nat) : Dev :=
  let n := rd d Reg.ppsOutNext
  let gap := sub32 n (before % two32)
  if flag d Reg.ppsOutCfg 0 ∧ gap ≤ s ∧ (0 < gap) then wr d Reg.ppsOutNext (n + 1000000000 * ((s - gap) / 1000000000 + 1)) else d

/-- After a step a port's pending list whose T_new it passed is operational, in the cycle that the new time lies in, and its gates are
what the operational list gives for the new time (R421). -/
def stepPort (d : Dev) (p : Nat) : Dev :=
  let d := match (egrOf d p).pending with
    | some (l, t) => if t ≤ extTime d then takeList d p l (listAt l (extTime d)).2.2.1 else d
    | none => d
  match (egrOf d p).gates with
  | some l => enterNow d p l
  | none => d

def stepGates (d : Dev) : Dev := d.egr.foldl (fun d e => stepPort d e.1) d

/-- The armed step is added at the first tick after which `TSU_NS` is at or beyond `TSU_STEP_AT` (R418), at once if it is. -/
def tsuStepApply (d : Dev) : Dev :=
  if !stepArmed d then d
  else
    let d := if d.time.stepExt ≤ extTime d then fwAcks (elapse d 1) else reachExt d d.time.stepExt
    let d := d.egr.foldl (fun d e => gatesDue d e.1) d
    let e := extTime d
    let s := signed 32 (rd d Reg.tsuStep)
    let d := setExt d (((e : Int) + s) % (2 ^ 64 : Nat)).toNat
    let d := if 0 < s then skipPps d e s.toNat else d
    stepGates (cnt (setFlag d Reg.tsuSts 0 false) Reg.tsuAdjEvc)

def execTsuStepApply (s : State) : Host.Outcome State Fault Refusal := s.runIf Instr.tsuStepApply.wf tsuStepApply

/-! ## References: the selected one and its phase (R457 to R462) -/

def refState (d : Dev) (r : Nat) : Nat := fld d (Reg.refSts r) 0 2
def selected (d : Dev) : Nat := fld d Reg.selSts 0 3
def selMode (d : Dev) : Bool := flag d Reg.selCfg 0

/-- The reference's PPS input is enabled and qualified. -/
def ppsPhase (d : Dev) (r : Nat) : Bool := decide (r < 2) && flag d (Reg.refCfg r) 11 && flag d (Reg.refSts r) 3

/-- Phase comes from a qualified PPS. -/
def phaseSel (d : Dev) : Bool := selMode d && ppsPhase d (selected d)

/-- `SEL_STS` as it reads: with its phase bit and the seconds in holdover. -/
def selWord (d : Dev) : Nat :=
  fld d Reg.selSts 0 4 + 16 * b2n (phaseSel d)
    + 256 * if selected d = 4 then min 0xFFFFFF ((d.now - d.time.holdSince) / ps_s) else 0

/-! ## TIME_ADJUST (Table 12-13) -/

def adjRsp (at_ : Nat) (rest : Int) : List Byte := toLe 8 at_ ++ toLe 4 (unsigned 32 rest) ++ toLe 4 0

def kindOf (sl : Slot) : Nat := le sl.payload 0 1
def padOk (sl : Slot) : Bool := decide (le sl.payload 1 3 = 0)

/-- A slew in progress stops when another slew, a step or a set arrives (Table 08-3). -/
def interrupt (d : Dev) : Int × Dev := let (n, d) := notSlewed d; (n, endSlew d)

/-- Frequency: new increment, nominal × (1 + o × 2^−16 ppm). -/
def adjFreq (d : Dev) (sl : Slot) : Res :=
  let o := signed 32 (le sl.payload 4 4)
  if !padOk sl || decide (kindOf sl ≠ 0 ∨ o < -65536000 ∨ 65536000 < o) then fail d eArg
  else if selMode d then fail d eState
  else
    let (x, d) := roundFree d ((nominal : Int) * o) 65536000000
    let inc := ((nominal : Int) + x).toNat
    let d := loadInc (wr (setFld d Reg.tsuCtl 0 4 (inc / two32)) Reg.tsuIncFrac (inc % two32))
    { dev := d, payload := adjRsp (extTime d) 0 }

def timeAdjustFrequency (ch : Nat) (d : Dev) : Dev :=
  runCmd d ch 0x501 0 (fun sl => decide (kindOf sl = 0 ∨ 4 ≤ kindOf sl)) (lenIs 24) adjFreq

def execTimeAdjustFrequency (ch : Nat) (s : State) : Host.Outcome State Fault Refusal :=
  s.runIf (Instr.timeAdjustFrequency ch).wf (timeAdjustFrequency ch)

/-- The ticks of a slew. More than `TSU_SLEW_TICKS` holds, as 1 ms at 100 ppm asks, are a free value (log entry 37). -/
def slewTicks (d : Dev) (n : Nat) : Nat × Dev := if n < two32 then (n, d) else let (r, d) := fresh d; (r % two32, d)

/-- Slew of a ns at r ppm: fraction per tick and number of ticks. -/
def adjSlew (d : Dev) (sl : Slot) : Res :=
  let a := signed 32 (le sl.payload 4 4)
  let r := le sl.payload 8 4
  if !padOk sl || decide (a < -1000000 ∨ 1000000 < a ∨ 1000 < r) then fail d eArg
  else if phaseSel d then fail d eState
  else if stepArmed d then fail d eBusy
  else
    let (rest, d) := interrupt d
    let (f, d) := roundFree d (nominal * (if r = 0 then 100 else r) : Nat) 1000000
    let (t, d) := roundFree d ((a.natAbs * two32 : Nat)) f
    let (n, d) := slewTicks d t.toNat
    let d := startSlew (wr (wr d Reg.tsuSlewFrac (unsigned 32 (if a < 0 then -f else f))) Reg.tsuSlewTicks n)
    { dev := d, payload := adjRsp (extTime d) rest }

def timeAdjustSlew (ch : Nat) (d : Dev) : Dev := runCmd d ch 0x501 0 (fun sl => decide (kindOf sl = 1)) (lenIs 24) adjSlew

def execTimeAdjustSlew (ch : Nat) (s : State) : Host.Outcome State Fault Refusal :=
  s.runIf (Instr.timeAdjustSlew ch).wf (timeAdjustSlew ch)

/-- The permitted instant of R419: the first extended time 10 µs ahead whose `TSU_NS` lies in [0x4000_0000, 0xC000_0000). -/
def stepInstant (e : Nat) : Nat :=
  let t := e + 10000
  if 0x40000000 ≤ t % two32 ∧ t % two32 < 0xC0000000 then t else nextAtNs t 0x40000000

def adjStep (d : Dev) (sl : Slot) : Res :=
  let a := signed 32 (le sl.payload 4 4)
  if !padOk sl || decide (a = 0 ∨ a < -1000000000 ∨ 1000000000 < a) then fail d eArg
  else if phaseSel d then fail d eState
  else if stepArmed d then fail d eBusy
  else
    let (rest, d) := interrupt d
    let t := stepInstant (extTime d)
    let d := armStep (wr (wr d Reg.tsuStep (unsigned 32 a)) Reg.tsuStepAt (t % two32))
    { dev := d, payload := adjRsp t rest }

def timeAdjustStep (ch : Nat) (d : Dev) : Dev := runCmd d ch 0x501 0 (fun sl => decide (kindOf sl = 2)) (lenIs 24) adjStep

def execTimeAdjustStep (ch : Nat) (s : State) : Host.Outcome State Fault Refusal :=
  s.runIf (Instr.timeAdjustStep ch).wf (timeAdjustStep ch)

/-- Entries that apply to a stamp of the last 10 s or later: all but those whose successor's origin is older (R424). -/
def liveEpochs (now : Nat) (l : List Epoch) : List Epoch :=
  match l with
  | [] => []
  | [a] => [a]
  | a :: b :: r => if b.origin + 10000000000 ≤ now then liveEpochs now (b :: r) else a :: b :: r

def epochInsert (l : List Epoch) (x : Epoch) : List Epoch :=
  match l with
  | [] => [x]
  | a :: r => if x.origin < a.origin then x :: a :: r else if x.origin = a.origin then x :: r else a :: epochInsert r x

/-- PTP time of extended time x in ns: by the entry with the latest origin at or before x, if there is one (R425). -/
def ptpOf (l : List Epoch) (x : Nat) : Option Nat :=
  match l with
  | [] => none
  | e :: r => if e.origin ≤ x then some ((ptpOf r x).getD (e.sec * 1000000000 + e.ns + (x - e.origin))) else none

/-- A 32-bit stamp as extended time: read less than 2^31 ns after it was taken (R426). -/
def extendStamp (now t : Nat) : Option Nat :=
  let age := sub32 (now % two32) t
  if 2 ^ 31 ≤ age ∨ now < age then none else some (now - age)

/-- PTP time of a 32-bit stamp, as firmware extends it (R425, R426). -/
def ptpStamp (d : Dev) (t : Nat) : Option Nat := (extendStamp (extTime d) t).bind (ptpOf d.time.epochs)

/-- First PTP second boundary of an entry at or after extended time x. -/
def entrySecond (e : Epoch) (x : Nat) : Nat :=
  let y := max x e.origin
  y + (1000000000 - (e.ns + (y - e.origin)) % 1000000000) % 1000000000

/-- First extended time at or after x that is a PTP second boundary. -/
def nextSecond (l : List Epoch) (x : Nat) : Option Nat :=
  match l with
  | [] => none
  | e :: r =>
    let b := entrySecond e x
    match r with
    | [] => some b
    | f :: _ => if b < f.origin then some b else nextSecond r x

/-- Firmware writes `PPS_OUT_NEXT` for the last set: the next PTP second boundary, once it lies within half a range, and again until
the set's own origin has been reached (log entry 100). -/
def fwPps (d : Dev) : Dev :=
  if !d.boot.fwRunning || !d.time.ppsSet then d
  else
    match nextSecond d.time.epochs (extTime d + 1) with
    | none => d
    | some x =>
      if extTime d + 2 ^ 31 ≤ x then d
      else
        (wr d Reg.ppsOutNext (x % two32)).onTime fun t =>
          { t with ppsSet := !t.epochs.all fun e => decide (e.origin ≤ x) }

/-- Firmware has `PPS_OUT_NEXT` to set: after a set, and when the output is configured. -/
def ppsRenew (d : Dev) : Dev := fwPps (d.onTime fun t => { t with ppsSet := true })

/-- A set is always accepted (R462). The table holds 64 entries; where more would apply the oldest fall out (log entry 100). -/
def adjSet (d : Dev) (sl : Slot) : Res :=
  let l := sl.payload
  let o := le l 16 8
  if !padOk sl || decide (le l 14 2 ≠ 0 ∨ 1000000000 ≤ le l 10 4 ∨ (o ≠ 0 ∧ o < extTime d + 10000)) then fail d eArg
  else
    let (r, e) := fresh d
    let (o, e) := if o = 0 then (extTime d + 10000 + r % two32, e) else (o, d)
    let (rest, e) := interrupt e
    let t := epochInsert (liveEpochs (extTime d) e.time.epochs) { origin := o, sec := le l 4 6, ns := le l 10 4 }
    { dev := ppsRenew (e.onTime fun k => { k with epochs := t.drop (t.length - 64) }), payload := adjRsp o rest }

def timeAdjustSet (ch : Nat) (d : Dev) : Dev := runCmd d ch 0x501 0 (fun sl => decide (kindOf sl = 3)) (lenIs 24) adjSet

def execTimeAdjustSet (ch : Nat) (s : State) : Host.Outcome State Fault Refusal :=
  s.runIf (Instr.timeAdjustSet ch).wf (timeAdjustSet ch)

/-! ## Capture, slave counters -/

/-- The copy is made 2 or 3 TSU cycles after the write (R479). -/
def tsuCapCmd (d : Dev) : Dev :=
  if !alive d then d
  else
    let (r, d) := fresh d
    let d := fwAcks (elapse d (2 + r % 2))
    cnt (wr (wr (wr d Reg.tsuCapNs (tsuNs d)) Reg.tsuCapWrap (rd d Reg.tsuWrap)) Reg.tsuCapFrac d.time.frac) Reg.tsuCapSeq

def execTsuCapCmd (s : State) : Host.Outcome State Fault Refusal := s.runIf Instr.tsuCapCmd.wf tsuCapCmd

/-- `TSU_STS` as it reads: each lane die's bit while its slave counter is not aligned. -/
def tsuStsWord (d : Dev) : Nat := setBits (rd d Reg.tsuSts) 8 8 (bitSet ((List.range 8).filter (unaligned d)))

/-- The die's slave counter is back within the bound of R27 (R414), at the latest 10 µs after it was lost. -/
def slaveRealign (die : Nat) (d : Dev) : Dev := setFlag d Reg.tsuSts (8 + die) false

def execSlaveRealign (die : Nat) (s : State) : Host.Outcome State Fault Refusal := s.runIf (Instr.slaveRealign die).wf (slaveRealign die)

def slaveAlignmentLoss (die : Nat) (d : Dev) : Dev :=
  if alive d then (setFlag d Reg.tsuSts (8 + die) true).onTime fun t => { t with slaveAt := tins t.slaveAt die d.now } else d

def execSlaveAlignmentLoss (die : Nat) (s : State) : Host.Outcome State Fault Refusal :=
  s.runIf (Instr.slaveAlignmentLoss die).wf (slaveAlignmentLoss die)

/-! ## Pulse per second (R443 to R447, R455 to R457) -/

/-- The output stage launches the edge `PPS_OUT_DELAY` ahead, so that it rises at the ball at `PPS_OUT_NEXT` (R443, R444); its own
stamp is open within the bounds of R443 and R429. -/
def ppsOutEdge (d : Dev) : Dev :=
  if !alive d || !flag d Reg.ppsOutCfg 0 then d
  else
    let n := rd d Reg.ppsOutNext
    let t := nextAtNs (extTime d) n
    let d := reachExt d (t - fld d Reg.ppsOutDelay 0 16)
    let d := d.onPins fun p => { p with ppsLaunch := extTime d }
    let d := reachExt d t
    let (r, d) := fresh d
    let d := d.onPins fun p => { p with ppsOutUntil := d.now + fld d Reg.ppsOutCfg 1 19 * ps_us }
    fwPps (wr (wr d Reg.ppsOutTs (unsigned 32 ((n : Int) + (r % 8 : Nat) - 4))) Reg.ppsOutNext (n + 1000000000))

def execPpsOutEdge (s : State) : Host.Outcome State Fault Refusal := s.runIf Instr.ppsOutEdge.wf ppsOutEdge

/-- The servo aligns to a new phase by a slew of at most 100 ppm; how far is open (R461). -/
def phaseAlign (d : Dev) : Dev :=
  let (r, d) := fresh d
  let (t, d) := fresh d
  let most := nominal * 100 / 1000000
  beginSlew d ((r % (2 * most + 1) : Nat) - (most : Int)) (t % two32)

/-- A missing pulse (R455, R456). -/
def ppsMissed (d : Dev) (b : Bool) : Dev :=
  let r := b2n b
  let run := (tget {} d.time.refs r).ppsMissRun + 1
  let d := d.onTime fun t => { t with refs := tmod {} t.refs r fun x => { x with ppsMissRun := run } }
  let d := setFld (cnt d (Reg.ppsMiss b)) (Reg.refSts r) 13 5 0
  if 3 ≤ run then setFlag d (Reg.refSts r) 3 false else d

/-- A good pulse. -/
def ppsGood (d : Dev) (b : Bool) : Dev :=
  let r := b2n b
  let was := phaseSel d
  let n := min 16 (fld d (Reg.refSts r) 13 5 + 1)
  let d := d.onTime fun t => { t with refs := tmod {} t.refs r fun x => { x with ppsMissRun := 0 } }
  let d := setFld d (Reg.refSts r) 13 5 n
  let d := if n = 16 then setFlag d (Reg.refSts r) 3 true else d
  if phaseSel d && !was then phaseAlign d else d

def refOf (d : Dev) (r : Nat) : RefSt := tget {} d.time.refs r
def setRef (d : Dev) (r : Nat) (f : RefSt → RefSt) : Dev := d.onTime fun t => { t with refs := tmod {} t.refs r f }

/-- The instant of a PPS edge that comes `offset` ns from the one expected: 1 s after the previous expected edge, by the local
oscillator (R455). -/
def ppsDue (t : Nat) (offset : Int) : Nat := ((t : Int) + ps_s + offset * 1000).toNat

/-- The edge from which the next is expected after an edge outside its window, which comes now: still the one expected before, until
that time has passed; of an input that is disqualified by missing pulses the expectation begins anew (log entry 103). -/
def ppsAnchor (d : Dev) (b : Bool) (t : Nat) : Nat :=
  if 3 ≤ (refOf d (b2n b)).ppsMissRun then d.now else if d.now < t + ps_s then t else t + ps_s

/-- A rising edge arrives. Time runs on to its instant if that lies ahead; one whose instant has passed comes now, and is as far off
as that. The first edge of an input has none to be off from; after a good edge the next is expected 1 s later, after another one as
`ppsAnchor` says (R455, log entry 103). -/
def ppsInEdge (b : Bool) (offset : Int) (d : Dev) : Dev :=
  if !alive d then d
  else
    let r := b2n b
    let prev := (refOf d r).ppsAt
    let due := prev.map fun t => (ppsDue t offset, t)
    let good := match due with
      | none => true
      | some (x, t) => if d.now ≤ x then decide (offset.natAbs ≤ 2000) else decide (d.now ≤ t + ps_s + 2 * ps_us ∧ t + ps_s ≤ d.now + 2 * ps_us)
    let d := match due with
      | none => d
      | some (x, _) => reach d x
    let d := wr d (Reg.ppsTs b) (sub32 (tsuNs d) (fld d (Reg.refPpsDelay r) 0 16))
    let at_ := if good then d.now else (prev.map (ppsAnchor d b)).getD d.now
    let d := setRef (cnt d (Reg.ppsEvc b)) r fun k => { k with ppsAt := some at_ }
    if good then ppsGood d b else ppsMissed d b

def execPpsInEdge (b : Bool) (offset : Int) (s : State) : Host.Outcome State Fault Refusal :=
  s.runIf (Instr.ppsInEdge b offset).wf (ppsInEdge b offset)

/-- No edge has come within 1 s and 2 µs of the previous expected one; before the first edge, of the release of reset. -/
def ppsMissing (b : Bool) (d : Dev) : Dev :=
  if !alive d then d
  else
    let t := (refOf d (b2n b)).ppsAt.getD d.boot.releasedAt
    ppsMissed (setRef (reach d (t + ps_s + 2 * ps_us)) (b2n b) fun k => { k with ppsAt := some (t + ps_s) }) b

def execPpsMissing (b : Bool) (s : State) : Host.Outcome State Fault Refusal := s.runIf (Instr.ppsMissing b).wf (ppsMissing b)

/-! ## Qualification and selection (R448 to R461) -/

def refEn (d : Dev) (r : Nat) : Bool := flag d (Reg.refCfg r) 26

def sumInt (l : List Int) : Int := l.foldl (· + ·) 0

/-- Average of raw offsets, 0.01 ppm. -/
def avgOf (d : Dev) (l : List Int) : Int × Dev := if l = [] then (0, d) else roundFree d (sumInt l) l.length

/-- Firmware's servo loads an increment (R411, R416, Table 08-2; log entry 104). -/
def steerInc (d : Dev) (inc : Nat) : Dev := loadInc (wr (setFld d Reg.tsuCtl 0 4 (inc / two32)) Reg.tsuIncFrac (inc % two32))

/-- The running increment follows a raw offset in 0.01 ppm (R460, Table 08-7). -/
def steerTo (d : Dev) (o : Int) : Dev :=
  let (x, d) := roundFree d ((nominal : Int) * o) 100000000
  steerInc d ((nominal : Int) + x).toNat

/-- While the servo follows a reference the increment it runs at is its own affair. -/
def steerFree (d : Dev) : Dev := let (x, d) := fresh d; steerInc d (x % 2 ^ 36)

/-- `PRIO`, first reference first. -/
def prio (d : Dev) : List Nat := (List.range 4).map fun i => fld d Reg.selCfg (2 + 2 * i) 2

def firstQual (d : Dev) : Option Nat := (prio d).find? fun r => refEn d r && decide (refState d r = 1)

/-- Place in `PRIO`. -/
def place (d : Dev) (r : Nat) : Nat := (findIdx (fun x => decide (x = r)) (prio d)).getD 4

/-- Set bit 3 of `SEL_STS`: steering is frozen while the selected reference is SUSPECT. -/
def freezeBit (d : Dev) : Dev := setFlag d Reg.selSts 3 (decide (selected d < 4 ∧ refState d (selected d) = 2))

/-- The selection moves to s (R461), or to holdover at offset `o` (R460). -/
def moveTo (d : Dev) (s : Nat) (o : Int) : Dev :=
  let d := cnt (setFld d Reg.selSts 0 3 s) Reg.selEvc
  let d := freezeBit (if s = 4 then steerTo (d.onTime fun t => { t with holdover := some o, holdSince := d.now }) o else d)
  let d := if phaseSel d then phaseAlign d else d
  note d 8 (toLe 1 4 ++ zeros 3 ++ toLe 4 (selWord d))

/-- In holdover, or with no reference ever selected, the increment is the stored one or the nominal one (R460); it is loaded when mode
1 is entered. -/
def holdNow (d : Dev) : Dev := if selected d = 4 then steerTo d (d.time.holdover.getD 0) else steerTo d 0

/-- Bring the selection up to date (R458 to R460); `enter` says that mode 1 is entered. -/
def reselect (d : Dev) (enter : Bool) : Dev :=
  if !selMode d then d
  else
    let cur := selected d
    let keeps := decide (cur < 4) && refEn d cur && decide (refState d cur ≠ 0)
    match firstQual d with
    | some r =>
      if keeps && (!flag d Reg.selCfg 1 || decide (place d cur ≤ place d r)) then freezeBit d
      else moveTo d r 0
    | none =>
      if keeps then freezeBit d
      else if 4 ≤ cur then (if enter then freezeBit (holdNow d) else freezeBit d)
      else moveTo d 4 (refOf d cur).gone

/-- A reference changes state: counted and reported (Table 12-7 kind 8). -/
def setRefState (d : Dev) (r s : Nat) : Dev :=
  if refState d r = s then d
  else
    let d := cnt (setFld d (Reg.refSts r) 0 2 s) (Reg.refStateEvc r)
    note d 8 (toLe 1 r ++ zeros 3 ++ toLe 4 (rd d (Reg.refSts r)))

/-- A reference is disqualified. What it leaves to a holdover is the average it had frozen if it was SUSPECT, else that of its last 16
gates (Table 08-7, R460). -/
def disqualify (d : Dev) (r : Nat) : Dev :=
  if refState d r = 0 then d
  else
    let (o, d) := if refState d r = 2 then ((refOf d r).frozen, d) else avgOf d ((refOf d r).raw.take 16)
    setRefState (setRef d r fun x => { x with gone := o }) r 0

/-- Twice the median raw offset of the other qualified references, when at least two are (R449). -/
def median2 (d : Dev) (r : Nat) : Option Int :=
  let o := ((List.range 4).filter fun k => decide (k ≠ r) && refEn d k && decide (refState d k = 1)).map fun k =>
    ((refOf d k).raw.head?).getD 0
  match o with
  | [a, b] => some (a + b)
  | [a, b, c] => some (2 * max (min a b) (min (max a b) c))
  | _ => none

/-- Table 08-7 after a gate. -/
def judgeGate (d : Dev) (r : Nat) (inWin : Bool) : Dev :=
  let a := Reg.refSts r
  let i := if inWin then min 16 (fld d a 4 5 + 1) else 0
  let o := if inWin then 0 else min 8 (fld d a 9 4 + 1)
  let d := setFld (setFld d a 4 5 i) a 9 4 o
  let st := refState d r
  if st = 0 ∧ i = 16 then setRefState d r 1
  else if st = 1 ∧ o = 3 then
    let (f, d) := avgOf d (((refOf d r).raw.drop 3).take 16)
    setRefState (setRef d r fun x => { x with frozen := f }) r 2
  else if st = 2 ∧ i = 3 then setRefState d r 1
  else if st = 2 ∧ o = 8 then disqualify d r
  else d

/-- Steering of the selected reference at the end of its gate; one that this gate selects starts from the increment there is (R461). -/
def steerGate (d : Dev) (r was : Nat) : Dev :=
  if !selMode d || decide (selected d ≠ r ∨ was ≠ r) then d
  else if refState d r = 1 then steerFree d
  else if refState d r = 2 then steerTo d (refOf d r).frozen
  else d

/-- A SyncE reference loses or has its signal by `PCS_LOCK` of its lane's port (R453). -/
def syncLock (d : Dev) (r : Nat) : Bool :=
  match laneUser d (fld d (Reg.refCfg r) 0 10) with
  | some p => flag d (psts p) 1
  | none => false

/-- Loss of signal: DISQUALIFIED with both runs 0 (Table 08-7). -/
def markLost (d : Dev) (r : Nat) : Dev :=
  disqualify (setFld (setFld (setFlag d (Reg.refSts r) 2 true) (Reg.refSts r) 4 5 0) (Reg.refSts r) 9 4 0) r

def loseRef (d : Dev) (r : Nat) : Dev := reselect (markLost d r) false

/-- A gate ends. A SyncE reference whose port has no `PCS_LOCK` has lost its signal and measures none (R453). -/
def refGateEnd (r : Nat) (raw : Int) (d : Dev) : Dev :=
  if !alive d || !refEn d r || flag d (Reg.refSts r) 2 then d
  else if decide (2 ≤ r) && !syncLock d r then loseRef d r
  else
    let d := reach d ((refOf d r).gateAt + ps_s)
    let d := setRef d r fun x => { x with raw := (raw :: x.raw).take 19, gateAt := d.now }
    let off2 := 2 * raw - (median2 d r).getD 0
    let (off, d) := roundFree d off2 2
    let d := wr d (Reg.refOffset r) (unsigned 16 off + 65536 * unsigned 16 raw)
    let (avg, d) := avgOf d ((refOf d r).raw.take 16)
    let d := cnt (wr d (Reg.refAvg16 r) (unsigned 16 avg)) (Reg.refGates r)
    let was := selected d
    let d := judgeGate d r (decide (off2.natAbs ≤ 2 * fld d (Reg.refCfg r) 12 14))
    steerGate (reselect d false) r was

def execRefGateEnd (ref : Nat) (raw : Int) (s : State) : Host.Outcome State Fault Refusal :=
  s.runIf (Instr.refGateEnd ref raw).wf (refGateEnd ref raw)

def refLossOfSignal (r : Nat) (d : Dev) : Dev :=
  if !alive d || !refEn d r || flag d (Reg.refSts r) 2 || (decide (2 ≤ r) && syncLock d r) then d
  else loseRef d r

def execRefLossOfSignal (ref : Nat) (s : State) : Host.Outcome State Fault Refusal :=
  s.runIf (Instr.refLossOfSignal ref).wf (refLossOfSignal ref)

def refSignalReturn (r : Nat) (d : Dev) : Dev :=
  if !flag d (Reg.refSts r) 2 || (decide (2 ≤ r) && !syncLock d r) then d
  else setRef (setFlag d (Reg.refSts r) 2 false) r fun x => { x with gateAt := d.now }

def execRefSignalReturn (ref : Nat) (s : State) : Host.Outcome State Fault Refusal :=
  s.runIf (Instr.refSignalReturn ref).wf (refSignalReturn ref)

/-! ## REF_SELECT -/

def refCfgOk (d : Dev) (r w : Nat) : Bool :=
  decide (10 ≤ bits w 12 14 ∧ bits w 12 14 ≤ 10000 ∧ w < 2 ^ 27) &&
    (if r < 2 then true else bits w 10 2 = 0 && (!bit w 26 || (lanePort d (bits w 0 10)).isSome))

def refPayloadOk (d : Dev) (l : List Byte) : Bool :=
  let p := (List.range 4).map fun i => bits (le l 2 1) (2 * i) 2
  decide (le l 0 1 ≤ 1 ∧ le l 1 1 ≤ 1 ∧ le l 3 1 = 0 ∧ p.eraseDups.length = 4 ∧ le l 20 4 < 65536 ∧ le l 24 4 < 65536) &&
    (List.range 4).all fun r => refCfgOk d r (le l (4 + 4 * r) 4)

/-- A reference newly measured begins its first gate, a SyncE one only with `PCS_LOCK` (R453); one no longer measured is DISQUALIFIED.
The count of missing pulses is its PPS input's and runs on (R456). -/
def setRefCfg (d : Dev) (r w : Nat) : Dev :=
  let was := refEn d r
  let d := wr d (Reg.refCfg r) w
  let lost := decide (2 ≤ r) && !syncLock d r
  if bit w 26 && !was then
    setRef (setFlag d (Reg.refSts r) 2 lost) r fun x => { x with raw := [], frozen := 0, gateAt := d.now }
  else if bit w 26 && lost && !flag d (Reg.refSts r) 2 then markLost d r
  else if !bit w 26 && was then
    disqualify (setFld (setFld d (Reg.refSts r) 4 5 0) (Reg.refSts r) 9 4 0) r
  else d

/-- Write the reference settings into their registers. A PPS input of the selected reference that they bring in is a new phase
reference (R461). -/
def putRefs (d : Dev) (l : List Byte) : Dev :=
  let wasMode := selMode d
  let wasPhase := phaseSel d
  let moves := rd d Reg.selEvc
  let d := wr d Reg.selCfg (le l 0 1 + 2 * le l 1 1 + 4 * le l 2 1)
  let d := (List.range 4).foldl (fun d r => setRefCfg d r (le l (4 + 4 * r) 4)) d
  let d := wr (wr d (Reg.refPpsDelay 0) (le l 20 4)) (Reg.refPpsDelay 1) (le l 24 4)
  let d := reselect d (selMode d && !wasMode)
  if phaseSel d && !wasPhase && decide (rd d Reg.selEvc = moves) then phaseAlign d else d

def refSelectRes (d : Dev) (sl : Slot) : Res :=
  let l := sl.payload
  if !refPayloadOk d l then fail d eArg
  else
    let d := putCfg (putRefs d l) 43 0 l
    { dev := d, payload := toLe 4 (selWord d), vint := true }

def refSelect (ch : Nat) (d : Dev) : Dev := runCmd d ch 0x502 0 anySlot (lenIs 28) refSelectRes

def execRefSelect (ch : Nat) (s : State) : Host.Outcome State Fault Refusal := s.runIf (Instr.refSelect ch).wf (refSelect ch)

/-! ## The wall calendar (R463 to R476) -/

/-- Seconds of 400 years. -/
def calSpan : Nat := 12622780800

/-- Year 2000 + y is a leap year (R463). -/
def leap (y : Nat) : Bool := decide (y % 4 = 0 ∧ (y % 100 ≠ 0 ∨ y = 0))

/-- Days of 2000 to 2000 + y − 1. -/
def daysBefore (y : Nat) : Nat := 365 * y + ceilDiv y 4 - [100, 200, 300].countP (· < y)

def monthLen (y m : Nat) : Nat := if m = 2 then (if leap y then 29 else 28) else if [4, 6, 9, 11].contains m then 30 else 31

def monthDays (y m : Nat) : Nat := sumOf (List.range (m - 1)) fun i => monthLen y (i + 1)

/-- A staged value is possible (R471). -/
def stagePossible (s0 s1 : Nat) : Bool :=
  let y := bits s1 9 9
  let m := bits s1 5 4
  let dd := bits s1 0 5
  decide (y < 400 ∧ 1 ≤ m ∧ m ≤ 12 ∧ 1 ≤ dd ∧ dd ≤ monthLen y m ∧ bits s0 27 5 < 24 ∧ bits s0 21 6 < 60 ∧ bits s0 15 6 < 60)

/-- The second that a staged value names. -/
def stageSec (s0 s1 : Nat) : Nat :=
  let y := bits s1 9 9
  (daysBefore y + monthDays y (bits s1 5 4) + bits s1 0 5 - 1) * 86400 + bits s0 27 5 * 3600 + bits s0 21 6 * 60 + bits s0 15 6

/-- Oscillator cycles within the second at this time; the domain stands without `VSTBY` (R801, R803). -/
def calSub (d : Dev) : Nat := if !d.pins.vstby then d.time.calSub else min 32767 (d.time.calSub + (d.now - d.time.calAt) * 32768 / ps_s)

/-- The calendar steps one second, 32,768 cycles after the last, however late the step is looked at (R464); it runs while `VSTBY` is
there. -/
def calSecondStep (d : Dev) : Dev :=
  if !d.pins.vstby then d
  else
    let due := d.time.calAt + ceilDiv ((32768 - d.time.calSub) * ps_s) 32768
    (reach d due).onTime fun t => { t with
      calSec := (t.calSec + 1) % calSpan, calSub := 0, calAt := due
      calWrapped := t.calWrapped || decide (t.calSec + 1 = calSpan) }

def execCalSecondStep (s : State) : Host.Outcome State Fault Refusal := s.runIf Instr.calSecondStep.wf calSecondStep

/-- A write of `CAL_LOAD` captures the staging registers (R467). -/
def calLoad (d : Dev) : Dev :=
  if alive d then d.onTime fun t => { t with calLoads := t.calLoads ++ [(d.now, rd d Reg.calStage0, rd d Reg.calStage1)] } else d

def execCalLoad (s : State) : Host.Outcome State Fault Refusal := s.runIf Instr.calLoad.wf calLoad

/-- The oldest captured load reaches the standby domain 61 to 92 µs after its write (R468 to R470, R473); a domain without `VSTBY` takes
none (R801). -/
def calLoadApply (d : Dev) : Dev :=
  match d.time.calLoads with
  | [] => d
  | (t, s0, s1) :: r =>
    let (x, d) := fresh d
    let d := (reach d (t + (61 + x % 32) * ps_us)).onTime fun k => { k with calLoads := r }
    if !d.pins.vstby then d
    else if stagePossible s0 s1 then
      cnt (d.onTime fun k => { k with calSec := stageSec s0 s1, calSub := 0, calAt := d.now, calWrapped := false, calNotSet := false })
        Reg.calLoadEvc
    else cnt d Reg.calRejectEvc

def execCalLoadApply (s : State) : Host.Outcome State Fault Refusal := s.runIf Instr.calLoadApply.wf calLoadApply

/-- `CAL_SEC` is the calendar's second; the date it shows: year − 2000, month, day, weekday. -/
def calDate (sec : Nat) : Nat × Nat × Nat × Nat :=
  let n := sec / 86400
  let y := ((List.range 400).filter fun y => decide (daysBefore y ≤ n)).length - 1
  let k := n - daysBefore y
  let m := ((List.range 12).filter fun m => decide (monthDays y (m + 1) ≤ k)).length
  (y, m, k - monthDays y m + 1, (5 + n) % 7)

/-- `CAL_NOW0` and `CAL_NOW1` (Table 08-12). -/
def calNow0 (d : Dev) : Nat :=
  let s := d.time.calSec % 86400
  calSub d + 2 ^ 15 * (s % 60) + 2 ^ 21 * (s / 60 % 60) + 2 ^ 27 * (s / 3600)

def calNow1 (d : Dev) : Nat := let (y, m, k, w) := calDate d.time.calSec; k + 32 * m + 512 * y + 2 ^ 18 * w

end Sys2Proof.Machine
end

