-- ==== Sys2Proof/Machine/Queues.lean ====
section
/-! DEFINITION. Queue, shaper and gate list commands (Table 12-12). -/

namespace Sys2Proof.Machine

/-! ## QUEUE_SET -/

/-- Tiles whose shared pool is smaller than 4,096 cells (R248). -/
def poolTooSmall (d : Dev) (ts : List Nat) : Bool := ts.any fun t => decide (sharedRest d t < 4096)

/-- Selector 0: weights and PFC settings of a port. -/
def portQueuesOk (l : List Byte) : Bool :=
  decide (le l 1 1 = 0 ∧ le l 2 2 < 512 ∧ le l 10 2 = 0 ∧ le l 12 1 < 128 ∧ le l 13 1 = 0) &&
    (List.range 6).all fun c => decide (le l (4 + c) 1 ≠ 0)

def setPortQueues (d : Dev) (l : List Byte) : Dev :=
  let p := le l 2 2
  let d := (List.range 8).foldl (fun d c => wr d (Reg.egr p + Reg.eClass c) (le l (4 + c) 1)) d
  let d := wr d (Reg.portPfcCfg p) (le l 12 1 + 65536 * le l 14 2)
  wr d (Reg.portPfcHr p) (le l 16 4)

/-- The lossless pairs of a port whose shared cells have reached the new `XOFF` enter it, and pairs that hold less than the new settings
leave it (R263, R264). -/
def settlePairs (d : Dev) (p : Nat) : Dev :=
  xoffExits ((List.range 7).foldl (fun d c => if pairUse d p c .shared = 0 then d else checkXoff d p c .shared) d)

/-- Selector 1: buffer settings of a class; class 7 has only `RES` and `SPILL_EN`, which must be 0. -/
def classBufOk (l : List Byte) : Bool :=
  let c := le l 4 1
  let k := signed 8 (le l 5 1)
  decide (le l 1 1 = 0 ∧ c < 8 ∧ le l 7 1 ≤ 1) &&
    if c = 7 then decide (le l 6 2 = 0)
    else decide (-6 ≤ k ∧ k ≤ 3 ∧ le l 10 2 + 16 ≤ le l 8 2 ∧ 1000 ≤ le l 12 4 ∧ le l 12 4 ≤ 1000000)

def setClassBuf (l : List Byte) (d : Dev) (t : Nat) : Dev :=
  let c := le l 4 1
  let r := Reg.tile t
  if c = 7 then wr d (r + Reg.classBufCfg 7) 0
  else
    let d := wr d (r + Reg.classBufCfg c) (unsigned 4 (signed 8 (le l 5 1)) + 16 * le l 6 1 + 4096 * le l 7 1)
    wr (wr d (r + Reg.spillCfg c) (le l 8 4)) (r + Reg.overageLimit c) (le l 12 4)

def classRecord (l : List Byte) (d : Dev) (t : Nat) : Dev :=
  let c := le l 4 1
  putCfg d 40 (8 * t + c) (if c = 7 then zeros 11 else (l.take 16).drop 5)

def queueSetRes (d : Dev) (sl : Slot) : Res :=
  let l := sl.payload
  if le l 0 1 = 0 then
    if sl.len ≠ 20 ∨ !portQueuesOk l then fail d eArg
    else
      let e := setPortQueues d l
      if poolTooSmall e [tileOf (le l 2 2)] then fail d eArg
      else { dev := settlePairs (putCfg e 39 (le l 2 2) (l.drop 4)) (le l 2 2), vint := true }
  else if le l 0 1 = 1 then
    if sl.len ≠ 16 ∨ !classBufOk l then fail d eArg
    else
      let ts := ones 16 (le l 2 2)
      let e := ts.foldl (setClassBuf l) d
      if poolTooSmall e ts then fail d eArg
      else { dev := xoffExits (ts.foldl (spillClass (le l 4 1)) (ts.foldl (classRecord l) e)), vint := true }
  else fail d eArg

def queueSet (ch : Nat) (d : Dev) : Dev :=
  runCmd d ch 0x401 0 anySlot (fun sl => decide (sl.len = 16 ∨ sl.len = 20)) queueSetRes

def execQueueSet (ch : Nat) (s : State) : Host.Outcome State Fault Refusal := s.runIf (Instr.queueSet ch).wf (queueSet ch)

/-! ## SHAPER_SET -/

/-- kbit/s of an encoded rate, rounded down (R360). -/
def rateSet (kbit : Nat) : Nat := 400000000 * rateM kbit / (65536 * 2 ^ rateE kbit)

/-- Set a shaper; its bucket is full when it is enabled and never above its burst (R365). -/
def setShaper (d : Dev) (p s : Nat) (en : Bool) (kbit burst : Nat) : Dev :=
  let was := shaperEn d p s
  let b := bktNow d p s
  let r := Reg.egr p
  let d := wr (wr d (r + Reg.eShRate s) (rateWord kbit + 2 ^ 31 * b2n en)) (r + Reg.eShBurst s) burst
  if en && was then setBkt d p s { b with tokens := min b.tokens (bktCap d p s) } else setBkt d p s (.full (bktCap d p s) d.now)

def shaperSetRes (d : Dev) (sl : Slot) : Res :=
  let l := sl.payload
  let p := le l 0 2
  let s := le l 2 1
  let k := le l 4 4
  if ¬ (p < 512 ∧ s < 8 ∧ le l 3 1 ≤ 1 ∧ 64 ≤ le l 8 4 ∧ le l 8 4 ≤ 16777216) ∨ !rateOk k then fail d eArg
  else
    let d := putCfg (setShaper d p s (bit (le l 3 1) 0) k (le l 8 4)) 41 (8 * p + s) (l.drop 3)
    { dev := d, payload := toLe 1 (rateE k) ++ [0] ++ toLe 2 (rateM k - 1) ++ toLe 4 (rateSet k), vint := true }

def shaperSet (ch : Nat) (d : Dev) : Dev := runCmd d ch 0x402 0 anySlot (lenIs 12) shaperSetRes

def execShaperSet (ch : Nat) (s : State) : Host.Outcome State Fault Refusal := s.runIf (Instr.shaperSet ch).wf (shaperSet ch)

/-! ## GATE_LIST_SET -/

def parseGate (l : List Byte) : GateEnt := { gates := le l 0 1, op := le l 1 1, interval := le l 4 4 }

def gateEntOk (l : List Byte) : Bool :=
  decide (128 ≤ le l 0 1 ∧ le l 1 1 ≤ 2 ∧ le l 2 2 = 0 ∧ 16 ≤ le l 4 4 ∧ le l 4 4 ≤ 1000000000)

/-- First base time + n × cycle at least 10 µs from now (R380). -/
def tNew (base cycle now : Nat) : Nat :=
  if now + 10000 ≤ base then base else base + cycle * ceilDiv (now + 10000 - base) cycle

/-- The list of a payload waits for T_new; it replaces a list that waits. -/
def loadGates (d : Dev) (l : List Byte) : Nat × Dev :=
  let p := le l 0 2
  let t := tNew (le l 4 8) (le l 12 4) (extTime d)
  let g : GateList := { base := le l 4 8, cycle := le l 12 4, ext := le l 16 4, entries := (elements 8 (l.drop 24)).map parseGate }
  (t, setFlag (setEgr d p fun e => { e with pending := some (g, t) }) (stsAddr p) 9 true)

/-- Stop the list at once and open every gate. -/
def stopGates (d : Dev) (p : Nat) : Dev :=
  let d := setEgr d p fun e => { e with gates := none, pending := none, cycleAt := 0, entry := 0 }
  let d := setFlag d (Reg.egr p + Reg.eCfg) 0 false
  setFlag (setFld d (stsAddr p) 0 11 0xFF) (stsAddr p) 12 false

def gateHeadOk (l : List Byte) : Bool :=
  decide (le l 0 2 < 512 ∧ le l 20 1 ≤ 1 ∧ le l 21 3 = 0)

def gateTimesOk (l : List Byte) (n : Nat) : Bool :=
  decide (1 ≤ n ∧ n ≤ 1024 ∧ 1000 ≤ le l 12 4 ∧ le l 12 4 ≤ 1000000000 ∧ le l 16 4 ≤ 1000000)

/-- The first entry that R376 rejects. -/
def badGate (l : List Byte) : Option Nat := findIdx (fun e => !gateEntOk e) (elements 8 (l.drop 24))

def gateListOk (l : List Byte) (n : Nat) : Bool := gateTimesOk l n && (badGate l).isNone

def gateListSetRes (d : Dev) (sl : Slot) : Res :=
  let l := sl.payload
  let n := le l 2 2
  if sl.len ≠ 24 + 8 * n ∨ !gateHeadOk l then fail d eArg
  else if le l 20 1 = 0 then
    if n ≠ 0 then fail d eArg
    else
      let p := le l 0 2
      { dev := delCfg (stopGates d p) 42 p [], payload := toLe 8 (extTime d), vint := true }
  else if !gateTimesOk l n then fail d eArg
  else
  match badGate l with
  | some i => fail d eArg i
  | none =>
    let (t, d) := loadGates d l
    { dev := putCfg d 42 (le l 0 2) (l.drop 4), payload := toLe 8 t, vint := true }

def gateListSet (ch : Nat) (d : Dev) : Dev := runCmd d ch 0x403 0 anySlot (fun sl => decide (sl.len = 24) || headedLen 24 8 1024 sl) gateListSetRes

def execGateListSet (ch : Nat) (s : State) : Host.Outcome State Fault Refusal := s.runIf (Instr.gateListSet ch).wf (gateListSet ch)

end Sys2Proof.Machine
end

