-- ==== Sys2Proof/Machine/Staging.lean ====
section
/-! DEFINITION. Staged configuration (chapter 12, R697 to R702, Table 12-6): staging, the checks of a commit, what each object
type sets, and the commit itself. -/

namespace Sys2Proof.Machine

/-! ## Record syntax (Table 12-6) -/

/-- Number of indexes of an object type set by `CONFIG_STAGE`; 0 for a type that it does not set. -/
def idxCount (ty : Nat) : Nat :=
  [0, 4096, 16, 65536, 16384, 256, 8192, 1, 512, 512, 512, 16, 16, 8, 8, 16, 16384, 1, 512, 1, 64, 1, 8, 1, 1].getD ty 0

/-- Value length of a type; groups give theirs by the member count in the value. -/
def valLen (r : CfgRec) : Nat :=
  if r.ty = 4 then 4 + 3 * le r.val 0 2
  else if r.ty = 5 then 4 + 2 * le r.val 0 1
  else [0, 132, 6, 12, 0, 0, 64, 12, 4, 4, 1, 4, 44, 16, 1, 8, 40, 4, 12, 8, 2, 4, 4, 4, 5].getD r.ty 0

/-- The record names an object and has its length. -/
def recShape (r : CfgRec) : Bool := decide (r.idx < idxCount r.ty ∧ r.val.length = valLen r ∧ (r.ty = 5 → r.val ≠ []))

/-! ## Rejection rules of the chapters -/

/-- Ethertypes that Table 03-1 names (R113). -/
def namedEtypes : List Nat :=
  [0x88A8, 0x8100, 0xF1C1, 0x88E5, 0x8847, 0x8848, 0x0800, 0x86DD, 0x0806, 0x88F7, 0x88CC, 0x88B5]

/-- A stream filter's windows (Table 07-5, R395). -/
def filterOk (v : List Byte) : Bool :=
  let f := parseFilter 0 v
  decide (f.port ≤ 32 ∧ f.vid < 4096 ∧ 1000 ≤ f.cycle ∧ f.cycle ≤ 1000000000 ∧ f.opn < f.cls ∧ f.cls ≤ f.cycle ∧
    2 * f.tol < f.cycle - (f.cls - f.opn) ∧ le v 28 1 ≤ 1 ∧ f.demoteTc ≤ 5)

def groupOk (v : List Byte) : Bool :=
  decide (le v 0 2 ≤ 256 ∧ (le v 2 1 ≤ 12 ∨ le v 2 1 = 0xFF) ∧ le v 3 1 = 0) &&
    (List.range (le v 0 2)).all fun i => decide (le v (6 + 3 * i) 1 ≠ 0)

/-- A record's own fields lie in range, whatever the rest of the configuration is. -/
def valOk (r : CfgRec) : Bool :=
  let v := r.val
  match r.ty with
  | 1 => decide (le v 0 1 < 8 ∧ le v 1 1 < 16 ∧ le v 2 2 < 4096)
  | 3 => decide (le v 0 1 < 4 ∧ le v 1 1 = 0 ∧ le v 2 2 < (if bit (le v 0 1) 1 then 256 else 512) ∧ le v 10 2 < 4096)
  | 4 => groupOk v
  | 5 => decide (le v 0 1 ≤ 64 ∧ le v 1 3 = 0) && (portList (le v 0 1) (v.drop 4)).all (· < 512)
  | 8 => decide (bits (le v 0 4) 12 2 ≠ 3)
  | 9 => decide (bits (le v 0 4) 12 2 ≠ 3)
  | 10 => decide (le v 0 1 < 16)
  | 11 => !(bit (le v 0 4) 16 && namedEtypes.contains (le v 0 2))
  | 12 => decide (le v 0 4 % 16 ≤ 3)
  | 13 => decide (le v 0 4 ≤ 16000000 ∧ 1 ≤ le v 4 2 ∧ le v 6 2 = 0 ∧ 10240 ≤ le v 12 4 ∧ le v 12 4 ≤ 16777216)
  | 14 => decide (le v 0 1 < 8)
  | 15 => decide (le v 4 4 < 131072)
  | 16 => filterOk v
  | 17 => decide (10 ≤ le v 0 4 ∧ le v 0 4 ≤ 1000000)
  | 19 => let w := bits (le v 0 4) 1 19; decide (1 ≤ w ∧ w ≤ 500000)
  | 20 => decide (le v 0 2 ≤ 16384 ∧ (28 ≤ r.idx ∧ r.idx ≤ 31 → le v 0 2 = 0))
  | 22 => decide (le v 0 4 % 32 ≤ 16)
  | 24 => decide (le v 4 1 ≤ 1)
  | _ => true

def recsOf (cfg : List CfgRec) (ty : Nat) : List CfgRec := cfg.filter fun r => decide (r.ty = ty)

/-- Tenants' guarantees and cellar quotas of a configuration: the given field summed over the 16 tenants. -/
def tenantSum (cfg : List CfgRec) (off n : Nat) : Nat :=
  sumOf (List.range 16) fun i => le ((cfgFind cfg 15 i).getD (cfgReset 15 i)) off n

def lagPorts (r : CfgRec) : List Nat := portList (le r.val 0 1) (r.val.drop 4)
def etypeValid (r : CfgRec) : Bool := bit (le r.val 0 4) 16

/-- A record that no other object of its type in the configuration contradicts: no port stands in two LAGs or twice in one
(R228), and valid industrial ethertypes differ (R114). -/
def recAlone (cfg : List CfgRec) (r : CfgRec) : Bool :=
  let rest := (recsOf cfg r.ty).filter fun x => decide (x.idx ≠ r.idx)
  if r.ty = 5 then
    decide (lagPorts r).Nodup && rest.all fun x => (lagPorts x).all fun p => !(lagPorts r).contains p
  else if r.ty = 11 then !etypeValid r || rest.all fun x => !etypeValid x || decide (le x.val 0 2 ≠ le r.val 0 2)
  else true

/-- Every tile's shared pool keeps 4,096 cells (R248) and the cellar quotas fit (R286). -/
def tenantsOk (d : Dev) (cfg : List CfgRec) : Bool :=
  decide (tenantSum cfg 4 4 ≤ 65024) &&
    (List.range 16).all fun t => decide (4096 + (tenantSum cfg 0 2 : Int) ≤ sharedRest d t + guarSize d t)

/-- Rules over all objects of a type in the configuration that the commit would make; 0 when they hold. -/
def typeCheck (d : Dev) (cfg : List CfgRec) (ty : Nat) : Nat :=
  if ty = 4 then (if sumOf (recsOf cfg 4) (fun r => ecmpB r.val) ≤ 262144 then 0 else eFull)
  else if ty = 15 then (if tenantsOk d cfg then 0 else eArg)
  else 0

/-! ## What a record leaves -/

def maskAt (m off : Nat) (v : List Byte) : List Byte := overlay v off (toLe 4 (le v off 4 &&& m))

/-- The value as the device holds it: reserved bits of a register read 0, and a group without members is none. -/
def norm (r : CfgRec) : CfgRec :=
  { r with val :=
      match r.ty with
      | 4 => if le r.val 0 2 = 0 then [] else r.val
      | 5 => if le r.val 0 1 = 0 then [] else r.val
      | 7 => maskAt 0xF 8 r.val
      | 8 => maskAt 0x3FFFF 0 r.val
      | 9 => maskAt 0x7FFFFF 0 r.val
      | 11 => maskAt 0x1FFFF 0 r.val
      | 12 => maskAt 0xFFFF001F 0 r.val
      | 18 => maskAt 7 0 r.val
      | 19 => maskAt 0xFFFF 4 (maskAt 0xFFFFF 0 r.val)
      | 21 => maskAt 7 0 r.val
      | 22 => maskAt 0x3F 0 r.val
      | _ => r.val }

/-- The committed configuration with the staged records applied. -/
def cfgWith (cfg : List CfgRec) (rs : List CfgRec) : List CfgRec := rs.foldl (fun c r => cfgSet c (norm r)) cfg

/-- First staged record that fails a check of R701, with the status it gives. A rule over a whole type is reported at the first
staged record of that type. -/
def recsCheck (d : Dev) (cfg : List CfgRec) (seen : List Nat) (n : Nat) (rs : List CfgRec) : Option (Nat × Nat) :=
  match rs with
  | [] => none
  | r :: t =>
    let e := if !valOk r || !recAlone cfg r then eArg else if seen.contains r.ty then 0 else typeCheck d cfg r.ty
    if e ≠ 0 then some (n, e) else recsCheck d cfg (r.ty :: seen) (n + 1) t

def commitCheck (d : Dev) (rs : List CfgRec) : Option (Nat × Nat) := recsCheck d (cfgWith d.host.cfg rs) [] 0 rs

/-! ## Path groups under a commit (R233, R237, R238) -/

/-- The new number of the old member i: the same member's occurrence in the new list. -/
def newNumber (old new : List Nat) (i : Nat) : Option Nat :=
  let m := old.getD i 0
  let occ := (old.take i).count m
  (List.range new.length).find? fun j => decide (new.getD j 0 = m ∧ (new.take j).count m = occ)

/-- Buckets of a changed group: a bucket keeps its member where the member stays; a removed member's buckets go by R237, and
added live members take theirs by R238. A group that is new, changes its bucket count or keeps no live member starts afresh. -/
def carryBuckets (d : Dev) (lag : Bool) (g : Nat) (old : List Nat) (b : Nat) : Dev :=
  let ms := groupMembers d 0 lag g
  let new := ms.map (·.1)
  let live := liveMembers d lag g
  let keep := (List.range old.length).filterMap (newNumber old new)
  let surv := live.filter keep.contains
  let bs := groupBuckets d 0 lag g
  if ms = [] then setBuckets d lag g []
  else if bs.length ≠ b ∨ surv = [] then let (l, d) := freshBuckets d ms b; setBuckets d lag g l
  else
    let bs := bs.map fun i => (newNumber old new i).getD new.length
    let bs := reassign bs new.length surv
    setBuckets d lag g ((live.filter fun m => !keep.contains m).foldl (fun bs m => regain ms live m bs) bs)

/-! ## What each type sets -/

def allTiles (d : Dev) (f : Dev → Nat → Dev) : Dev := (List.range 16).foldl f d
def allCplx (d : Dev) (f : Dev → Nat → Dev) : Dev := (List.range 4).foldl f d

/-- A seed of 0 takes firmware's per-device default (Table 12-6 type 7). -/
def seedOr (b : Bool) (v : Nat) : Nat := if v = 0 then (Config.defaultSeed b).toNat else v

def setSeeds (d : Dev) (v : List Byte) : Dev :=
  allCplx d fun d k =>
    wr (wr (wr d (Reg.cplx k + Reg.hashSeedA) (seedOr false (le v 0 4))) (Reg.cplx k + Reg.hashSeedB) (seedOr true (le v 4 4)))
      (Reg.cplx k + Reg.hashCfg) (le v 8 4)

/-- A trap queue's buckets keep their tokens, capped at the new burst (R826). `v` is the value to come. -/
def capTrap (d : Dev) (q : Nat) (v : List Byte) : Dev :=
  let cap := fun (x : Bucket) (n : Nat) => { x with tokens := min x.tokens ((n * trapUnit : Nat) : Int) }
  let f := trapBucket d q false
  let b := trapBucket d q true
  setTrapBucket (setTrapBucket d q false (cap f (le v 4 2))) q true (cap b (le v 12 4))

def setProfile (d : Dev) (n : Nat) (v : List Byte) : Dev :=
  allCplx d fun d k =>
    (List.range 10).foldl (fun d w => wr d (Reg.cplx k + Reg.ruleProfMask n w) (le v (4 + 4 * w) 4))
      (wr d (Reg.cplx k + Reg.ruleProfCfg n) (le v 0 4))

def setTenant (d : Dev) (n : Nat) (v : List Byte) : Dev :=
  wr (allTiles d fun d t => wr d (Reg.tile t + Reg.tenantBufCfg n) (le v 0 4)) (Reg.tenantCellarQuota n) (le v 4 4)

/-- A stream filter's `BASE` becomes extended time at the commit (R390, R841). -/
def setFilter (d : Dev) (i : Nat) (v : List Byte) : Dev :=
  d.onFwd fun w => { w with filterBase := tins w.filterBase i (nearestExt (extTime d) (le v 10 4)) }

def setStamping (d : Dev) (p : Nat) (v : List Byte) : Dev :=
  wr (wr (wr d (Reg.tsPortCfg p) (le v 0 4)) (Reg.tsTrim p) (le v 4 4)) (Reg.tsLinkDelay p) (le v 8 4)

/-- What a record sets beside the committed configuration itself, which already holds it; `old` is the value before. -/
def applyObject (d : Dev) (r : CfgRec) (old : List Byte) : Dev :=
  let v := r.val
  match r.ty with
  | 4 => carryBuckets d false r.idx ((List.range (le old 0 2)).map fun i => le old (4 + 3 * i) 2) (if v = [] then 0 else ecmpB v)
  | 5 => carryBuckets d true r.idx (portList (le old 0 1) (old.drop 4)) 256
  | 7 => setSeeds d v
  | 8 => wr d (Reg.portL2Cfg r.idx) (le v 0 4)
  | 9 => wr d (Reg.portRuleCfg r.idx) (le v 0 4)
  | 10 => setFld d (Reg.tile (r.idx / 32) + Reg.portTenant (r.idx % 32 / 8)) (4 * (r.idx % 8)) 4 (le v 0 1)
  | 11 => allTiles d fun d t => wr d (Reg.tile t + Reg.parseRtEtype r.idx) (le v 0 4)
  | 12 => setProfile d r.idx v
  | 15 => setTenant d r.idx v
  | 16 => setFilter d r.idx v
  | 17 => if v = old then d else d.onFwd fun w => { w with sweepAt := d.now }
  | 18 => setStamping d r.idx v
  | 19 => ppsRenew (wr (wr d Reg.ppsOutCfg (le v 0 4)) Reg.ppsOutDelay (le v 4 4))
  | 20 => wr d (Reg.coopQuota r.idx) (le v 0 2)
  | 21 => wr d Reg.trellisCfg (le v 0 4)
  | 22 => allTiles d fun d t => wr d (Reg.tile t + Reg.tasteCfg r.idx) (le v 0 4)
  | 23 => wr d Reg.perfUserPerm (le v 0 4)
  | _ => d

def applyRec (d : Dev) (r : CfgRec) : Dev :=
  let r := norm r
  let old := cfgOf d r.ty r.idx
  let d := if r.ty = 13 then capTrap d r.idx r.val else d
  applyObject (putPath (putCfg d r.ty r.idx r.val) r.ty r.idx r.val) r old

/-- Records of ascending type (R702); within a type in their order. -/
def byType (rs : List CfgRec) : List CfgRec := (List.range 25).flatMap (recsOf rs)

def peerState (d : Dev) (p : Nat) : Nat := fld d (Reg.vintPeer (p / 8)) (4 * (p % 8)) 4

/-- A commit of the local configuration restarts the 60 s of every PENDING port (R771). -/
def restartPeers (d : Dev) : Dev :=
  d.onHealth fun h => { h with peers := h.peers.map fun e => if peerState d e.1 = 2 then (e.1, { e.2 with diffSince := some d.now }) else e }

/-! ## CONFIG_STAGE -/

def replaceRec (l : List CfgRec) (r : CfgRec) : List CfgRec :=
  if l.any r.same then l.map fun x => if r.same x then r else x else l ++ [r]

def stageMax : Nat := 2097152

def ownedByOther (d : Dev) (ch : Nat) : Bool := (d.host.staging.map fun s => decide (s.owner ≠ ch)).getD false

def setStaging (d : Dev) (s : Option Staging) : Dev := d.onHost fun h => { h with staging := s }

def stageRes (ch : Nat) (restart : Bool) (d : Dev) (sl : Slot) : Res :=
  if ownedByOther d ch then fail d eBusy
  else
    let keep := d.host.staging.map fun s => { s with last := d.now }
    match parseRecs recShape sl.len sl.payload 0 with
    | .error n => fail (setStaging d keep) eArg n
    | .ok rs =>
      let l := rs.foldl replaceRec (if restart then [] else (d.host.staging.map (·.recs)).getD [])
      if stageMax < sumOf l CfgRec.size then fail (setStaging d keep) eFull
      else { dev := setStaging d (some { owner := ch, recs := l, last := d.now }), payload := toLe 4 rs.length }

def configStage (ch : Nat) (d : Dev) : Dev := runCmd d ch 0x002 1 (fun sl => !slotFlag 0 sl) anySlot (stageRes ch false)

def execConfigStage (ch : Nat) (s : State) : Host.Outcome State Fault Refusal := s.runIf (Instr.configStage ch).wf (configStage ch)

/-- Flag 16 `RESTART`: the staging area is discarded first. -/
def configStageRestart (ch : Nat) (d : Dev) : Dev := runCmd d ch 0x002 1 (slotFlag 0) anySlot (stageRes ch true)

def execConfigStageRestart (ch : Nat) (s : State) : Host.Outcome State Fault Refusal :=
  s.runIf (Instr.configStageRestart ch).wf (configStageRestart ch)

/-! ## CONFIG_COMMIT -/

/-- The staged area for a commit by channel ch, its time renewed, or the status that it gives. -/
def commitRes (ch : Nat) (f : Dev → Staging → Res) (d : Dev) (_ : Slot) : Res :=
  match d.host.staging with
  | none => fail d eState
  | some s => if s.owner ≠ ch then fail d eBusy else f (setStaging d (some { s with last := d.now })) s

def applyAll (d : Dev) (rs : List CfgRec) : Dev := (byType rs).foldl applyRec d

def commitAll (d : Dev) (s : Staging) : Res :=
  match commitCheck d s.recs with
  | some (n, e) => fail d e n
  | none =>
    { dev := restartPeers (setStaging (applyAll d s.recs) none), payload := toLe 4 s.recs.length, vint := true }

def configCommit (ch : Nat) (d : Dev) : Dev :=
  runCmd d ch 0x003 3 (fun sl => !slotFlag 0 sl && !slotFlag 1 sl) noPayload (commitRes ch commitAll)

def execConfigCommit (ch : Nat) (s : State) : Host.Outcome State Fault Refusal := s.runIf (Instr.configCommit ch).wf (configCommit ch)

def checkAll (d : Dev) (s : Staging) : Res :=
  match commitCheck d s.recs with
  | some (n, e) => fail d e n
  | none => { dev := d, payload := toLe 4 0 }

/-- Flag 16 `CHECK`; with `ABANDON` beside it the command asks for two things at once. -/
def configCommitCheck (ch : Nat) (d : Dev) : Dev :=
  runCmd d ch 0x003 3 (slotFlag 0) noPayload fun d sl => if slotFlag 1 sl then fail d eArg else commitRes ch checkAll d sl

def execConfigCommitCheck (ch : Nat) (s : State) : Host.Outcome State Fault Refusal :=
  s.runIf (Instr.configCommitCheck ch).wf (configCommitCheck ch)

def configCommitAbandon (ch : Nat) (d : Dev) : Dev :=
  runCmd d ch 0x003 3 (fun sl => slotFlag 1 sl && !slotFlag 0 sl) noPayload
    (commitRes ch fun d _ => { dev := setStaging d none, payload := toLe 4 0 })

def execConfigCommitAbandon (ch : Nat) (s : State) : Host.Outcome State Fault Refusal :=
  s.runIf (Instr.configCommitAbandon ch).wf (configCommitAbandon ch)

/-- A staging area that 60 s left alone is discarded (R698). -/
def stagingTimeout (d : Dev) : Dev :=
  match d.host.staging with
  | none => d
  | some s => if d.boot.fwRunning then setStaging (reach d (s.last + 60 * ps_s)) none else d

def execStagingTimeout (s : State) : Host.Outcome State Fault Refusal := s.runIf Instr.stagingTimeout.wf stagingTimeout

end Sys2Proof.Machine
end

