-- ==== Sys2Proof/Machine/Threads.lean ====
section
/-! DEFINITION. Control cores and their hardware threads (chapter 10): thread states and switching, the threading instructions,
traps and FAULTED, the cellarmaster, sampling, core clocks, the scratchpad windows and the cooper's ports. The RV32IMC base
instructions are no commands of the table: a thread's registers change by what this chapter defines, its loads and stores among it
(Access). -/

namespace Sys2Proof.Machine

def coreNum (n : Nat) : Nat := n / 8
def isGuest (n : Nat) : Bool := decide (28 ≤ n)

/-- Register x`i` of a thread; x0 is 0. -/
def xr (d : Dev) (n i : Nat) : Nat := if i = 0 then 0 else (tget (0 : Word) (thrOf d n).x i).toNat
def setX (d : Dev) (n i v : Nat) : Dev :=
  if i = 0 then d else setThr d n fun t => { t with x := tput 0 t.x i (BitVec.ofNat 32 v) }

def treg (d : Dev) (n off : Nat) : Nat := rd d (Reg.thr n + off)

/-- `CC_CYCLE`: 1.0 GHz from the release of reset (chapter 10). -/
def ccCycle (d : Dev) : Nat := (d.now - d.boot.releasedAt) / 1000

/-! ## Counters and samples (R620, R621) -/

/-- A sample falls due, `skid` instructions ago: taken soon while IE is 1, otherwise held; it merges with one that waits (R622, R623). -/
def sampleRaise (skid : Nat) (t : Thr) : Thr :=
  if !t.ie then { t with sampleHeld := true } else if t.sampleDue then t else { t with sampleDue := true, skid }

/-- k occurrences of event e count in the thread's counter and in its sample countdown; instructions retired, event 1, count from a
sample's falling due too (R622). -/
def perfAdd (d : Dev) (n e k : Nat) : Dev :=
  let d := cntAdd d (Reg.perf n e) k
  let d := if e = 1 && (thrOf d n).sampleDue then setThr d n fun t => { t with skid := t.skid + k } else d
  let c := treg d n Reg.tSampleCfg
  let p := bits c 8 24
  if k = 0 ∨ !bit c 4 ∨ bits c 0 4 ≠ e ∨ p = 0 then d
  else
    setThr d n fun t =>
      let left := if t.sampleLeft = 0 then p else t.sampleLeft
      if k < left then { t with sampleLeft := left - k } else sampleRaise (if e = 1 then k - left else 0) { t with sampleLeft := p - (k - left) % p }

/-- Cycle counter of a state: `CYCLES_RUN`, `READY_CYCLES`, `WAIT_CYCLES`. -/
def cycleEvent (s : ThrState) : Option Nat :=
  match s with
  | .running => some 0
  | .ready => some 6
  | .waiting => some 7
  | _ => none

/-- Count the cycles that a thread has spent in its state; nothing counts while its core is stopped (R716). -/
def flushThr (d : Dev) (n : Nat) : Dev :=
  let t := thrOf d n
  let k := d.now / 1000 - t.since / 1000
  let d := setThr d n fun t => { t with since := d.now }
  if (coreOf d (coreNum n)).stopped then d
  else match cycleEvent t.state with
    | some e => perfAdd d n e k
    | none => d

def flushCore (d : Dev) (c : Nat) : Dev := (List.range 8).foldl (fun d h => flushThr d (8 * c + h)) d

/-! ## States and switching (R568 to R574) -/

def isState (d : Dev) (n : Nat) (s : ThrState) : Bool := decide ((thrOf d n).state = s)

def runningOf (d : Dev) (c : Nat) : Option Nat := ((List.range 8).map (8 * c + ·)).find? fun n => isState d n .running

/-- Some thread of the core is READY, RUNNING or STALLED. -/
def coreBusy (d : Dev) (c : Nat) : Bool :=
  (List.range 8).any fun h => isState d (8 * c + h) .ready || isState d (8 * c + h) .running || isState d (8 * c + h) .stalled

/-- A thread's state becomes s; a core whose last busy thread it was is idle from then on (R574). -/
def setState (d : Dev) (n : Nat) (s : ThrState) : Dev :=
  let was := isState d n .running
  let c := coreNum n
  let busy := coreBusy d c
  let d := setThr (flushThr d n) n fun t => { t with state := s }
  let d := if was then setCore d c fun k => { k with last := n % 8 } else d
  if busy && !coreBusy d c then setCore d c fun k => { k with idleAt := d.now } else d

/-- The core runs the first READY thread after the one that left (R572). -/
def dispatch (d : Dev) (c : Nat) : Dev :=
  let k := coreOf d c
  if k.stopped || (runningOf d c).isSome then d
  else
    match ((List.range 8).map fun i => 8 * c + (k.last + 1 + i) % 8).find? fun n => isState d n .ready with
    | some n => setThr (setState d n .running) n fun t => { t with runAt := d.now }
    | none => d

/-- Change a thread's state and switch. -/
def moveThr (d : Dev) (n : Nat) (s : ThrState) : Dev := dispatch (setState d n s) (coreNum n)

/-- READY with pc = `RESTART_VEC`, sp = `STK_HI`, nest depth 0, IE 1 (Table 10-3). -/
def startThr (d : Dev) (n : Nat) : Dev :=
  let d := setThr d n fun t =>
    { t with pc := BitVec.ofNat 32 (treg d n Reg.tRestartVec), depth := 0, ie := true, codes := [], sampleHeld := false, sampleDue := false,
             left := false, stopping := false }
  moveThr (setX d n 2 (treg d n Reg.tStkHi)) n .ready

/-- A restart is a start that counts in `THR_STATE.RESTARTS`. -/
def restartThr (d : Dev) (n : Nat) : Dev := startThr (setThr d n fun t => { t with restarts := min 255 (t.restarts + 1) }) n

/-- OFF once any access in flight has completed. -/
def stopThr (d : Dev) (n : Nat) : Dev :=
  if isState d n .off then d
  else if isState d n .stalled then setThr d n fun t => { t with stopping := true }
  else moveThr d n .off

/-! ## Wakes (R34, R35, R39) -/

/-- A thread command acts (Table 10-3): in any other state than the one it is for it changes nothing. -/
def doCmd (d : Dev) (n : Nat) (c : ThrCmd) : Dev :=
  match c with
  | .start => if isState d n .off then startThr d n else d
  | .stop => stopThr d n
  | .restart => if isState d n .faulted then restartThr d n else d

/-- A thread command reaches the thread's core; a stopped one holds it until it has woken (R34). -/
def cmdThr (d : Dev) (n : Nat) (c : ThrCmd) : Dev :=
  if (coreOf d (coreNum n)).stopped then
    setCore (wakeRequest d (coreNum n)) (coreNum n) fun k => { k with cmds := k.cmds ++ [(n, c)] }
  else doCmd d n c

/-- The signals held for a core are delivered, each once and in order (R39, R42). -/
def deliver (d : Dev) (c : Nat) : Dev :=
  let k := coreOf d c
  let d := setCore d c fun k => { k with wakeAt := none, posts := [], cmds := [] }
  k.cmds.foldl (fun d e => doCmd d e.1 e.2) (k.posts.foldl (fun d e => orBits d e.1 e.2) d)

/-- A stopped core's clock starts, 2 µs after the wake request where its scratchpad is in retention, otherwise 50 ns, at
most (R35, chapter 10); the request is the one that waits, or comes now. What its crossings held is delivered. -/
def wakeCore (d : Dev) (c : Nat) : Dev :=
  let k := coreOf d c
  if !k.stopped then d
  else
    let d := reach d (k.wakeAt.getD d.now + if k.retained then 2 * ps_us else 50000)
    let d := flushCore d c
    let d := setCore d c fun k => { k with stopped := false, retained := false, idleAt := d.now, portBAt := d.now }
    dispatch (deliver (cnt d (Reg.core c + Reg.coreWakeCnt)) c) c

/-! ## FAULTED (R586, R590 to R592) -/

def captureFault (d : Dev) (n cause : Nat) : Dev :=
  let r := Reg.thr n
  wr (wr (wr d (r + Reg.tFltPc) (thrOf d n).pc.toNat) (r + Reg.tFltCause) cause) (r + Reg.tFltSp) (xr d n 2)

/-- Arguments of notification kinds 2 and 3 (Table 12-7). -/
def faultArgs (d : Dev) (n left : Nat) : List Byte :=
  toLe 4 n ++ toLe 4 (treg d n Reg.tFltCause) ++ toLe 4 (treg d n Reg.tFltPc) ++ toLe 1 left

/-- The cellarmaster is restarted by hardware, or stays FAULTED within 100 ms of a restart. -/
def cmRestart (d : Dev) : Dev :=
  let again := ((thrOf d 0).restartAt.map fun t => decide (d.now - t ≤ 100 * ps_ms)).getD false
  if again then
    let d := d.onCc fun c => { c with cmFatal := true }
    mramTrigger (setFlag (setFlag d Reg.ccSts 8 true) Reg.hkFault 2 true) 6
  else
    let d := setThr (cnt d Reg.cmRestartCnt) 0 fun t => { t with restartAt := some d.now }
    let d := bb d 33 0x31 (toLe 4 (rd d Reg.cmRestartCnt))
    restartThr (d.onCc fun c => { c with wdogAt := d.now }) 0

/-- Entry to FAULTED with a cause word. -/
def faultThr (d : Dev) (n cause : Nat) : Dev :=
  let d := captureFault d n cause
  let d := postBits (cnt d Reg.ccFaultEvc) 0 (1 <<< 31)
  let d := setThr d n fun t => { t with faults := (d.now :: t.faults).take 4 }
  let d := moveThr d n .faulted
  if n = 0 then cmRestart d else if isGuest n then note d 3 (faultArgs d n 1) else d

/-! ## Scratchpad bytes -/

def spmSize : Nat := 0x8_0000

def spmRead (d : Dev) (c a n : Nat) : List Byte := (List.range n).map fun i => tget (0 : Byte) (coreOf d c).spm (a + i)
def spmWrite (d : Dev) (c a : Nat) (l : List Byte) : Dev :=
  setCore d c fun k => { k with spm := (List.range l.length).foldl (fun m i => tput 0 m (a + i) (l.getD i 0)) k.spm }

/-! ## Traps (R580 to R587) -/

/-- The frame [lo, lo + 32) lies in the stack window and the direct window, word aligned (R584). -/
def frameOk (d : Dev) (n sp lo : Nat) : Bool :=
  decide (sp % 4 = 0 ∧ treg d n Reg.tStkLo ≤ lo ∧ lo + 32 ≤ treg d n Reg.tStkHi ∧ lo + 32 ≤ spmSize)

/-- Push the frame of Table 10-5 and continue at `TVEC`. -/
def pushFrame (d : Dev) (n cause tval : Nat) : Dev :=
  let t := thrOf d n
  let lo := xr d n 2 - 32
  let words := [t.pc.toNat, cause, tval, t.depth + 4 * b2n t.ie, xr d n 1, xr d n 5, xr d n 10, xr d n 11]
  let d := spmWrite d (coreNum n) lo (words.flatMap (toLe 4))
  let d := setThr d n fun t =>
    { t with depth := t.depth + 1, ie := false, pc := BitVec.ofNat 32 (treg d n Reg.tTvec), codes := cause % 256 :: t.codes,
             sampleHeld := t.sampleHeld || t.sampleDue, sampleDue := false }
  perfAdd (setX (setX (setX d n 2 lo) n 10 cause) n 11 tval) n 8 1

/-- A trap of code 0 to 8 or 32 with its cause word: the nest limit, then the stacking fault, then a `TVEC` of 0 (log entry 40). -/
def trapThr (d : Dev) (n cause tval : Nat) : Dev :=
  let code := cause % 256
  let sp := xr d n 2
  if (thrOf d n).depth = 3 then faultThr d n (20 + 256 * code)
  else if sp < 32 ∨ !frameOk d n sp (sp - 32) then faultThr d n (17 + 256 * code)
  else if treg d n Reg.tTvec = 0 then faultThr d n cause
  else pushFrame d n cause tval

/-- The asynchronous trap of code 32, counted in `SAMPLES` when it is taken to `TVEC`. -/
def takeSample (d : Dev) (n : Nat) (late : Bool) (skid : Nat) : Dev :=
  let d := setThr d n fun t => { t with sampleDue := false, sampleHeld := false }
  let e := trapThr d n (32 + 2 ^ 30 * b2n late + 2 ^ 31) skid
  if isState e n .faulted then e else perfAdd e n 15 1

/-- k instructions of the thread retire. After the sixth since a sample fell due its trap is taken, if it has not been (R622). -/
def retireK (d : Dev) (n k : Nat) : Dev :=
  let d := perfAdd d n 1 k
  let t := thrOf d n
  if t.sampleDue && t.ie && decide (6 ≤ t.skid) then takeSample d n false 6 else d

def retire (d : Dev) (n : Nat) : Dev := retireK d n 1

/-- Codes of Table 10-7 that carry an address or the instruction bits as tval (Table 10-5). -/
def codeTval (code tval : Nat) : Nat := if code = 3 ∨ code = 8 then 0 else tval

/-- A guest access that no region permits (R594). -/
def regionViolation (d : Dev) (n addr : Nat) : Dev :=
  faultThr (perfAdd (wr d (Reg.rgnDenied (n - 28)) addr) n 14 1) n 16

/-! ## Region checker (R593 to R596) -/

/-- Enabled region i of guest g contains [a, a + n) and grants access kind bit k: 0 R, 1 W, 2 X. -/
def regionHas (d : Dev) (g i a n k : Nat) : Bool :=
  let b := rd d (Reg.rgnBase g i)
  bit b 3 && bit b k && decide (b / 64 * 64 ≤ a ∧ a + n ≤ rd d (Reg.rgnLimit g i) / 64 * 64)

def guestMay (d : Dev) (n a len k : Nat) : Bool := !isGuest n || (List.range 8).any fun i => regionHas d (n - 28) i a len k

/-! ## Both ports in one cycle (R601 to R603) -/

/-- An access through port B takes the scratchpad out of retention; the core stays stopped (R612). -/
def portB (d : Dev) (c : Nat) : Dev :=
  let d := if (coreOf d c).retained then reach d (d.now + 2 * ps_us) else d
  setCore d c fun k => { k with retained := false, portBAt := d.now }

/-- Port B writes in the cycle in which port A wrote bytes [a, a + n), none where n is 0: its data is applied last and stays
(R602), and the cycle counts where a byte that both touch differs (R603). -/
def portBWrite (d : Dev) (c a n : Nat) (other : Option SpmOther) : Dev :=
  match other with
  | none => d
  | some (.read _) => d
  | some (.write b) =>
    let clash := (List.range b.data.length).any fun i =>
      decide (a ≤ b.addr + i ∧ b.addr + i < a + n) && decide (spmRead d c (b.addr + i) 1 ≠ (b.data.drop i).take 1)
    let d := portB d c
    spmWrite (if clash then cnt d (Reg.core c + Reg.spmColl) else d) c b.addr b.data

/-- Port B reads in that cycle: what port A stores in it, it returns (R601), to the host's window or to the thread whose load it is. -/
def portBRead (d : Dev) (c : Nat) (other : Option SpmOther) : Dev :=
  match other with
  | none => d
  | some (.write _) => d
  | some (.read r) =>
    let v := leVal (spmRead d c r.addr r.size)
    match r.dest with
    | none => readData (portB d c) v
    | some (m, x) => setX (portB d c) m x v

/-- Thread n's access with port B's write of the cycle. Port A wrote a trap's frame if the nest depth has grown; an atomic access
of a window keeps port B waiting until it has ended (R606), so the two do not meet in one cycle. -/
def withWrite (n : Nat) (other : Option SpmOther) (f : Dev → Dev) (d : Dev) : Dev :=
  let e := f d
  portBWrite e (coreNum n) (xr e n 2) (if (thrOf d n).depth < (thrOf e n).depth then 32 else 0) other

/-- Thread n's access with port B's own of the cycle. -/
def withFrame (n : Nat) (other : Option SpmOther) (f : Dev → Dev) (d : Dev) : Dev :=
  portBRead (withWrite n other f d) (coreNum n) other

/-- A synchronous trap of the running thread. -/
def trap (n code tval : Nat) (d : Dev) : Dev :=
  if !isState d n .running then d
  else if code ≤ 8 then trapThr d n code (codeTval code tval)
  else if code = 16 then (if isGuest n then regionViolation d n tval else d)
  else if code = 19 then faultThr (cnt d (Reg.core (coreNum n) + Reg.spmEccUncorr)) n 19
  else d

/-- Word of `TRET` with every field that it does not use 0: custom-0 alone (R575). -/
def tretWord : Nat := 0xB

/-- The read of the frame meets an error (R604). -/
def frameRead (n ecc : Nat) (pop : Dev → Dev) (d : Dev) : Dev :=
  let r := Reg.core (coreNum n)
  if ecc = 2 then faultThr (cnt d (r + Reg.spmEccUncorr)) n 19 else pop (if ecc = 1 then cnt d (r + Reg.spmEccCorr) else d)

/-- Restore from the frame at sp (R583). -/
def popFrame (d : Dev) (n : Nat) : Dev :=
  let sp := xr d n 2
  let w := fun i => le (spmRead d (coreNum n) (sp + 4 * i) 4) 0 4
  let d := setThr d n fun t => { t with pc := BitVec.ofNat 32 (w 0), depth := bits (w 3) 0 2, ie := bit (w 3) 2, codes := t.codes.tail }
  retire (setX (setX (setX (setX (setX d n 1 (w 4)) n 5 (w 5)) n 10 (w 6)) n 11 (w 7)) n 2 (sp + 32)) n

/-- `TRET` as the word `w`, which is tval where the nest depth is 0. -/
def tret (n w ecc : Nat) (d : Dev) : Dev :=
  if !isState d n .running then d
  else if (thrOf d n).depth = 0 then trapThr d n 2 w
  else if !frameOk d n (xr d n 2) (xr d n 2) then faultThr d n (18 + 256 * (thrOf d n).codes.headD 0)
  else frameRead n ecc (popFrame · n) d

/-- Port B's write of the cycle stands before port A reads the frame: the read returns what it stores (R601). A `TRET` at
depth 0 writes a trap's frame. -/
def tretBoth (n ecc : Nat) (other : Option SpmOther) (d : Dev) : Dev :=
  let c := coreNum n
  if (thrOf d n).depth = 0 then withFrame n other (tret n tretWord ecc) d
  else portBRead (tret n tretWord ecc (portBWrite d c 0 0 other)) c other

def execTret (thr : Nat) (s : State) (other : Option SpmOther := none) (ecc : Nat := 0) : Host.Outcome State Fault Refusal :=
  s.runIf (Instr.tret thr other ecc).wf (tretBoth thr ecc other)

/-! ## TWAIT, TYIELD, TPOST (R576 to R579) -/

/-- pc moves past a threading instruction. -/
def nextPc (d : Dev) (n : Nat) : Dev := retire (setThr d n fun t => { t with pc := t.pc + 4 }) n

def pendMasked (d : Dev) (n : Nat) : Nat := treg d n Reg.tEvtPend &&& treg d n Reg.tEvtMask

/-- (`CYCLE_LO` − target) read as a signed value is 0 or more. -/
def timeReached (d : Dev) (n : Nat) : Bool := decide (0 ≤ diff32 (ccCycle d) (treg d n Reg.tTcmp))

/-- `TWAIT` ends: rd receives the masked bits, which are cleared (R577). -/
def endWait (d : Dev) (n r : Nat) : Dev :=
  let b := pendMasked d n
  let d := wr d (Reg.thr n + Reg.tEvtPend) (treg d n Reg.tEvtPend - b)
  nextPc (perfAdd (setX d n r b) n 13 (ones 32 b).length) n

def twait (n r s1 s2 : Nat) (d : Dev) : Dev :=
  if !isState d n .running then d
  else
    let target := xr d n s1
    let d := wr d (Reg.thr n + Reg.tEvtMask) (xr d n s2)
    let d := if s1 = 0 then d else wr d (Reg.thr n + Reg.tTcmp) target
    if pendMasked d n ≠ 0 ∨ (s1 ≠ 0 ∧ timeReached d n = true) then endWait d n r
    else moveThr (setThr d n fun t => { t with rd := r, timed := decide (s1 ≠ 0) }) n .waiting

def execTwait (thr rd rs1 rs2 : Nat) (s : State) : Host.Outcome State Fault Refusal :=
  s.runIf (Instr.twait thr rd rs1 rs2).wf (twait thr rd rs1 rs2)

/-- A masked event is pending, or time runs on to the timer target; on a stopped core the thread runs once the core has woken
(R34). -/
def twaitWake (n : Nat) (d : Dev) : Dev :=
  let t := thrOf d n
  if t.state ≠ .waiting ∨ (pendMasked d n = 0 ∧ t.timed = false) then d
  else
    let d := if pendMasked d n ≠ 0 ∨ timeReached d n then d
      else reach d (d.boot.releasedAt + 1000 * (ccCycle d + sub32 (treg d n Reg.tTcmp) (ccCycle d)))
    let d := endWait (moveThr d n .ready) n t.rd
    if (coreOf d (coreNum n)).stopped then wakeRequest d (coreNum n) else d

def execTwaitWake (thr : Nat) (s : State) : Host.Outcome State Fault Refusal := s.runIf (Instr.twaitWake thr).wf (twaitWake thr)

/-- No effect but its own pc if no other thread is READY. -/
def tyield (n : Nat) (d : Dev) : Dev :=
  if !isState d n .running then d
  else
    let d := nextPc d n
    if isState d n .running && (List.range 8).any fun h => isState d (8 * coreNum n + h) .ready then moveThr d n .ready else d

def execTyield (thr : Nat) (s : State) : Host.Outcome State Fault Refusal := s.runIf (Instr.tyield thr).wf (tyield thr)

/-- rs1 names the thread by its low five bits; a guest posts only where its `RGN_POST` permits it (R596). -/
def tpost (n r1 r2 : Nat) (d : Dev) : Dev :=
  if !isState d n .running then d
  else if isGuest n && !flag d (Reg.rgnPost (n - 28)) (r1 % 32) then faultThr (perfAdd d n 14 1) n 16
  else nextPc (postBits d (r1 % 32) r2) n

def execTpost (thr rs1 rs2 : Nat) (s : State) : Host.Outcome State Fault Refusal :=
  s.runIf (Instr.tpost thr rs1 rs2).wf (tpost thr rs1 rs2)

/-! ## Stalls (R570, R573) -/

/-- The running thread switches out on a long stall. -/
def stall (d : Dev) (n : Nat) : Dev := moveThr (perfAdd d n 2 1) n .stalled

/-- The running thread issues an access that leaves the scratchpad: it counts, and the thread switches out in that cycle (R570,
R573), unless it has just faulted. -/
def issueOff (d : Dev) (n : Nat) : Dev :=
  let d := perfAdd d n 5 1
  if isState d n .running then stall d n else d

/-- A stop that waited for the access takes effect now. -/
def stallEnd (n : Nat) (d : Dev) : Dev :=
  if !isState d n .stalled then d
  else if (thrOf d n).stopping then moveThr (setThr d n fun t => { t with stopping := false }) n .off
  else moveThr d n .ready

def execStallEnd (thr : Nat) (s : State) : Host.Outcome State Fault Refusal := s.runIf (Instr.stallEnd thr).wf (stallEnd thr)

/-! ## THR_CMD and CM_WDOG (R588, R589) -/

/-- `size` bytes that no rule states. -/
def freeBytes (d : Dev) (size : Nat) : Nat × Dev := let (x, d) := fresh d; (x % 256 ^ size, d)

/-- pc moves past an instruction of k bytes, which retires. -/
def advance (d : Dev) (n k : Nat) : Dev := retire (setThr d n fun t => { t with pc := t.pc + BitVec.ofNat 32 k }) n

/-- pc moves past an access of 2 or 4 bytes of code, which of the two the command does not say. -/
def pastAccess (d : Dev) (n : Nat) : Dev := let (x, d) := fresh d; advance d n (2 + 2 * (x % 2))

/-- A running thread's store to a device register, which leaves the scratchpad; a guest's needs a region (R593, R594). -/
def regStore (w addr : Nat) (f : Dev → Dev) (d : Dev) : Dev :=
  if !isState d w .running then d
  else if !guestMay d w (0x4000_0000 + addr) 4 1 then regionViolation d w (0x4000_0000 + addr)
  else f (issueOff (pastAccess d w) w)

/-- A store to a register that only the cellarmaster writes: another running thread takes a store access fault (R588), a guest
whose regions do not permit the store the fault of R594. -/
def cmStore (w addr : Nat) (f : Dev → Dev) (d : Dev) : Dev :=
  if w ≠ 0 ∧ isState d w .running ∧ guestMay d w (0x4000_0000 + addr) 4 1 then trapThr d w 7 (0x4000_0000 + addr)
  else regStore w addr f d

def thrCmdAddr (n : Nat) : Nat := Reg.thr n + 0x30

def thrCmdStart (w n : Nat) (d : Dev) : Dev :=
  cmStore w (thrCmdAddr n) (fun d => cmdThr d n .start) d

def execThrCmdStart (writer thr : Nat) (s : State) (other : Option SpmOther := none) : Host.Outcome State Fault Refusal :=
  s.runIf (Instr.thrCmdStart writer thr other).wf (withFrame writer other (thrCmdStart writer thr))

def thrCmdStop (w n : Nat) (d : Dev) : Dev := cmStore w (thrCmdAddr n) (fun d => cmdThr d n .stop) d

def execThrCmdStop (writer thr : Nat) (s : State) (other : Option SpmOther := none) : Host.Outcome State Fault Refusal :=
  s.runIf (Instr.thrCmdStop writer thr other).wf (withFrame writer other (thrCmdStop writer thr))

def thrCmdRestart (w n : Nat) (d : Dev) : Dev :=
  cmStore w (thrCmdAddr n) (fun d => cmdThr d n .restart) d

def execThrCmdRestart (writer thr : Nat) (s : State) (other : Option SpmOther := none) : Host.Outcome State Fault Refusal :=
  s.runIf (Instr.thrCmdRestart writer thr other).wf (withFrame writer other (thrCmdRestart writer thr))

/-- A write by the cellarmaster restarts the watchdog; another thread's changes nothing (R589). -/
def wdogWrite (w : Nat) (d : Dev) : Dev := if w = 0 then d.onCc fun c => { c with wdogAt := d.now } else d

def cmWdog (w : Nat) (d : Dev) : Dev := regStore w Reg.cmWdog (wdogWrite w) d

def execCmWdog (writer : Nat) (s : State) : Host.Outcome State Fault Refusal := s.runIf (Instr.cmWdog writer).wf (cmWdog writer)

/-- 1 s without a write of `CM_WDOG`; the fault crosses into core 0, and wakes it if it is stopped (R34). -/
def cellarmasterWatchdog (d : Dev) : Dev :=
  if !d.boot.fwRunning || isState d 0 .faulted || isState d 0 .off then d
  else faultThr (wakeCore (reach d (d.cc.wdogAt + ps_s)) 0) 0 22

def execCellarmasterWatchdog (s : State) : Host.Outcome State Fault Refusal :=
  s.runIf Instr.cellarmasterWatchdog.wf cellarmasterWatchdog

/-- The cellarmaster acts: Ralku runs and thread 0 is not FAULTED. -/
def cmAlive (d : Dev) : Bool := d.boot.fwRunning && !isState d 0 .faulted

/-- Faults of the thread within the last 10 s. -/
def recentFaults (d : Dev) (n : Nat) : Nat := ((thrOf d n).faults.filter fun t => decide (d.now - t ≤ 10 * ps_s)).length

/-- A firmware thread's fault is recorded and the thread restarted; at the fourth fault in 10 s it is left FAULTED (Table 10-8). -/
def firmwareThreadRestart (n : Nat) (d : Dev) : Dev :=
  if !cmAlive d || n = 0 || isGuest n || !isState d n .faulted || (thrOf d n).left then d
  else
    let d := bb d 33 0x30 (toLe 4 n ++ toLe 4 (treg d n Reg.tFltCause) ++ toLe 4 (treg d n Reg.tFltPc) ++ toLe 4 (treg d n Reg.tFltSp))
    if 4 ≤ recentFaults d n then note (healthEvent (setThr d n fun t => { t with left := true }) 12 (toLe 1 n)) 2 (faultArgs d n 1)
    else cmdThr (note d 2 (faultArgs d n 0)) n .restart

def execFirmwareThreadRestart (thr : Nat) (s : State) : Host.Outcome State Fault Refusal :=
  s.runIf (Instr.firmwareThreadRestart thr).wf (firmwareThreadRestart thr)

/-- A guest that has run for 100,000 consecutive cycles (R597). -/
def guestRunLimit (n cycles : Nat) (d : Dev) : Dev :=
  if !isGuest n || !isState d n .running || decide (cycles < 100000) then d
  else faultThr (reach d ((thrOf d n).runAt + 100000 * 1000)) n 21

def execGuestRunLimit (thr cycles : Nat) (s : State) : Host.Outcome State Fault Refusal :=
  s.runIf (Instr.guestRunLimit thr cycles).wf (guestRunLimit thr cycles)

/-! ## Sampling (R621 to R623) -/

/-- k occurrences of an event that no other command counts: they count in the thread's counter, and fall in its countdown where it
is the sampled one (R620, R621). -/
def sampleCountdown (n k ev : Nat) (d : Dev) : Dev := if ev = 1 then retireK d n k else perfAdd d n ev k

def execSampleCountdown (thr n : Nat) (s : State) (ev : Nat := 1) : Host.Outcome State Fault Refusal :=
  s.runIf (Instr.sampleCountdown thr n ev).wf (sampleCountdown thr n ev)

/-- The sample of a thread that runs is taken, counted up to now. The instructions of `skid` that no command has retired retire first. -/
def sampleTrap (n skid : Nat) (d : Dev) : Dev :=
  let d := flushThr d n
  let t := thrOf d n
  if t.state ≠ .running ∨ t.ie = false then d
  else if t.sampleHeld then takeSample d n true 7
  else if t.sampleDue ∧ skid ≤ 6 then takeSample (perfAdd d n 1 (skid - t.skid)) n false (max skid t.skid)
  else d

def execSampleTrap (thr skid : Nat) (s : State) (other : Option SpmOther := none) : Host.Outcome State Fault Refusal :=
  s.runIf (Instr.sampleTrap thr skid other).wf (withFrame thr other (sampleTrap thr skid))

/-! ## Core clocks and retention (R34, R35, R574, R611, R612) -/

/-- A thread of the core whose wait ends now: a masked event is pending or the timer target is reached. -/
def waitEnds (d : Dev) (c : Nat) : Bool :=
  (List.range 8).any fun h =>
    let n := 8 * c + h
    isState d n .waiting && (decide (pendMasked d n ≠ 0) || ((thrOf d n).timed && timeReached d n))

/-- A signal that arrives before the clock has stopped cancels the stop (R39). -/
def coreClockStop (c : Nat) (d : Dev) : Dev :=
  let k := coreOf d c
  if !alive d || k.stopped || coreBusy d c || !flag d (Reg.core c + Reg.corePwr) 0 then d
  else
    let d := reach d (k.idleAt + 256 * 1000)
    if waitEnds d c then d
    else setCore (flushCore d c) c fun k => { k with stopped := true, stoppedAt := d.now }

def execCoreClockStop (core : Nat) (s : State) : Host.Outcome State Fault Refusal :=
  s.runIf (Instr.coreClockStop core).wf (coreClockStop core)

def spmRetentionEntry (c : Nat) (d : Dev) : Dev :=
  let k := coreOf d c
  if !k.stopped || k.retained || k.wakeAt.isSome || !flag d (Reg.core c + Reg.corePwr) 1 then d
  else setCore (reach d (max k.stoppedAt k.portBAt + 100 * ps_us)) c fun k => { k with retained := true }

def execSpmRetentionEntry (core : Nat) (s : State) : Host.Outcome State Fault Refusal :=
  s.runIf (Instr.spmRetentionEntry core).wf (spmRetentionEntry core)

def islandWake (i : Nat) (d : Dev) : Dev :=
  if !alive d then d
  else if i < 4 then wakeCore d i
  else stackUp d (i - 4)

def execIslandWake (island : Nat) (s : State) : Host.Outcome State Fault Refusal :=
  s.runIf (Instr.islandWake island).wf (islandWake island)

/-! ## Bit-set and bit-clear windows (R606, R607) -/

/-- A window access to core c's scratchpad: the word loaded, and the memory after it. Within one word it has the stated effect. Of an
access that crosses a word boundary Table 10-9 states neither the word loaded nor the bytes stored: both are free (log entry 92). -/
def windowRaw (c a size : Nat) (load : Bool) (data : Nat) (onLoad : Nat → Nat) (onStore : Nat → Nat → Nat) (d : Dev) : Nat × Dev :=
  if a % 4 + size ≤ 4 then
    let old := le (spmRead d c a size) 0 size
    (old, spmWrite d c a (toLe size (if load then onLoad old else onStore old (data % 256 ^ size))))
  else
    let (x, d) := freeBytes d size
    let (y, d) := freeBytes d 4
    (y, spmWrite d c a (toLe size x))

/-- What the windows do with a word: a load through the set window sets its bit 0, one through the clear window writes 0; stores set or
clear the bits of their data (Table 10-9). -/
def onWindowLoad (clear : Bool) (w : Nat) : Nat := if clear then 0 else w ||| 1
def onWindowStore (clear : Bool) (w x : Nat) : Nat := if clear then w - (w &&& x) else w ||| x

/-- A window access of the running thread to its own scratchpad. -/
def windowDo (n a size : Nat) (load : Bool) (r data : Nat) (clear : Bool) (d : Dev) : Dev :=
  let (v, d) := windowRaw (coreNum n) a size load data (onWindowLoad clear) (onWindowStore clear) (perfAdd d n 12 1)
  pastAccess (if load then setX d n r v else d) n

/-- A window access of the running thread. One that runs past the scratchpad leaves the windows of Table 10-1: an access fault (R567). -/
def windowAccess (win n a size : Nat) (load : Bool) (r data : Nat) (clear : Bool) (d : Dev) : Dev :=
  let addr := win + a
  if !isState d n .running then d
  else if !guestMay d n addr size (if load then 0 else 1) then regionViolation d n addr
  else if load && decide (size ≠ 4) then trapThr d n 5 addr
  else if spmSize < a + size then trapThr d n (if load then 5 else 7) addr
  else windowDo n a size load r data clear d

/-- A load returns the word and sets its bit 0; a store ORs its data in. -/
def spmBitset (n a size : Nat) (load : Bool) (r data : Nat) (d : Dev) : Dev :=
  windowAccess 0x20_0000 n a size load r data false d

def execSpmBitsetAccess (thr addr size : Nat) (load : Bool) (rd data : Nat) (s : State) (other : Option SpmOther := none) :
    Host.Outcome State Fault Refusal :=
  s.runIf (Instr.spmBitsetAccess thr addr size load rd data other).wf (withFrame thr other (spmBitset thr addr size load rd data))

/-- A load returns the word and writes 0; a store clears the bits of its data. -/
def spmBitclear (n a size : Nat) (load : Bool) (r data : Nat) (d : Dev) : Dev :=
  windowAccess 0x30_0000 n a size load r data true d

def execSpmBitclearAccess (thr addr size : Nat) (load : Bool) (rd data : Nat) (s : State) (other : Option SpmOther := none) :
    Host.Outcome State Fault Refusal :=
  s.runIf (Instr.spmBitclearAccess thr addr size load rd data other).wf (withFrame thr other (spmBitclear thr addr size load rd data))

/-! ## Background test (R608 to R613) -/

/-- One 64-byte region is tested; the cellarmaster reports a failure (Table 10-8). -/
def spmTest (c : Nat) (bad : Option Nat) (d : Dev) : Dev :=
  let k := coreOf d c
  if !alive d || k.retained then d
  else
    let d := reach d (k.testAt + ps_ms)
    let d := setCore d c fun k => { k with testAt := d.now, region := (k.region + 1) % 8192 }
    match bad with
    | none => d
    | some i =>
      let r := Reg.core c
      let d := raiseEvt (cnt (wr d (r + Reg.spmTestLast) (64 * k.region + 4 * (i % 16))) (r + Reg.spmTestEvc)) 29
      let args := toLe 4 c ++ toLe 4 (rd d (r + Reg.spmTestLast))
      if cmAlive d then healthEvent (bb d 33 0x32 args) 13 args else d

def execSpmBackgroundTest (core : Nat) (bad : Option Nat) (s : State) : Host.Outcome State Fault Refusal :=
  s.runIf (Instr.spmBackgroundTest core bad).wf (spmTest core bad)

/-! ## The cooper's ports (R614 to R619) -/

/-- A requester below 32 is a thread: its load or store leaves the scratchpad, so that it switches out, and for a guest needs a region.
A thread that is STALLED has issued it before (R573): it waits for the cooper. -/
def cooperPort (req addr k : Nat) (f : Dev → Dev) (d : Dev) : Dev :=
  if 32 ≤ req then (if alive d then f d else d)
  else if isState d req .stalled then (if guestMay d req addr 4 k then f d else d)
  else if !isState d req .running then d
  else if !guestMay d req addr 4 k then regionViolation d req addr
  else f (issueOff (pastAccess d req) req)

/-- A request and the result word of chapter 10, which a thread's load leaves in x`r`. -/
def cooperRequest (req n r : Nat) (d : Dev) : Dev :=
  let (st, off, d) := coopAlloc d req n
  let w := if st = 0 then off else 2 ^ 31 + st
  let d := d.onCc fun c => { c with answer := w, answers := tins c.answers req w }
  if 32 ≤ req then d else perfAdd (setX d req r w) req (if st = 0 then 9 else 10) 1

/-- A request of n × 256 bytes at the allocation port; the port ends at n = 127, beyond which a thread's load is to an address that
Table 10-1 does not map (R567). -/
def cooperAsk (regs : List (Nat × Nat)) (d : Dev) (e : Nat × Nat) : Dev :=
  let (req, n) := e
  let addr := 0x2100_0000 + 4 * n
  if req < 32 ∧ 128 ≤ n then
    if !isState d req .running then d
    else if !guestMay d req addr 4 0 then regionViolation d req addr
    else trapThr d req 5 addr
  else cooperPort req addr 0 (cooperRequest req n (((regs.find? fun e => decide (e.1 = req)).map (·.2)).getD 0)) d

def cooperFree (req off : Nat) (d : Dev) : Dev := cooperPort req 0x2100_1000 1 (fun d => coopFree d req off) d

/-- Requests of one cooper cycle in ascending order of requester ID (R618). -/
def byRequester (reqs : List (Nat × Nat)) : List (Nat × Nat) := (List.range 64).flatMap fun r => reqs.filter fun e => decide (e.1 = r)

/-- A cooper cycle: requests are served by ascending requester ID; what is freed in it is available from the next cycle (R618). -/
def cooperAlloc (reqs frees regs : List (Nat × Nat)) (d : Dev) : Dev :=
  let d := d.onCc fun c => { c with answers := [] }
  frees.foldl (fun d e => cooperFree e.1 e.2 d) ((byRequester reqs).foldl (cooperAsk regs) d)

def execCooperAlloc (reqs frees : List (Nat × Nat)) (s : State) (regs : List (Nat × Nat) := []) : Host.Outcome State Fault Refusal :=
  s.runIf (Instr.cooperAlloc reqs frees regs).wf (cooperAlloc reqs frees regs)

def execCooperFree (req off : Nat) (s : State) : Host.Outcome State Fault Refusal :=
  s.runIf (Instr.cooperFree req off).wf (cooperFree req off)

/-! ## User page (R625) -/

def readPerf (d : Dev) (n e : Nat) : Nat := rd (flushThr d n) (Reg.perf n e)

/-- A counter that may be read is one of the thread's core: the read wakes a stopped core first (R40). -/
def perfUserPage (n e : Nat) (d : Dev) : Dev :=
  if !barUp d then d
  else if flag d Reg.perfUserPerm n then
    let d := flushThr (wakeCore d (coreNum n)) n
    readData d (rd d (Reg.perf n e))
  else cnt (readData d 0) Reg.perfDenied

def execPerfUserPageRead (thr e : Nat) (s : State) : Host.Outcome State Fault Refusal :=
  s.runIf (Instr.perfUserPageRead thr e).wf (perfUserPage thr e)

end Sys2Proof.Machine
end

