-- ==== Sys2Proof/Machine/Guests.lean ====
section
/-! DEFINITION. Guest slots (R598 to R600, R710, Table 12-16): thread 28 + s of slot s. -/

namespace Sys2Proof.Machine

/-- First scratchpad byte of a slot's 32 KiB in core 3. -/
def slotBase (s : Nat) : Nat := 0x6_0000 + 0x8000 * s
def slotSize : Nat := 0x8000

def slotFree (d : Dev) (s : Nat) : Bool := isState d (28 + s) .off || isState d (28 + s) .faulted

/-- CRC-32C of a slot's 32 KiB. -/
def slotCrc (d : Dev) (s : Nat) : Nat := crc32c (spmRead d 3 (slotBase s) slotSize)

/-- The image lies in the slot from its offset; port B writes it. -/
def putImage (d : Dev) (s off : Nat) (img : List Byte) : Dev :=
  let d := spmWrite (portB d 3) 3 (slotBase s + off) img
  putCfg d 45 s (toLe 4 (slotCrc d s))

def guestLoadRes (d : Dev) (sl : Slot) : Res :=
  let l := sl.payload
  let s := le l 0 1
  let off := le l 2 2
  let img := l.drop 4
  if 3 < s ∨ le l 1 1 ≠ 0 ∨ off % 4 ≠ 0 ∨ slotSize < off + img.length then fail d eArg
  else if !slotFree d s then fail d eState
  else
    let d := putImage d s off img
    { dev := d, payload := toLe 4 (slotCrc d s), vint := true }

def guestLoad (ch : Nat) (d : Dev) : Dev := runCmd d ch 0x901 0 anySlot (fun sl => decide (4 ≤ sl.len)) guestLoadRes

def execGuestLoad (ch : Nat) (s : State) : Host.Outcome State Fault Refusal := s.runIf (Instr.guestLoad ch).wf (guestLoad ch)

/-! ## GUEST_START -/

/-- A region as the registers hold it: `RGN_BASE` and `RGN_LIMIT`. -/
structure Rgn where
  base : Nat
  limit : Nat

/-- Regions 0 to 3: the slot's 32 KiB in the four windows, with R, W and X. -/
def slotRgn (s w : Nat) : Rgn := { base := 0x10_0000 * w + slotBase s + 15, limit := 0x10_0000 * w + slotBase s + slotSize }

/-- Region 4 + i of the payload. -/
def payRgn (l : List Byte) (i : Nat) : Rgn :=
  { base := le l (24 + 16 * i) 4 / 64 * 64 + le l (32 + 16 * i) 1 % 16, limit := le l (28 + 16 * i) 4 / 64 * 64 }

def guestRgns (s : Nat) (l : List Byte) : List Rgn := (List.range 4).map (slotRgn s) ++ (List.range 4).map (payRgn l)

def Rgn.has (r : Rgn) (a n : Nat) : Bool := bit r.base 3 && decide (r.base / 64 * 64 ≤ a ∧ a + n ≤ r.limit)

/-- Region of the payload that R710 refuses, if there is one. -/
def badRgn (l : List Byte) : Option Nat :=
  (List.range 4).find? fun i =>
    let r := payRgn l i
    let b := r.base / 64 * 64
    bit r.base 3 && (bit r.base 1 || bit r.base 2 ||
      !decide ((0x40_1000 ≤ b ∧ r.limit ≤ 0x40_2000) ∨ (0x4080_0000 ≤ b ∧ r.limit ≤ 0x4200_0000)))

/-- The stack window and `TVEC` lie within enabled regions (R599). -/
def guestVecOk (s : Nat) (l : List Byte) : Bool :=
  let rs := guestRgns s l
  let lo := le l 12 4
  let hi := le l 16 4
  decide (lo ≤ hi) && rs.any (·.has lo (hi - lo)) && rs.any (·.has (le l 8 4) 1)

def guestPayloadOk (l : List Byte) : Bool :=
  decide (le l 0 1 ≤ 3 ∧ le l 1 1 < 8 ∧ le l 2 2 = 0) &&
    (List.range 4).all fun i => decide (le l (24 + 16 * i) 4 % 64 = 0 ∧ le l (28 + 16 * i) 4 % 64 = 0 ∧ le l (32 + 16 * i) 1 < 16 ∧ le l (33 + 16 * i) 7 = 0)

/-- Set the slot's regions, vectors, windows and permissions. -/
def setGuest (d : Dev) (l : List Byte) : Dev :=
  let s := le l 0 1
  let r := Reg.thr (28 + s)
  let rs := guestRgns s l
  let d := (List.range 8).foldl (fun d i =>
    let x := rs.getD i { base := 0, limit := 0 }
    wr (wr d (Reg.rgnBase s i) x.base) (Reg.rgnLimit s i) x.limit) d
  let d := wr (wr d (r + Reg.tRestartVec) (le l 4 4)) (r + Reg.tTvec) (le l 8 4)
  let d := wr (wr d (r + Reg.tStkLo) (le l 12 4)) (r + Reg.tStkHi) (le l 16 4)
  wr (wr d (Reg.rgnPost s) (le l 20 4)) (r + Reg.tPerfPerm) (bits (le l 1 1) 1 2)

def guestStartRes (d : Dev) (sl : Slot) : Res :=
  let l := sl.payload
  let n := 28 + le l 0 1
  if !guestPayloadOk l then fail d eArg
  else
    match badRgn l with
    | some i => fail d eArg (4 + i)
    | none =>
      if !guestVecOk (le l 0 1) l then fail d eArg
      else if !slotFree d (le l 0 1) then fail d eState
      else
        let d := setGuest d l
        { dev := cmdThr d n (if isState d n .faulted then .restart else .start) }

/-- Bit 0 of byte 1: `STOP`. -/
def stopBit (sl : Slot) : Bool := bit (le sl.payload 1 1) 0

def guestStart (ch : Nat) (d : Dev) : Dev := runCmd d ch 0x902 0 (fun sl => !stopBit sl) (lenIs 88) guestStartRes

def execGuestStart (ch : Nat) (s : State) : Host.Outcome State Fault Refusal := s.runIf (Instr.guestStart ch).wf (guestStart ch)

/-- `STOP` uses the slot number alone. -/
def guestStopRes (d : Dev) (sl : Slot) : Res :=
  if 3 < le sl.payload 0 1 then fail d eArg else { dev := cmdThr d (28 + le sl.payload 0 1) .stop }

def guestStop (ch : Nat) (d : Dev) : Dev := runCmd d ch 0x902 0 stopBit (lenIs 88) guestStopRes

def execGuestStop (ch : Nat) (s : State) : Host.Outcome State Fault Refusal := s.runIf (Instr.guestStop ch).wf (guestStop ch)

end Sys2Proof.Machine
end

