-- ==== Sys2Proof/Machine/Telemetry.lean ====
section
/-! DEFINITION. Snapshots and totals, the tasting log, mirror sessions, the sketch's windows, and the black box (chapter 13). -/

namespace Sys2Proof.Machine

/-! ## Snapshots (R711 to R719) -/

def snapBusy (d : Dev) : Bool := flag d Reg.snapSts 0

/-- A request within the crossing time of the one that started the snapshot, 3 cycles of the slowest island's clock or 3.8 ns, merges
with it (R32, R36, Table 01-9). -/
def snapMerges (d : Dev) : Bool :=
  snapBusy d && !flag d Reg.snapSts 1 && d.tel.shot.isNone && decide (d.now < d.tel.snapAt + 3800)

/-- A request starts a snapshot, or marks one pending while one runs (R718). -/
def snapRequest (d : Dev) : Dev :=
  if snapMerges d then d
  else if snapBusy d then setFlag d Reg.snapSts 1 true
  else (setFlag d Reg.snapSts 0 true).onTel fun t => { t with snapAt := d.now }

/-- Number of the snapshot that serves a request made now (R718, R719). -/
def snapNumber (d : Dev) : Nat := (rd d Reg.snapSeq + 1 + b2n (snapBusy d && !snapMerges d)) % two32

def snapCmd (d : Dev) : Dev := onFw d snapRequest

def execSnapCmd (s : State) : Host.Outcome State Fault Refusal := s.runIf Instr.snapCmd.wf snapCmd

/-- Every island latches its counters at one tick (R712 to R716). -/
def snapshotTick (d : Dev) : Dev :=
  if !snapBusy d || d.tel.shot.isSome then d
  else
    let d := (List.range 4).foldl flushCore d
    d.onTel fun t => { t with shot := some (d.regs.filter fun e => Reg.snapped e.1, t.wraps, extTime d) }

def execSnapshotTick (s : State) : Host.Outcome State Fault Refusal := s.runIf Instr.snapshotTick.wf snapshotTick

/-- The response of a `SNAPSHOT`: number and extended time. -/
def snapRsp (d : Dev) : List Byte := toLe 4 (rd d Reg.snapSeq) ++ toLe 4 (rd d Reg.snapTimeLo) ++ toLe 4 (rd d Reg.snapTimeHi)

/-- Complete the `SNAPSHOT` command of channel ch if this snapshot serves it. -/
def snapServe (d : Dev) (ch : Nat) : Dev :=
  if tfind d.tel.snapWait ch ≠ some (rd d Reg.snapSeq) then d
  else
    let d := d.onTel fun t => { t with snapWait := tdel t.snapWait ch }
    match (chanOf d ch).inflight with
    | [] => d
    | sl :: _ => complete ch sl { dev := d, payload := snapRsp d }

/-- The bank is written; a pending snapshot starts; the commands served complete (R717 to R719). -/
def snapshotDone (d : Dev) : Dev :=
  match d.tel.shot with
  | none => d
  | some (b, w, t) =>
    let d := d.onTel fun k => { k with shot := none, bank := b, bankWraps := w }
    let d := wr (wr (cnt d Reg.snapSeq) Reg.snapTimeLo (t % two32)) Reg.snapTimeHi (t / two32)
    let d := wr d Reg.snapSts (b2n (flag d Reg.snapSts 1))
    (List.range 16).foldl snapServe d

def execSnapshotDone (s : State) : Host.Outcome State Fault Refusal := s.runIf Instr.snapshotDone.wf snapshotDone

/-- `SNAPSHOT` requests a snapshot and waits for it: it completes with the snapshot that serves it (R711, R719). -/
def snapshot (ch : Nat) (d : Dev) : Dev :=
  if !d.boot.fwRunning || (tfind d.tel.snapWait ch).isSome then d
  else
    match (chanOf d ch).inflight with
    | [] => d
    | sl :: _ =>
      if sl.opcode ≠ 0x701 then d
      else
        let e := checks d ch sl 0 (noPayload sl)
        if e ≠ 0 then complete ch sl (fail d e)
        else (snapRequest d).onTel fun t => { t with snapWait := tins t.snapWait ch (snapNumber d) }

def execSnapshot (ch : Nat) (s : State) : Host.Outcome State Fault Refusal := s.runIf (Instr.snapshot ch).wf (snapshot ch)

/-! ## Totals (R721) -/

/-- First word of the counter that a copied word belongs to. -/
def cntKey (a : Nat) : Nat := if Reg.isByteCnt (a - 4) then a - 4 else a

/-- The 64-bit total of a copied counter as it stood at the last snapshot. -/
def totalOf (d : Dev) (a : Nat) : Nat :=
  let w := fun a => (tget (0 : Word) d.tel.bank a).toNat
  let n := tget 0 d.tel.bankWraps a
  (if Reg.isByteCnt a then w a + two32 * (w (a + 4) % 65536) + 2 ^ 48 * n else w a + two32 * n) % 2 ^ 64

def totalsPublish (d : Dev) : Dev :=
  if !d.boot.fwRunning || decide (rd d Reg.totalsSnap = rd d Reg.snapSeq) then d
  else
    let keys := d.tel.bank.map (cntKey ·.1) ++ (d.tel.bankWraps.filter fun e => Reg.snapped e.1).map (·.1)
    let d := d.onTel fun t => { t with totals := keys.foldl (fun m a => tput 0 m a (totalOf d a)) [] }
    wr (cntAdd d Reg.totalsSeq 2) Reg.totalsSnap (rd d Reg.snapSeq)

def execTotalsPublish (s : State) : Host.Outcome State Fault Refusal := s.runIf Instr.totalsPublish.wf totalsPublish

/-! ## Tasting log (R724, R725) -/

/-- Move one sample of tile t at ring position e into the log. -/
def logSample (t : Nat) (d : Dev) (e : Nat) : Dev :=
  let a := Reg.tile t + Reg.tasteRing (e % 1024)
  let w := rd d Reg.tasteLogW
  cnt (d.onTel fun m => { m with tasteLog := tins m.tasteLog (w % 4096) (rd d a + two32 * rd d (a + 4), t, e % two32) }) Reg.tasteLogW

def drainTile (d : Dev) (t : Nat) : Dev :=
  let r := Reg.tile t
  let ack := rd d (r + Reg.tasteAck)
  let n := sub32 (rd d (r + Reg.tasteEvc)) ack
  wr ((List.range n).foldl (fun d i => logSample t d (ack + i)) d) (r + Reg.tasteAck) (rd d (r + Reg.tasteEvc))

def tasteLogDrain (d : Dev) : Dev := if acking d then (List.range 16).foldl drainTile d else d

def execTasteLogDrain (s : State) : Host.Outcome State Fault Refusal := s.runIf Instr.tasteLogDrain.wf tasteLogDrain

/-! ## MIRROR_SET (R726 to R731) -/

/-- Fields in range; a session that is enabled also needs a destination that is enabled and not absorbed. -/
def mirrorOk (d : Dev) (l : List Byte) : Bool :=
  let n := le l 74 2
  let dst := le l 72 2
  let vid := le l 92 2
  decide (le l 0 1 < 16 ∧ le l 1 1 ≤ 1 ∧ le l 2 1 ≤ 2 ∧ le l 3 1 ≤ 6 ∧ dst < 512 ∧ (n = 0 ∨ (64 ≤ n ∧ n ≤ 9216)) ∧ le l 76 1 ≤ 1 ∧
    le l 77 3 = 0 ∧ vid < 4096 ∧ le l 94 1 < 64 ∧ le l 68 2 ≤ le l 70 2 ∧ le l 104 8 = 0) &&
    (le l 1 1 = 0 || ownSet d dst) && !(decide (vid ≠ 0) && bit d.safe.cfg.vids vid)

/-- Frames of a session's earlier settings that are still held keep them (R729). -/
def setMirror (d : Dev) (s : Nat) (l : List Byte) : Dev :=
  let first := ((d.buf.frames.map (·.1)).head?).getD d.buf.nextFrame
  let old := tget [] d.tel.mirrors s
  let used := old.filter fun e => decide (first < e.1)
  let last := (old.find? fun e => decide (e.1 ≤ first)).toList
  d.onTel fun t => { t with mirrors := tins t.mirrors s ((d.buf.nextFrame, l) :: (used ++ last)) }

def mirrorRes (d : Dev) (sl : Slot) : Res :=
  let l := sl.payload
  if !mirrorOk d l then fail d eArg
  else { dev := putCfg (setMirror d (le l 0 1) l) 44 (le l 0 1) l, vint := true }

def mirrorSet (ch : Nat) (d : Dev) : Dev := runCmd d ch 0x702 0 anySlot (lenIs 112) mirrorRes

def execMirrorSet (ch : Nat) (s : State) : Host.Outcome State Fault Refusal := s.runIf (Instr.mirrorSet ch).wf (mirrorSet ch)

/-! ## The sketch's windows (R738) -/

/-- Frozen bank's total into the complex's registers. -/
def hhShow (frozen : Bool) (window : Nat) (d : Dev) (k : Nat) : Dev :=
  let r := Reg.cplx k
  let n := tget 0 d.fwd.hhTotal (2 * k + b2n frozen)
  cnt (wr (wr (wr d (r + Reg.hhSts) (window + 32 * b2n frozen)) (r + Reg.hhTotalLo) (n % two32)) (r + Reg.hhTotalLo + 4) (n / two32 % 256))
    (r + Reg.hhSwapEvc)

/-- The banks exchange roles when `TSU_NS`[31:27] changes; the new active bank starts from zero. -/
def hhSwap (d : Dev) : Dev :=
  if !alive d then d
  else
    let d := if bits (tsuNs d) 27 5 = d.fwd.hhWindow then reachExt d ((extTime d / 2 ^ 27 + 1) * 2 ^ 27) else d
    let frozen := d.fwd.hhBank
    let d := (List.range 4).foldl (hhShow frozen d.fwd.hhWindow) d
    d.onFwd fun w => { w with
      hhBank := !frozen, hhWindow := bits (tsuNs d) 27 5
      sketch := w.sketch.filter fun e => decide (e.1 % 2 = b2n frozen)
      hhTotal := w.hhTotal.filter fun e => decide (e.1 % 2 = b2n frozen) }

def execHhSwap (s : State) : Host.Outcome State Fault Refusal := s.runIf Instr.hhSwap.wf hhSwap

/-! ## Black box (R741 to R749) -/

/-- The housekeeping die has its supply. -/
def hkOn (d : Dev) : Bool := decide (d.boot.phase ≠ .off ∧ d.boot.phase ≠ .standby)

/-- A record as it lies in the ring (Table 13-5). -/
def BbRec.bytes (r : BbRec) : List Byte :=
  let b := toLe 4 r.seq ++ toLe 4 r.ns ++ toLe 6 (r.cal % 2 ^ 34 + r.island * 2 ^ 34 + r.code * 2 ^ 40) ++ padTo 16 r.args
  b ++ toLe 2 (crc16 b)

/-- A record arrives at the housekeeping die (R741, R742). -/
def bbWrite (d : Dev) (island code : Nat) (args : List Byte) : Dev :=
  let n := (d.tel.seq + 1) % two32
  let r : BbRec := { seq := n, ns := tsuNs d, cal := d.time.calSec, island, code, args := padTo 16 args }
  d.onTel fun t => { t with seq := n, ring := tins t.ring (n % 4096) r }

/-- The oldest record that an island has queued arrives. -/
def bbArrive (d : Dev) (island : Nat) : Dev :=
  match tget [] d.tel.bbQ island with
  | [] => d
  | (code, args) :: q => bbWrite (d.onTel fun t => { t with bbQ := tput [] t.bbQ island q }) island code args

/-- Records that arrive in one cycle, by ascending source island (R741). Codes outside 0x01 to 0x7F are not written. -/
def blackboxRecord (island : Nat) (own : Option (Nat × List Byte)) (others : List Nat) (d : Dev) : Dev :=
  if !hkOn d then d
  else
    let arrive := fun (d : Dev) (l : List Nat) => ((List.range 43).filter l.contains).foldl bbArrive d
    match own with
    | none => arrive d (island :: others)
    | some (code, args) => if 1 ≤ code ∧ code < 128 then arrive (bb d island code args) (island :: others) else arrive d others

def execBlackboxRecord (island : Nat) (own : Option (Nat × List Byte)) (s : State) (others : List Nat := []) :
    Host.Outcome State Fault Refusal :=
  s.runIf (Instr.blackboxRecord island own others).wf (blackboxRecord island own others)

/-! ### Copies to MRAM -/

/-- The valid slot with the greater copy number. -/
def newestSlot (d : Dev) : Option Nat :=
  match tfind d.tel.slots 0, tfind d.tel.slots 1 with
  | some a, some b => some (if a.num < b.num then 1 else 0)
  | some _, none => some 0
  | none, some _ => some 1
  | none, none => none

/-- The slot that a copy goes to: the one that does not hold the newest valid copy (R745). -/
def copySlot (d : Dev) : Nat := if newestSlot d = some 0 then 1 else 0

/-- A copy begins that ends with record `last`: the slot's old contents are no valid copy from then on. -/
def copyBegin (d : Dev) (trigger last : Nat) : Dev :=
  let s := copySlot d
  d.onTel fun t => { t with copy := some (trigger, last), slots := tdel t.slots s }

/-- The record of a trigger (R744): code 0x40 for trigger 1, otherwise 0x01. -/
def triggerRecord (d : Dev) (t : Nat) : Dev :=
  if t = 1 then bbWrite d 41 0x40 []
  else bbWrite d 41 0x01 (toLe 4 t ++ toLe 4 d.time.stbyEpoch ++ toLe 4 (rd d Reg.safeVintage) ++ toLe 4 d.host.vintage)

/-- A trigger that has arisen writes its record and begins a copy, is held during another one, or, as a fall of `PWR_FAIL_N`,
replaces it (R747). -/
def mramCopyTrigger (t : Nat) (d : Dev) : Dev :=
  if !hkOn d || !d.tel.trigDue.contains t then d
  else
    let d := triggerRecord (d.onTel fun k => { k with trigDue := k.trigDue.erase t }) t
    match d.tel.copy with
    | none => copyBegin d t d.tel.seq
    | some (u, _) =>
      if t = 1 ∧ u ≠ 1 then copyBegin d 1 d.tel.seq else d.onTel fun k => { k with heldTrig := k.heldTrig ++ [(t, k.seq)] }

def execMramCopyTrigger (trigger : Nat) (s : State) : Host.Outcome State Fault Refusal :=
  s.runIf (Instr.mramCopyTrigger trigger).wf (mramCopyTrigger trigger)

/-- The last n records to number s that the ring holds, oldest first; their numbers wrap (R741). -/
def ringTail (d : Dev) (s n : Nat) : List BbRec :=
  ((List.range n).map fun i => (s + two32 + 1 + i - n) % two32).filterMap fun q =>
    (tfind d.tel.ring (q % 4096)).filter fun r => decide (r.seq = q)

/-- What a copy holds (Table 13-8): the telegrams are those of the hardwired stop path (R745). -/
def copyImage (d : Dev) (trigger last : Nat) : MramSlot :=
  let other := ((newestSlot d).bind (tfind d.tel.slots)).map (·.num)
  { num := other.getD 0 + 1, trigger, epoch := d.time.stbyEpoch, recs := ringTail d last 1024, teles := telesNow d 2,
    safeVintage := rd d Reg.safeVintage, safeDigest := safeDigest d.safe.cfg, vintage := d.host.vintage }

/-- The header is written last; the held triggers start one further copy, which ends with the last one's record (R745, R747, R749). -/
def mramCopyDone (d : Dev) : Dev :=
  match d.tel.copy with
  | none => d
  | some (t, last) =>
    let s := copySlot d
    let d := d.onTel fun k => { k with copy := none, slots := tins k.slots s (copyImage d t last) }
    let d := note (cnt d Reg.bbCopyEvc) 12 (toLe 4 last)
    match d.tel.heldTrig.getLast? with
    | none => d
    | some (h, last) => copyBegin (d.onTel fun k => { k with heldTrig := [] }) h last

def execMramCopyDone (s : State) : Host.Outcome State Fault Refusal := s.runIf Instr.mramCopyDone.wf mramCopyDone

/-! ### BLACKBOX_READ -/

/-- Record of the ring by sequence number. -/
def ringRec (d : Dev) (q : Nat) : Option BbRec := (tfind d.tel.ring (q % 4096)).filter fun r => decide (r.seq = q)

/-- Record of the MRAM copies by sequence number, from the newer copy when both hold it. -/
def mramRec (d : Dev) (q : Nat) : Option BbRec :=
  let a := newestSlot d
  let order := a.toList ++ (a.map (1 - ·)).toList
  order.findSome? fun s => (tfind d.tel.slots s).bind fun m => m.recs.find? fun r => decide (r.seq = q)

/-- Records from q on, as long as the source holds them one after another, at most n. -/
def recRun (src : Nat → Option BbRec) (q n : Nat) : List BbRec :=
  match n with
  | 0 => []
  | n + 1 => match src q with
    | some r => r :: recRun src ((q + 1) % two32) n
    | none => []

def bbReadRes (d : Dev) (sl : Slot) : Res :=
  let l := sl.payload
  let q := le l 4 4
  let n := le l 8 2
  if 1 < le l 0 1 ∨ le l 1 3 ≠ 0 ∨ n = 0 ∨ 511 < n ∨ le l 10 2 ≠ 0 then fail d eArg
  else if (ringRec d q).isNone ∧ (mramRec d q).isNone then fail d eNoent
  else
    let src := if le l 0 1 = 0 then ringRec d else mramRec d
    let rs := recRun src q n
    let gone := decide (1 < q) && (src (q - 1)).isNone
    { dev := d, payload := toLe 4 ((q + rs.length) % two32) ++ toLe 2 rs.length ++ toLe 1 (b2n gone) ++ zeros 9 ++ rs.flatMap BbRec.bytes }

def blackboxRead (ch : Nat) (d : Dev) : Dev := runCmd d ch 0x703 0 anySlot (lenIs 12) bbReadRes

def execBlackboxRead (ch : Nat) (s : State) : Host.Outcome State Fault Refusal := s.runIf (Instr.blackboxRead ch).wf (blackboxRead ch)

end Sys2Proof.Machine
end

