-- ==== Sys2Proof/Machine/Flags.lean ====
section
/-! DEFINITION. What a read of BAR0 returns: the status registers that show a level of the device (Table 11-3), the counter
bank, firmware's regions and the windows; every other register returns what it stores. -/

namespace Sys2Proof.Machine

/-! ## Status words -/

def packBits (l : List Bool) : Nat := bitSet ((List.range l.length).filter fun i => l.getD i false)

/-- Descriptor c of a ring may be processed (R663). -/
def descAt (d : Dev) (inj : Bool) (e c : Nat) : Bool :=
  let r := Reg.ring inj e
  let n := sub32 (rd d (r + Reg.rPost)) c
  ringOn (rd d (r + Reg.rCfg)) && !flag d (r + Reg.rSts) 1 && decide (1 ≤ n ∧ n ≤ 2 ^ fld d (r + Reg.rCfg) 0 5)

/-- `TRAPR_STS` and `INJR_STS` (Table 11-11). -/
def ringSts (d : Dev) (inj : Bool) (e : Nat) : Nat :=
  let r := Reg.ring inj e
  let s := rd d (r + Reg.rSts)
  let hold := !inj && (List.range 8).any fun q => decide (trapRing d q = some e ∧ trapQueue d q ≠ []) && !descAt d false e (rd d (r + Reg.rEvc))
  b2n (ringOn (rd d (r + Reg.rCfg)) && !bit s 1) + 2 * b2n (bit s 1) + 4 * b2n hold + bits s 8 8 * 256

/-- `MBX_STS` (Table 12-2). -/
def mbxSts (d : Dev) (ch : Nat) : Nat :=
  let s := mreg d ch Reg.mSts
  b2n (decide ((chanOf d ch).inflight ≠ [])) + 2 * b2n (bit s 1) + bits s 8 8 * 256
    + sub32 (mreg d ch Reg.mPost) (mreg d ch Reg.mRspEvc) % 128 * 65536

/-- Code of Table 14-1. -/
def Phase.code (p : Phase) : Nat :=
  match p with
  | .lifeline => 1
  | .full => 2
  | .quiesced => 3
  | _ => 0

/-- `HK_STATE` (Table 14-13). -/
def hkStateWord (d : Dev) : Nat :=
  d.boot.phase.code + 4 * b2n d.boot.fwRunning + 8 * b2n d.boot.imageB + 16 * b2n d.boot.startCfg
    + 65536 * min 1024 (sumOf d.ports fun e => if e.1 < 512 then e.2.lanesTrained else 0)

/-- `BB_COPY_STS` (Table 13-10). -/
def copySts (d : Dev) : Nat :=
  let last := match d.tel.copy with
    | some (t, _) => t
    | none => (((newestSlot d).bind (tfind d.tel.slots)).map (·.trigger)).getD 0
  packBits [d.tel.copy.isSome, decide (newestSlot d = some 1), (tfind d.tel.slots 0).isSome, (tfind d.tel.slots 1).isSome] + 256 * last

/-- `CAL_STS` (Table 08-11, R472). -/
def calStsWord (d : Dev) : Nat :=
  packBits [!stagePossible (rd d Reg.calStage0) (rd d Reg.calStage1), d.time.calWrapped, d.time.calNotSet]

/-- `THR_STATE` (Table 10-16). -/
def ThrState.code (s : ThrState) : Nat :=
  match s with
  | .off => 0
  | .ready => 1
  | .running => 2
  | .stalled => 3
  | .waiting => 4
  | .faulted => 5

def thrStateWord (d : Dev) (n : Nat) : Nat :=
  let t := thrOf d n
  t.state.code + 8 * t.depth + 32 * b2n t.ie + 64 * b2n (isGuest n) + 128 * b2n t.sampleHeld + 256 * t.restarts

/-- `CC_STS` (Table 10-13). -/
def ccStsWord (d : Dev) : Nat :=
  packBits ((List.range 4).map (fun c => !(coreOf d c).stopped) ++ (List.range 4).map (fun c => (coreOf d c).retained) ++ [d.cc.cmFatal])

/-- `CELLAR_STS` (Table 05-11); racking is limited from 100 °C on (Table 14-8). -/
def cellarStsWord (d : Dev) : Nat :=
  packBits ((List.range 4).map d.buf.running.contains ++ (List.range 4).map (fun s => decide (freeRacks d s = 0)) ++ [d.health.steps.contains 100])

/-- `TRELLIS_STS` (Table 06-6): `AGE` is [20:13] of a request word. -/
def trellisStsWord (d : Dev) : Nat :=
  bitSet ((List.range 16).filter (landHeld d)) + 65536 * d.trl.req.foldl (fun a e => max a (bits e.2 13 8)) 0

/-- `RULE_STS` (Table 03-14). `WRITE_ACTIVE` is 1 in all four complexes from the first chunk of a `RULE_WRITE` until it completes (DESIGN
CHOICE, log entry 93: the table names the bit and no more). -/
def ruleStsWord (d : Dev) (k : Nat) : Nat :=
  let paused := rd d (Reg.cplx k + Reg.ruleSts) % 2
  let waiting := (d.buf.frames.filter fun e => decide (cplxOf e.2.inPort = k ∧ e.2.cls ≠ 7) && !e.2.keyed && !e.2.dead).length
  paused + 2 * b2n d.fwd.ruleJob.isSome + 65536 * min 65535 waiting

/-! ## Port HALF words (R95, Table 02-8) -/

/-- Offsets of the counters that are 48 bits wide. -/
def wideOffs : List Nat := [Reg.rxBytesOk, Reg.txBytesOk, Reg.txBytesAll, Reg.rxBytesAll]

/-- Offset of port counter i. -/
def portCntOff (i : Nat) : Nat :=
  0x100 + 4 * i + 4 * (b2n (decide (2 ≤ i)) + b2n (decide (28 ≤ i)) + b2n (decide (29 ≤ i)))

def portHalf (d : Dev) (p i : Nat) : Bool :=
  let o := portCntOff i
  let a := Reg.port p + o
  if wideOffs.contains o then half48 d a else half32 d a

/-- `PORT_HALF0` and `PORT_HALF1`. -/
def portHalfWord (d : Dev) (p w : Nat) : Nat :=
  bitSet ((List.range 32).filter fun i => decide (32 * w + i < 52) && portHalf d p (32 * w + i))

/-! ## Blocks -/

def sysRead (d : Dev) (a : Nat) : Nat :=
  if 0x200 ≤ a ∧ a < 0x290 then irqSts d ((a - 0x200) / 4)
  else if a = Reg.irqArmedLo then bitSet ((List.range 32).filter (armed d))
  else if a = Reg.irqArmedHi then bitSet ((List.range 4).filter fun v => armed d (32 + v))
  else if 0x400 ≤ a ∧ a < 0x440 then linkSum d ((a - 0x400) / 4)
  else if 0x1000 ≤ a ∧ a < 0x1400 ∧ a % 0x40 = Reg.rSts then ringSts d (decide (0x1200 ≤ a)) (a / 0x40 % 8)
  else rd d a

/-- The image of an MRAM copy (Table 13-8): header, records, telegrams. -/
def mramTeles (m : MramSlot) : List Byte :=
  (List.range 64).flatMap fun j => match tfind m.teles j with
    | some t => (t.enc j).take 264 ++ toLe 4 t.sealCrc ++ zeros 4
    | none => toLe 1 j ++ zeros 271

def mramBytes (m : MramSlot) : List Byte :=
  let seqs := m.recs.map (·.seq)
  let h := toLe 4 m.num ++ toLe 1 m.trigger ++ zeros 3 ++ toLe 4 m.epoch ++ toLe 4 (seqs.head?.getD 0) ++ toLe 4 (seqs.getLast?.getD 0)
    ++ toLe 4 m.safeVintage ++ toLe 8 m.safeDigest ++ toLe 4 m.vintage ++ zeros 24
  let b := padTo 32768 (m.recs.flatMap BbRec.bytes) ++ mramTeles m
  h ++ toLe 4 (crc32c (h ++ b)) ++ b ++ zeros 15296

/-- A word of the housekeeping block; `none` where nothing valid stands in a slot or a ring position. -/
def hkRead (d : Dev) (a : Nat) : Option Nat :=
  let o := a - Reg.hk
  if o < 0x1_0000 then
    some (if a = Reg.hkState then hkStateWord d
    else if a = Reg.calNow0 then calNow0 d
    else if a = Reg.calNow1 then calNow1 d
    else if a = Reg.calSecLo then d.time.calSec % two32
    else if a = Reg.calSecHi then d.time.calSec / two32
    else if a = Reg.calSts then calStsWord d
    else if a = Reg.stbyEpoch then d.time.stbyEpoch
    else if a = Reg.bbSeq then d.tel.seq
    else if a = Reg.bbCopySts then copySts d
    else rd d a)
  else if o < 0x3_0000 then (tfind d.tel.slots (o / 0x1_0000 - 1)).map fun m => le (mramBytes m) (o % 0x1_0000) 4
  else (tfind d.tel.ring (o % 0x2_0000 / 32)).map fun r => le r.bytes (o % 32) 4

def safeRead (d : Dev) (a : Nat) : Nat :=
  if a = Reg.degradeLeft then (((degradeEnd d).map fun t => ceilDiv (t - d.now) ps_s).getD 0) % 2 ^ 18
  else if a = Reg.proofSts then min 3 (proofCount d)
  else if a = Reg.safeDigestLo then safeDigest d.safe.cfg % two32
  else if a = Reg.safeDigestHi then safeDigest d.safe.cfg / two32
  else rd d a

def tileRead (d : Dev) (t o : Nat) : Nat :=
  if o = Reg.bufSts then (49152 - cellsUsed d t) % 65536 + 65536 * (ullage d t % 65536)
  else if o = Reg.bufUse0 then tc7Use d t % 65536 + 65536 * (landUse d t % 65536)
  else if o = Reg.bufUse1 then partUse d t .headroom % 65536 + 65536 * (overdrawn d t % 65536)
  else if o = Reg.bufPart then sharedSize d t % 65536 + 65536 * (headroomSize d t % 65536)
  else if Reg.tenantBufUsed 0 ≤ o ∧ o ≤ Reg.tenantBufUsed 15 then tenantUse d t ((o - Reg.tenantBufUsed 0) / 4) % 65536
  else
    let w := rd d (Reg.tile t + o)
    if 0x4000 ≤ o ∧ o < 0x5000 ∧ o % 0x80 = Reg.eSts then setBits w 11 1 (b2n (govActive d)) else w

/-- The frozen bank's counter i of the sketch (Table 13-11). -/
def hhCtr (d : Dev) (k i : Nat) : Nat := tget 0 (tget [] d.fwd.sketch (2 * k + b2n !d.fwd.hhBank)) i

def cplxRead (d : Dev) (k o : Nat) : Nat :=
  if o = Reg.fdbSts then 65536 * min 2048 (learnQueue d k).length
  else if o = Reg.fdbUsed then (macTab d k).length
  else if o = Reg.lpmUnitsUsed then lpmUnits d k
  else if o = Reg.lpmCamUsed then camUsed d k
  else if o = Reg.ruleSts then ruleStsWord d k
  else if 0x6_0000 ≤ o ∧ o < 0x8_0000 then
    let c := hhCtr d k ((o - 0x6_0000) / 8)
    if o % 8 = 0 then c % two32 else c / two32 % 256
  else rd d (Reg.cplx k + o)

def cellarRead (d : Dev) (a : Nat) : Nat :=
  if a = Reg.cellarSts then cellarStsWord d
  else if Reg.cellarFreeRacks 0 ≤ a ∧ a ≤ Reg.cellarFreeRacks 3 then freeRacks d ((a - Reg.cellarFreeRacks 0) / 4)
  else if Reg.tenantCellarUsed 0 ≤ a ∧ a ≤ Reg.tenantCellarUsed 15 then cellarUse d false ((a - Reg.tenantCellarUsed 0) / 4) 0
  else rd d a

/-- Core c's block. -/
def coreRead (d : Dev) (c o : Nat) : Nat :=
  let n := 8 * c + o / 0x40 % 8
  if o < 0x200 ∧ o % 0x40 = Reg.tState then thrStateWord d n
  else if o < 0x200 ∧ o % 0x40 = Reg.tPc then (thrOf d n).pc.toNat
  else if o = Reg.spmSts then b2n (coreOf d c).retained + 65536 * (coreOf d c).region
  else if 0x1000 ≤ o ∧ o < 0x1200 then readPerf d n (o / 4 % 16)
  else rd d (Reg.core c + o)

def ccRead (d : Dev) (a : Nat) : Nat :=
  let o := a - Reg.cc
  if 0x280_0000 ≤ a then
    let s := a - 0x280_0000
    leVal (spmRead d (s / 0x8_0000) (s % 0x8_0000) 4)
  else if 0x4_0000 ≤ o then coreRead d ((o - 0x4_0000) / 0x4000) (o % 0x4000)
  else if a = Reg.ccSts then ccStsWord d
  else if a = Reg.ccFaulted then bitSet ((List.range 32).filter fun n => isState d n .faulted)
  else if a = Reg.ccCycleLo then ccCycle d % two32
  else if a = Reg.ccCycleHi then ccCycle d / two32 % two32
  else if Reg.coopPoolSts 0 ≤ a ∧ a ≤ Reg.coopPoolSts 3 then
    let p := (a - Reg.coopPoolSts 0) / 4
    poolFree d p + 65536 * tget (poolCount p) d.cc.fewest p
  else if Reg.coopUsed 0 ≤ a ∧ a ≤ Reg.coopUsed 63 then ceilDiv (coopUse d ((a - Reg.coopUsed 0) / 4)) 1024
  else if 0x1_0000 ≤ o ∧ o < 0x1_0100 ∧ o % 0x20 = Reg.tqDepth then (trapQueue d ((o - 0x1_0000) / 0x20)).length
  else rd d a

/-- Word at byte offset o of a 64-bit value (R722, R723). -/
def half64 (v o : Nat) : Nat := if o % 8 < 4 then v % two32 else v / two32

/-- The bank: the last snapshot, totals, rule entry sums, tasting log, bank registers (Table 13-1, R720 to R725). -/
def bankRead (d : Dev) (a : Nat) : Nat :=
  if a < 0x340_0000 then ((Reg.bankSource a).map fun s => (tget (0 : Word) d.tel.bank s).toNat).getD 0
  else if a < 0x3C0_0000 then
    match Reg.bankSource (0x300_0000 + (a - 0x340_0000) / 8 * 4) with
    | some s => if Reg.isByteCnt (s - 4) then 0 else half64 (tget 0 d.tel.totals s) a
    | none => 0
  else if a < 0x3C8_0000 then
    let g := (a - 0x3C0_0000) / 16
    let f := fun k => tget 0 d.tel.totals (if a % 16 < 8 then Reg.cplx k + Reg.ruleFrames g else Reg.cplx k + Reg.ruleBytes g)
    half64 (sumOf (List.range 4) f % 2 ^ 64) a
  else if a < 0x3C9_0000 then
    match tfind d.tel.tasteLog ((a - 0x3C8_0000) / 16) with
    | some (s, t, p) => le (toLe 8 s ++ toLe 1 t ++ zeros 3 ++ toLe 4 p) (a % 16) 4
    | none => 0
  else rd d a

/-- What a read of a BAR0 word returns; `none` where the manual gives no value. CMD registers read 0 (Table 11-3). -/
def readBar0 (d : Dev) (a : Nat) : Option Nat :=
  if Reg.kind a = some .cmd then some 0
  else if a < 0x10_0000 then some (sysRead d a)
  else if a < 0x20_0000 then some (if a = Reg.selSts then selWord d else if a = Reg.tsuSts then tsuStsWord d else rd d a)
  else if a < 0x30_0000 then hkRead d a
  else if a < 0x40_0000 then some (safeRead d a)
  else if a < 0x80_0000 then some (if a % 0x100 = Reg.mSts ∧ a < 0x40_1000 then mbxSts d ((a - 0x40_0000) / 0x100) else rd d a)
  else if a < 0xA0_0000 then
    let p := (a - 0x80_0000) / 0x1000
    some (if a % 0x1000 = Reg.pHalf0 then portHalfWord d p 0 else if a % 0x1000 = Reg.pHalf0 + 4 then portHalfWord d p 1 else rd d a)
  else if a < 0x200_0000 then some (tileRead d ((a - 0x100_0000) / 0x10_0000) (a % 0x10_0000))
  else if a < 0x240_0000 then some (cplxRead d ((a - 0x200_0000) / 0x10_0000) (a % 0x10_0000))
  else if a < 0x250_0000 then some (if a = Reg.trellisSts then trellisStsWord d else rd d a)
  else if a < 0x260_0000 then some (cellarRead d a)
  else if a < 0x300_0000 then some (ccRead d a)
  else some (bankRead d a)

end Sys2Proof.Machine
end

