-- ==== Sys2Proof/Machine/Host.lean ====
section
/-! DEFINITION. The host attachment (chapter 11): accesses to BAR0 and BAR2, bus errors, interrupts, resets of the host
interface, the DMA rings, and configuration parity. -/

namespace Sys2Proof.Machine

/-- The function's own requests reach the host: bus mastering on, not in D3hot (R633, R703). -/
def dmaUp (d : Dev) : Bool := alive d && d.host.busMaster && !d.host.d3

/-! ## Vectors (R655, R656) -/

def armVec (d : Dev) (v : Nat) : Dev := d.onHost fun h => { h with disarmed := h.disarmed.filter (· ≠ v) }

/-- A write of `IRQ_ARM`: values 36 to 63 are ignored. -/
def irqArm (value : Nat) (d : Dev) : Dev := if barUp d && decide (value % 64 < 36) then armVec d (value % 64) else d

def execIrqArm (value : Nat) (s : State) : Host.Outcome State Fault Refusal := s.runIf (Instr.irqArm value).wf (irqArm value)

def unmask (d : Dev) (v : Nat) : Dev := sendPending (d.onHost fun h => { h with masked := h.masked.filter (· ≠ v) })

def msixUnmask (v : Nat) (d : Dev) : Dev := if barUp d then unmask d v else d

def execMsixUnmask (vec : Nat) (s : State) : Host.Outcome State Fault Refusal := s.runIf (Instr.msixUnmask vec).wf (msixUnmask vec)

/-! ## Rings (R661 to R665) -/

/-- Frames that an inject ring holds no longer answer to a descriptor of it. -/
def detach (d : Dev) (e : Nat) : Dev :=
  d.onBuf fun b => { b with frames := b.frames.map fun x =>
    (x.1, { x.2 with inject := x.2.inject.map fun i => if i.1 = e then (e, two32, i.2.2) else i }) }

/-- A ring stops being enabled: its transfer in flight is abandoned. -/
def ringAbandon (d : Dev) (inj : Bool) (e : Nat) : Dev :=
  if inj then (detach d e).onHost fun h => { h with inject := tdel h.inject e } else d

/-- Store a ring's CFG; `LOG2` does not change while the ring is enabled (R661). -/
def setRingCfg (d : Dev) (inj : Bool) (e v : Nat) : Dev :=
  let r := Reg.ring inj e
  let old := rd d (r + Reg.rCfg)
  let v := v &&& (if inj then 0x3F else 0xFF3F)
  let v := if ringOn old then setBits v 0 5 old else v
  let d := wr d (r + Reg.rCfg) v
  if ringOn old = ringOn v then d
  else if ringOn v then
    setFlag (wr (wr (wr d (r + Reg.rPost) 0) (r + Reg.rEvc) 0) (r + Reg.rAck) 0) (r + Reg.rSts) 1 false
  else ringAbandon d inj e

def ringEnable (inj : Bool) (e value : Nat) (d : Dev) : Dev := if barUp d then setRingCfg d inj e value else d

def execRingEnable (inj : Bool) (e value : Nat) (s : State) : Host.Outcome State Fault Refusal :=
  s.runIf (Instr.ringEnable inj e value).wf (ringEnable inj e value)

/-- A ring stops with `ERR` and a cause (R664, R665). -/
def ringStop (d : Dev) (inj : Bool) (e cause : Nat) : Dev :=
  let a := Reg.ring inj e + Reg.rSts
  wr d a (setBits (setBits (rd d a) 1 1 1) 8 8 cause)

/-- Descriptors are posted; too many stop the ring. -/
def setPost (d : Dev) (inj : Bool) (e v : Nat) : Dev :=
  let r := Reg.ring inj e
  let d := wr d (r + Reg.rPost) v
  if ringOn (rd d (r + Reg.rCfg)) && !flag d (r + Reg.rSts) 1 &&
      decide (2 ^ fld d (r + Reg.rCfg) 0 5 < sub32 v (rd d (r + Reg.rEvc))) then ringStop d inj e 3
  else d

def ringPost (inj : Bool) (e value : Nat) (d : Dev) : Dev := if barUp d then setPost d inj e value else d

def execRingPost (inj : Bool) (e value : Nat) (s : State) : Host.Outcome State Fault Refusal :=
  s.runIf (Instr.ringPost inj e value).wf (ringPost inj e value)

/-! ## Accesses (R630 to R645) -/

/-- A word address of BAR0 or BAR2 that answers. -/
def mapped (bar a : Nat) : Bool :=
  if bar = 0 then (Reg.kind a).isSome else decide (a < 0x400 ∨ a = 0x800 ∨ a = 0x804)

/-- A read is completed as Unsupported Request; a write is recorded as one in AER, and reported where the host has enabled that
(R640). -/
def unsupported (d : Dev) (write : Bool) : Dev :=
  setPcie d fun c => if write then { c with aerUr := true, nonfatal := c.nonfatal + b2n c.urReport } else { c with cpl := 1 }

/-- A bus error is counted and recorded (R641). -/
def busError (d : Dev) (acc : Access) : Dev :=
  let d := unsupported d acc.write
  wr (wr (cnt d Reg.buserrEvc) Reg.buserrLast (acc.off % 2 ^ 26 + 2 ^ 26 * acc.bar + 2 ^ 28 * b2n acc.write)) Reg.buserrReq acc.req

/-- An access to a register of a stopped control core wakes it. -/
def coreReg (d : Dev) (a : Nat) : Dev := if 0x264_0000 ≤ a ∧ a < 0x265_0000 then wakeCore d ((a - 0x264_0000) / 0x4000) else d

/-- A BAR0 address in the window of a core's scratchpad. -/
def inPadWin (a : Nat) : Bool := decide (0x280_0000 ≤ a ∧ a < 0x2A0_0000)

/-- A host access to a register or the scratchpad window of a stopped control core completes after the core has woken (R40, R637), which
goes before R612's last sentence there (log entry 58). -/
def coreAccess (d : Dev) (a : Nat) : Dev :=
  if inPadWin a then let c := (a - 0x280_0000) / 0x8_0000; portB (wakeCore d c) c else coreReg d a

/-- An error in a scratchpad word that port B reads: corrected and counted, or counted and its data poisoned, whatever they are (R604). -/
def padError (d : Dev) (c ecc : Nat) : Dev :=
  if ecc = 0 then d
  else if ecc = 1 then cnt d (Reg.core c + Reg.spmEccCorr)
  else
    let (x, d) := freeBytes (cnt d (Reg.core c + Reg.spmEccUncorr)) 4
    setPcie (readData d x) fun c => { c with cpl := 2 }

/-- A read of BAR0; where the manual gives no value it is free. -/
def readWord (d : Dev) (a ecc : Nat) : Dev :=
  if 0x262_0000 ≤ a ∧ a < 0x262_0800 then perfUserPage ((a - 0x262_0000) / 0x40) (a / 4 % 16) d
  else
    let d := coreAccess d a
    let d := match readBar0 d a with
      | some v => readData d v
      | none => let (x, d) := freeBytes d 4; readData d x
    if inPadWin a then padError d ((a - 0x280_0000) / 0x8_0000) ecc else d

/-- A read of BAR2: table words, vector control, pending bits. -/
def readMsix (d : Dev) (a : Nat) : Nat :=
  if 0x800 ≤ a then bitSet (d.host.pba.filterMap fun v => if v / 32 = (a - 0x800) / 4 then some (v % 32) else none)
  else if a % 16 = 12 then b2n (d.host.masked.contains (a / 16)) else (tget (0 : Word) d.host.msix a).toNat

def writeMsix (d : Dev) (a v : Nat) : Dev :=
  if 0x800 ≤ a then d
  else if a % 16 ≠ 12 then d.onHost fun h => { h with msix := tput 0 h.msix a (BitVec.ofNat 32 (if a % 16 = 0 then v / 4 * 4 else v)) }
  else if bit v 0 then d.onHost fun h => { h with masked := vecs fun w => h.masked.contains w || decide (w = a / 16) }
  else unmask d (a / 16)

/-- A base register is fixed while its channel or ring is enabled (R661, R679). -/
def baseHeld (d : Dev) (a : Nat) : Bool :=
  if 0x1000 ≤ a ∧ a < 0x1400 then decide (a % 0x40 < 8) && ringOn (rd d (a / 0x40 * 0x40 + Reg.rCfg))
  else decide (0x40_0000 ≤ a ∧ a < 0x40_1000 ∧ a % 0x100 < 0x10) && flag d (a / 0x100 * 0x100 + Reg.mCfg) 0

/-- A host write of a register by its own behaviour or by its type. -/
def writeWord (d : Dev) (a v : Nat) : Dev :=
  if a = Reg.irqArm then irqArm v d
  else if Reg.irqEn 0 ≤ a ∧ a ≤ Reg.irqEn 35 then
    let m := v / 65536
    wr d a ((rd d a &&& (65535 - m)) ||| (v &&& m))
  else if 0x1000 ≤ a ∧ a < 0x1400 ∧ a % 0x40 = Reg.rCfg then setRingCfg d (decide (0x1200 ≤ a)) (a / 0x40 % 8) v
  else if 0x1000 ≤ a ∧ a < 0x1400 ∧ a % 0x40 = Reg.rPost then setPost d (decide (0x1200 ≤ a)) (a / 0x40 % 8) v
  else if a = Reg.tsuCapCmd then tsuCapCmd d
  else if a = Reg.calLoadCmd then calLoad d
  else if 0x40_0000 ≤ a ∧ a < 0x40_1000 ∧ a % 0x100 = Reg.mPost then mbxPost ((a - 0x40_0000) / 0x100) v d
  else if 0x40_0000 ≤ a ∧ a < 0x40_1000 ∧ a % 0x100 = Reg.mCfg then mbxEnable ((a - 0x40_0000) / 0x100) v d
  else
    match Reg.hostMask a with
    | some m => if baseHeld d a then d else wr d a (v &&& m)
    | none => coreAccess d a

/-! ### Configuration space and power states (R629, R633)

Where its words lie is what PCI gives a type 0 header and this model's own place for each capability (log entry 111). -/

def pciePowerState (d3 : Bool) (d : Dev) : Dev :=
  if !alive d then d
  else
    let d := d.onHost fun h => { h with d3 := d3 }
    if d3 || !d.host.busMaster then d else sendPending ((List.range 16).foldl writeHeld d)

/-- A word of configuration space: the bits that read as the manual and PCIe give them (after a reset where they can be written), the
bits that the host writes, and those whose value neither gives. -/
structure CfgWord where
  value : Nat := 0
  rw : Nat := 0
  free : Nat := 0

def cfgIds : Nat := 0x00
def cfgCommand : Nat := 0x04
def cfgClass : Nat := 0x08
def cfgSubsystem : Nat := 0x2C
/-- Device Control: bit 3 enables Unsupported Request reporting, bit 15 starts a Function Level Reset. -/
def cfgDevCtl : Nat := 0x48
/-- MSI-X Message Control in [31:16]: table size less 1, function mask, enable. -/
def cfgMsix : Nat := 0x80
/-- PMCSR: [1:0] 0 D0, 3 D3hot. -/
def cfgPower : Nat := 0xC4
/-- AER Uncorrectable Error Status: bit 20 Unsupported Request. -/
def cfgAerUncorr : Nat := 0x104

/-- Type 0 header: command and status, revision and class, the two 64-bit BARs of 64 MiB and 4 KiB, no other BAR and no ROM, the
capability list at 0x40, Interrupt Pin 0. -/
def cfgHeader : Tab CfgWord :=
  [(cfgIds, { value := 0x0512_0000 ||| Config.vendorId.toNat }),
   (cfgCommand, { value := 0x0010_0000, rw := 0x542, free := 0xF901_0000 }),
   (cfgClass, { value := 0x0280_00B0 }),
   (0x0C, { rw := 0xFF, free := 0xFF00_0000 }),
   (0x10, { value := 4, rw := 0xFC00_0000 }), (0x14, { rw := 0xFFFF_FFFF }),
   (0x18, { value := 4, rw := 0xFFFF_F000 }), (0x1C, { rw := 0xFFFF_FFFF }),
   (cfgSubsystem, { value := Config.subsystemIds.toNat }),
   (0x34, { value := 0x40 }), (0x3C, { rw := 0xFF })]

/-- The PCI Express capability: version 2, endpoint; 512-byte payloads, extended tags, Function Level Reset; 32 GT/s, 8 lanes, ASPM L1;
10-bit tags, no atomic operations; and MSI-X, 64 vectors in BAR2; and power management with neither D1 nor D2. -/
def cfgCaps : Tab CfgWord :=
  [(0x40, { value := 0x0002_8010, free := 0x3E00_0000 }), (0x44, { value := 0x1000_0022, free := 0x0FFC_FFD8 }),
   (cfgDevCtl, { value := 0x2110, rw := 0x71F7, free := 0xFFFF_0000 }), (0x4C, { value := 0x885, free := 0xFFFF_F000 }),
   (0x50, { rw := 3, free := 0xFFFF_FFFC }), (0x64, { value := 0x3_0000, free := 0xFFFC_FC3F }),
   (0x68, { rw := 0x1000, free := 0xFFFF_EFBF }), (0x6C, { value := 0x3E, free := 0xFFFF_FF00 }), (0x70, { free := 0xFFFF_FFFF }),
   (cfgMsix, { value := 0x003F_C011 }), (0x84, { value := 2 }), (0x88, { value := 0x802 }),
   (0xC0, { value := 1, free := 0xF9FF_0000 }), (cfgPower, { value := 8 })]

/-- AER, the one extended capability of Table 11-1: status, mask and severity of the uncorrectable errors, status and mask of the
correctable ones, control, header log. -/
def cfgAer : Tab CfgWord :=
  [(0x100, { value := 0x0002_0001 }), (cfgAerUncorr, { free := 0x0047_F030 }),
   (0x108, { rw := 0x0057_F030 }), (0x10C, { value := 0x0046_2030, rw := 0x0057_F030 }), (0x110, { free := 0xF1C1 }),
   (0x114, { value := 0x2000, rw := 0xF1C1 }), (0x118, { free := 0xFFFF_FFFF }), (0x11C, { free := 0xFFFF_FFFF }),
   (0x120, { free := 0xFFFF_FFFF }), (0x124, { free := 0xFFFF_FFFF }), (0x128, { free := 0xFFFF_FFFF })]

/-- A word of configuration space; one that belongs to nothing of Table 11-1 reads 0 and holds nothing. -/
def cfgWord (a : Nat) : CfgWord := (tfind (cfgHeader ++ cfgCaps ++ cfgAer) a).getD {}

/-- The bits that other parts of the state hold. -/
def cfgLive (d : Dev) (a : Nat) : Nat :=
  let c := d.host.pcie
  if a = cfgCommand then 4 * b2n d.host.busMaster
  else if a = cfgDevCtl then 8 * b2n c.urReport
  else if a = cfgMsix then 2 ^ 30 * b2n c.fnMask + 2 ^ 31 * b2n c.msixOn
  else if a = cfgPower then 3 * b2n d.host.d3
  else if a = cfgAerUncorr then 2 ^ 20 * b2n c.aerUr
  else 0

/-- What a word of configuration space holds, but for its free bits. -/
def cfgHeld (d : Dev) (a : Nat) : Nat := tget (cfgWord a).value d.host.pcie.words a ||| cfgLive d a

/-- A read of a word of configuration space. -/
def cfgRead (d : Dev) (a : Nat) : Dev :=
  let free := (cfgWord a).free
  if free = 0 then readData d (cfgHeld d a) else let (x, d) := freeBytes d 4; readData d (cfgHeld d a ||| (x &&& free))

/-- The bits of a word that byte enables select. -/
def beMask (be : Nat) : Nat := 0xFF * b2n (bit be 0) + 0xFF00 * b2n (bit be 1) + 0xFF_0000 * b2n (bit be 2) + 0xFF00_0000 * b2n (bit be 3)

/-- A write of the writable bits that the byte enables select. -/
def cfgStore (d : Dev) (a be v : Nat) : Dev :=
  let w := cfgWord a
  let m := w.rw &&& beMask be
  if m = 0 then d
  else setPcie d fun c => { c with words := tput w.value c.words a ((tget w.value c.words a &&& (0xFFFF_FFFF - m)) ||| (v &&& m)) }

/-- What a reset of the function leaves of configuration space: what AER has recorded and the host's masks and severities there, which
outlast it as PCIe requires (log entry 111), and the outputs. -/
def pcieReset (c : PcieCfg) : PcieCfg :=
  { aerUr := c.aerUr, nonfatal := c.nonfatal, cpl := c.cpl, words := c.words.filter fun w => decide (0x100 ≤ w.1) }

/-- What Table 11-2 resets (R632). -/
def hostInterfaceReset (d : Dev) : Dev :=
  if !alive d then d
  else
    let off := fun (inj : Bool) (d : Dev) (e : Nat) =>
      ringAbandon (setFlag d (Reg.ring inj e + Reg.rCfg) 5 false) inj e
    let d := (List.range 8).foldl (off true) ((List.range 8).foldl (off false) d)
    let d := (List.range 36).foldl (fun d v => wr d (Reg.irqEn v) 0) d
    let d := [Reg.sysScratch, Reg.parAck, Reg.buserrAck, Reg.fwAck].foldl (fun d a => wr d a 0) d
    d.onHost fun h => { h with disarmed := [], masked := List.range 64, pba := [], msix := [], busMaster := false, d3 := false,
                               pcie := pcieReset h.pcie }

/-- A write of the bytes that the byte enables `be` name: what the written bits do, and the bits that are only held. -/
def cfgWrite (d : Dev) (a be v : Nat) : Dev :=
  let d := cfgStore d a be v
  if a = cfgCommand ∧ bit be 0 then (if bit v 2 then busMasterEnable d else busMasterDisable d)
  else if a = cfgDevCtl then
    let d := if bit be 0 then setPcie d fun c => { c with urReport := bit v 3 } else d
    if bit be 1 && bit v 15 then hostInterfaceReset d else d
  else if a = cfgMsix ∧ bit be 3 then sendPending (setPcie d fun c => { c with fnMask := bit v 30, msixOn := bit v 31 })
  else if a = cfgPower ∧ bit be 0 then
    if v % 4 = 3 then pciePowerState true d else if v % 4 = 0 then pciePowerState false d else d
  else if a = cfgAerUncorr ∧ bit be 2 then setPcie d fun c => { c with aerUr := c.aerUr && !bit v 20 }
  else d

/-- A configuration request, which the function answers in D3hot too (R633). -/
def cfgAccess (acc : Access) (d : Dev) : Dev :=
  let a := acc.off / 4 * 4
  if !alive d then d
  else if acc.write then cfgWrite d a acc.be acc.value else cfgRead d a

/-- A host access; a bus error performs no part of it (R630, R631, R639). -/
def hostAccess (acc : Access) (d : Dev) : Dev :=
  let a := acc.off / 4 * 4
  if acc.bar = 3 then cfgAccess acc d
  else if !barUp d then d
  else if 4 < acc.len ∨ 4 < acc.off % 4 + acc.len ∨ (acc.write = true ∧ acc.be ≠ 15) ∨ mapped acc.bar a = false then busError d acc
  else if acc.bar = 2 then
    if acc.write then writeMsix d a acc.value else readData d (readMsix d a)
  else if acc.write then writeWord d a acc.value else readWord d a acc.ecc

def execRegisterWrite (acc : Access) (s : State) : Host.Outcome State Fault Refusal :=
  s.runIf (Instr.registerWrite acc).wf (hostAccess acc)

/-! ## Resets of the function (R632) -/

def execHostInterfaceReset (s : State) : Host.Outcome State Fault Refusal := s.runIf Instr.hostInterfaceReset.wf hostInterfaceReset

def execPciePowerStateChange (d3 : Bool) (s : State) : Host.Outcome State Fault Refusal :=
  s.runIf (Instr.pciePowerStateChange d3).wf (pciePowerState d3)

/-! ## Trap rings (R666 to R669, Table 11-6) -/

/-- A delivered descriptor and the bytes of its buffer. -/
def trapDone (q : Nat) (t : TrapFrame) (desc : List Byte) : DoneDesc :=
  let x := t.frame
  let cap := min x.len (le desc 8 2)
  let b := padTo 12 desc ++ toLe 4 (x.len % 2 ^ 14 + 2 ^ 14 * b2n (decide (cap < x.len))) ++ toLe 4 x.arrival
    ++ toLe 4 (x.inPort + 512 * x.cls + 4096 * x.tenant + 65536 * x.vid + 2 ^ 28 * x.parse.fail)
    ++ toLe 4 (t.cause + 8 * q) ++ toLe 4 (cap + 2 ^ 31)
  { desc := b, data := x.bytes.take cap }

/-- What an engine writes to host memory for descriptor c of a ring; a count that has passed POST stops the ring (R664). -/
def writeBack (d : Dev) (inj : Bool) (e c : Nat) (x : DoneDesc) : Dev :=
  let k := fld d (Reg.ring inj e + Reg.rCfg) 0 5
  let r := Reg.ring inj e
  let d := cnt (d.onHost fun h => { h with done := tmod [] h.done (e + 8 * b2n inj) fun t => tins t (c % 2 ^ k) x }) (r + Reg.rEvc)
  if 2 ^ k < sub32 (rd d (r + Reg.rPost)) (rd d (r + Reg.rEvc)) then ringStop d inj e 3 else d

def trapRingDeliver (q : Nat) (desc : List Byte) (err : Nat) (d : Dev) : Dev :=
  match trapRing d q, trapQueue d q with
  | some e, t :: _ =>
    let c := rd d (Reg.ring false e + Reg.rEvc)
    if !d.boot.fwRunning || !dmaUp d || !descAt d false e c then d
    else if err ≠ 0 then ringStop d false e err
    else trapTake (writeBack d false e c (trapDone q t desc)) q
  | _, _ => d

def execTrapRingDeliver (queue : Nat) (desc : List Byte) (err : Nat) (s : State) : Host.Outcome State Fault Refusal :=
  s.runIf (Instr.trapRingDeliver queue desc err).wf (trapRingDeliver queue desc err)

def trapRingNobuf (q : Nat) (d : Dev) : Dev :=
  match trapRing d q, trapQueue d q with
  | some e, t :: _ =>
    if !d.boot.fwRunning || descAt d false e (rd d (Reg.ring false e + Reg.rEvc)) then d
    else cnt (trapTake (reach d (t.since + ps_ms)) q) (Reg.ring false e + Reg.rBad)
  | _, _ => d

def execTrapRingNobuf (queue : Nat) (s : State) : Host.Outcome State Fault Refusal :=
  s.runIf (Instr.trapRingNobuf queue).wf (trapRingNobuf queue)

/-! ## Inject rings (R670 to R675, Tables 11-7 and 11-8) -/

/-- Number of the next descriptor that the engine fetches. -/
def injectNext (d : Dev) (e : Nat) : Nat := (rd d (Reg.ring true e + Reg.rEvc) + (tget [] d.host.inject e).length) % two32

def injPort (l : List Byte) : Nat := bits (le l 8 4) 16 9
def injMode (l : List Byte) : Bool := bit (le l 8 4) 14
def injCls (l : List Byte) : Nat := bits (le l 8 4) 25 3

/-- The frame of a descriptor as it enters the device. -/
def injFrame (d : Dev) (e c : Nat) (l frame : List Byte) : Frame :=
  let x := newFrame d (injPort l) (frame ++ fcsOf frame) true false
  { x with
    cls := if injMode l then x.cls else injCls l, tailIn := true, keyed := !injMode l, departIntent := le l 12 4
    inject := some (e, c, injMode l), tsReq := bit (le l 8 4) 15 }

/-- Status that refuses a descriptor at its fetch, 0 for none. -/
def injRefusal (d : Dev) (l : List Byte) (x : Frame) : Nat :=
  let p := injPort l
  let n := bits (le l 8 4) 0 14
  let at_ := le l 12 4
  if n < 60 ∨ fld d (Reg.port p + Reg.pMode) 16 14 < n + 4 then 1
  else if !ownPath d p then 2
  else if (!injMode l && decide (injCls l = 7)) || tileMarks d x.tile x x.vid then 3
  else if at_ ≠ 0 ∧ (injMode l = true ∨ 1000000 < sub32 at_ (tsuNs d)) then 4
  else 0

/-- A frame sent directly to its VOQ, or status 5 where the port is down or the buffer refuses it; it counts as one that arrived on `PORT`,
in the headroom and the XOFF of a lossless pair too (R262, R263, R671; DESIGN CHOICE, log entry 29). -/
def injDirect (d : Dev) (f : Nat) (x : Frame) (p : Nat) : Dev :=
  if d.boot.phase = .quiesced ∧ !portDead d p then dropFrame d f else sendCopies d f x [p] true x.cls none true

/-- A frame presented to the parser and the table complex as if received on its port. -/
def injLookup (d : Dev) (x : Frame) : Dev :=
  let d := tcnt d x.tile (Reg.parseFailCnt x.parse.fail)
  match if d.boot.phase = .quiesced then (none, d) else police d x.inPort x.bytes x with
  | (none, d) => let (f, d) := addFrame d { x with keyed := true, dead := true }; dropFrame d f
  | (some c, d) => (addFrame d { x with cls := c }).2

/-- Carry out descriptor c of engine e. -/
def injSend (d : Dev) (e c : Nat) (l frame : List Byte) : Dev :=
  let x := injFrame d e c l frame
  let st := injRefusal d l x
  let res := if st = 0 then none else some (st, 0)
  let d := d.onHost fun h => { h with inject := tmod [] h.inject e fun t => tins t c { desc := padTo 16 l, res } }
  if st ≠ 0 then d
  else if injMode l then injLookup d x
  else let (f, d) := addFrame d x; injDirect d f x (injPort l)

/-- The engine fetches the next descriptor and its frame, through a buffer of the cooper that it asks for once it has the descriptor
(R828); `err` 1 fails the descriptor's read, 2 the frame's (R665). -/
def injectDescriptor (e : Nat) (desc frame : List Byte) (err : Nat) (d : Dev) : Dev :=
  let c := injectNext d e
  if !dmaUp d || !descAt d true e c then d
  else if err ≠ 0 ∧ err ≠ 2 then ringStop d true e err
  else
    let n := if err = 0 then frame.length else injectLen desc
    let (st, off, d) := coopAlloc d (56 + e) (ceilDiv n 256)
    if st ≠ 0 ∧ 60 ≤ n ∧ n ≤ 10236 then d
    else
      let d := if err = 0 then injSend d e c desc frame else ringStop d true e err
      if st = 0 then coopFree d (56 + e) off else d

def execInjectDescriptor (e : Nat) (desc frame : List Byte) (err : Nat) (s : State) : Host.Outcome State Fault Refusal :=
  s.runIf (Instr.injectDescriptor e desc frame err).wf (injectDescriptor e desc frame err)

/-- The next descriptor in order whose status is known is written back. -/
def injectComplete (e : Nat) (d : Dev) : Dev :=
  let r := Reg.ring true e
  let c := rd d (r + Reg.rEvc)
  match tfind (tget [] d.host.inject e) c with
  | some { desc, res := some (st, stamp) } =>
    if !dmaUp d || !ringOn (rd d (r + Reg.rCfg)) || flag d (r + Reg.rSts) 1 then d
    else
      let stamp := if st = 0 ∧ bit (le desc 8 4) 15 then stamp else 0
      let b := desc ++ toLe 4 stamp ++ zeros 8 ++ toLe 4 (st + 2 ^ 31)
      let d := d.onHost fun h => { h with inject := tmod [] h.inject e fun t => tdel t c }
      let d := writeBack d true e c { desc := b, data := [] }
      if st = 0 then d else cnt d (r + Reg.rBad)
  | _ => d

def execInjectComplete (e : Nat) (s : State) : Host.Outcome State Fault Refusal :=
  s.runIf (Instr.injectComplete e).wf (injectComplete e)

/-! ## Configuration parity (R646 to R653) -/

/-- The island, by its number of Table 13-5, whose scrubber checks a register. Which of the islands of the safety plane holds
the safety block's settings the manual does not say: one of guard A, guard B and the housekeeping die. -/
def parIsland (d : Dev) (a : Nat) : Nat × Dev :=
  if a < 0x10_0000 then (37, d)
  else if a < 0x20_0000 then (40, d)
  else if a < 0x30_0000 then (41, d)
  else if a < 0x40_0000 then let (x, d) := fresh d; ([38, 39, 41].getD (x % 3) 38, d)
  else if a < 0x80_0000 then (37, d)
  else if a < 0xA0_0000 then ((a - 0x80_0000) / 0x2_0000, d)
  else if a < 0x200_0000 then ((a - 0x100_0000) / 0x10_0000, d)
  else if a < 0x240_0000 then (16 + (a - 0x200_0000) / 0x10_0000, d)
  else if a < 0x250_0000 then (20, d)
  else if 0x264_0000 ≤ a ∧ a < 0x265_0000 then (33 + (a - 0x264_0000) / 0x4000, d)
  else (37, d)

/-- The scrubber finds a CFG or MCFG register's parity wrong: once until the register is next written. -/
def parityScrub (a : Nat) (d : Dev) : Dev :=
  if !alive d || !(decide (Reg.kind a = some .cfg) || decide (Reg.kind a = some .mcfg)) || d.host.parBad.contains a then d
  else
    let (i, d) := parIsland d a
    let d := cnt (d.onHost fun h => { h with parBad := h.parBad ++ [a] }) Reg.parEvc
    let q := tget [] d.host.parQ i
    let d := if q.length < 4 then d.onHost fun h => { h with parQ := tins h.parQ i (q ++ [a]) } else cnt d Reg.parLost
    if i = 38 ∨ i = 39 then forceClaim d (i - 38) 2 else d

def execParityScrub (addr : Nat) (s : State) : Host.Outcome State Fault Refusal :=
  s.runIf (Instr.parityScrub addr).wf (parityScrub addr)

/-- The oldest record of an island arrives. -/
def parityRecord (i : Nat) (d : Dev) : Dev :=
  match tget [] d.host.parQ i with
  | [] => d
  | a :: q =>
    let w := a % 2 ^ 26 + 2 ^ 26 * b2n (Reg.hostWritten a)
    let d := d.onHost fun h => { h with parQ := tput [] h.parQ i q }
    cnt (wr (wr d (Reg.parHist (rd d Reg.parRec % 16)) w) Reg.parLast w) Reg.parRec

def execParityRecord (island : Nat) (s : State) : Host.Outcome State Fault Refusal :=
  s.runIf (Instr.parityRecord island).wf (parityRecord island)

/-- Firmware rewrites a recorded register that it writes; the vintage stays (R652). -/
def parityRewrite (a : Nat) (d : Dev) : Dev :=
  let seen := (List.range 16).any fun i => decide (rd d (Reg.parHist i) = a)
  if !d.boot.fwRunning || !d.host.parBad.contains a || Reg.hostWritten a || !seen then d
  else note (bb (wr d a (rd d a)) 33 0x33 (toLe 4 a)) 4 (toLe 4 a)

def execParityRewrite (addr : Nat) (s : State) : Host.Outcome State Fault Refusal :=
  s.runIf (Instr.parityRewrite addr).wf (parityRewrite addr)

end Sys2Proof.Machine
end

