-- ==== Sys2Proof/Machine/Access.lean ====
section
/-! DEFINITION. A running thread's accesses to its address map (Tables 10-1 and 10-9, R567, R588, R593 to R607, R619, R624). The table of
commands has no row for a load, a store or a fetch of its own: `TRAP` and `LONG_STALL` carry the access that they come from (log
entry 113). -/

namespace Sys2Proof.Machine

/-! ## The address map (Table 10-1) -/

/-- What a core address names: a scratchpad of a core through window w (0 direct, 1 rotate, 2 set, 3 clear) and port A or B; a register
by its BAR0 address, through the own core's block or the register space; the mirror of `CC_CYCLE`; control buffer memory; the cooper's
allocation and free ports; the maintenance ports of the tables. -/
inductive ThrTarget where
  | pad (core window off : Nat) (portB : Bool)
  | reg (addr : Nat) (own : Bool)
  | cycle (off : Nat)
  | cbuf (off : Nat)
  | alloc (n : Nat)
  | free
  | tables
  deriving DecidableEq, Repr

/-- The map of a thread on core c; `none` where Table 10-1 has nothing. -/
def thrTarget (c a : Nat) : Option ThrTarget :=
  if a < 0x40_0000 then (if a % 0x10_0000 < spmSize then some (.pad c (a / 0x10_0000) (a % 0x10_0000) false) else none)
  else if a < 0x40_4000 then some (.reg (Reg.core c + (a - 0x40_0000)) true)
  else if a < 0x40_4008 then some (.cycle (a - 0x40_4000))
  else if a < 0x1000_0000 then none
  else if a < 0x1100_0000 then
    if a % 0x10_0000 < spmSize then some (.pad ((a - 0x1000_0000) / 0x40_0000) (a / 0x10_0000 % 4) (a % 0x10_0000) true) else none
  else if 0x2000_0000 ≤ a ∧ a < 0x2100_0000 then some (.cbuf (a - 0x2000_0000))
  else if 0x2100_0000 ≤ a ∧ a < 0x2100_0200 then some (.alloc ((a - 0x2100_0000) / 4))
  else if 0x2100_1000 ≤ a ∧ a < 0x2100_1004 then some .free
  else if 0x4000_0000 ≤ a ∧ a < 0x4400_0000 then some (.reg (a - 0x4000_0000) false)
  else if 0x6000_0000 ≤ a ∧ a < 0x7000_0000 then some .tables
  else none

/-- Marked in Table 10-1: the access leaves the scratchpad. -/
def leavesPad (t : ThrTarget) : Bool :=
  match t with
  | .pad _ _ _ b => b
  | .reg _ own => !own
  | .cycle _ => false
  | _ => true

/-! ## What stops an access before it is performed -/

/-- Codes of Table 10-7: a misaligned address and an access fault; the kind bit of a region (R593). -/
def accMisaligned (k : AccKind) : Nat := match k with | .load => 4 | .store => 6 | .fetch => 0
def accDenied (k : AccKind) : Nat := match k with | .load => 5 | .store => 7 | .fetch => 1
def accRgn (k : AccKind) : Nat := match k with | .load => 0 | .store => 1 | .fetch => 2

/-- The natural alignment that an access needs: that of its size, of an instruction 2, and none in the rotate window. What a misaligned
access of the set and clear windows stores is free (log entry 92). -/
def alignOf (x : ThrAccess) (t : Option ThrTarget) : Nat :=
  if x.kind = .fetch then 2
  else match t with
    | some (.pad _ w _ _) => if w = 0 then x.size else 1
    | _ => x.size

/-- A register that only the cellarmaster writes (R588). -/
def cmOnly (a : Nat) : Bool :=
  if 0x264_0000 ≤ a ∧ a < 0x265_0000 then
    let o := (a - 0x264_0000) % 0x4000
    if o < 0x200 then [Reg.tTvec, Reg.tStkLo, Reg.tStkHi, Reg.tRestartVec, 0x30, Reg.tSampleCfg, Reg.tPerfPerm].contains (o % 0x40)
    else decide (o < 0x400 ∧ o % 0x80 < 0x44)
  else decide (Reg.ccEvtRoute 0 ≤ a ∧ a ≤ Reg.ccEvtRoute 30)

/-- The thread whose counter a register of a core's block is, if it is one (Table 10-12); the user page shows the same counters. -/
def counterOf (a : Nat) : Option Nat :=
  if 0x264_0000 ≤ a ∧ a < 0x265_0000 ∧ 0x1000 ≤ a % 0x4000 ∧ a % 0x4000 < 0x1200 then
    some (8 * ((a - 0x264_0000) / 0x4000) + a % 0x4000 / 0x40 % 8)
  else if 0x262_0000 ≤ a ∧ a < 0x262_0800 then some ((a - 0x262_0000) / 0x40)
  else none

/-- A guest's load of a counter: its own with `OWN`, another guest's with `GUESTS`, both through its core block (R624). -/
def counterMay (d : Dev) (n a : Nat) (own : Bool) : Bool :=
  match counterOf a with
  | none => true
  | some m => own && decide (28 ≤ m) && bit (treg d n Reg.tPerfPerm) (if m = n then 0 else 1)

/-- What the target itself answers with: the code of a trap, 16 for a region violation, `none` for an access that is performed. A
register, a port of the cooper and the cycle mirror take whole words only (log entry 113). -/
def targetFault (n : Nat) (x : ThrAccess) (t : ThrTarget) : Option Nat :=
  let denied := some (accDenied x.kind)
  match t with
  | .pad _ w off b =>
    if spmSize < off + x.size ∨ (2 ≤ w ∧ x.kind = .load ∧ x.size ≠ 4) then denied else if !b && decide (x.ecc = 2) then some 19 else none
  | .reg a _ =>
    if x.size ≠ 4 ∨ (Reg.kind a).isNone = true then denied
    else if x.kind = .store ∧ n ≠ 0 ∧ cmOnly a = true then denied
    else none
  | .cycle _ => if x.size ≠ 4 then denied else none
  | .cbuf _ => none
  | .alloc _ => if x.kind = .load ∧ x.size = 4 then none else denied
  | .free => if x.kind = .store ∧ x.size = 4 then none else denied
  | .tables => if isGuest n then some 16 else none

/-- A guest's load of a counter that R624 does not let it load, whatever the load's size and alignment. -/
def counterDenied (d : Dev) (n : Nat) (x : ThrAccess) (t : Option ThrTarget) : Bool :=
  match t with
  | some (.reg a own) => isGuest n && decide (x.kind = .load) && !counterMay d n a own
  | _ => false

/-- What stops an access of thread n: the region checker first, then alignment, then the map (log entry 113). -/
def accessFault (d : Dev) (n : Nat) (x : ThrAccess) : Option Nat :=
  let t := thrTarget (coreNum n) x.addr
  if !guestMay d n x.addr x.size (accRgn x.kind) || counterDenied d n x t then some 16
  else if x.addr % alignOf x t ≠ 0 then some (accMisaligned x.kind)
  else match t with
    | none => some (accDenied x.kind)
    | some t => targetFault n x t

/-- The trap or the fault of that code; tval is the faulting address. -/
def takeFault (n : Nat) (x : ThrAccess) (code : Nat) (d : Dev) : Dev :=
  if code = 16 then regionViolation d n x.addr
  else if code = 19 then faultThr (cnt d (Reg.core (coreNum n) + Reg.spmEccUncorr)) n 19
  else trapThr d n code x.addr

/-! ## Loads and stores at the targets -/

/-- A loaded value as the register takes it, extended by its sign or by zeros. -/
def loaded (x : ThrAccess) (v : Nat) : Nat := if x.signed && bit v (8 * x.size - 1) then v + (two32 - 256 ^ x.size) else v

/-- An access through a window of core c's scratchpad: what it loads, and the memory after it. -/
def padDo (x : ThrAccess) (c w off : Nat) (d : Dev) : Nat × Dev :=
  let load := decide (x.kind ≠ .store)
  if 2 ≤ w then windowRaw c off x.size load x.data (onWindowLoad (w = 3)) (onWindowStore (w = 3)) d
  else if load then (leVal (spmRead d c off x.size), d)
  else (0, spmWrite d c off (toLe x.size x.data))

/-- Count what an access through a window counts for its thread, and the errors it meets; poisoned data is whatever it is (R604). -/
def padAcc (n : Nat) (x : ThrAccess) (c w off : Nat) (d : Dev) : Nat × Dev :=
  let d := if w = 0 then d else perfAdd d n (if w = 1 then 11 else 12) 1
  let d := if x.ecc = 1 then cnt d (Reg.core c + Reg.spmEccCorr) else d
  let (v, d) := padDo x c w off d
  if x.ecc = 2 then freeBytes (cnt d (Reg.core c + Reg.spmEccUncorr)) x.size else (v, d)

/-- The held buffer that an offset of the control buffer memory lies in. -/
def heldAt (d : Dev) (o : Nat) : Option (Nat × Held) := d.cc.held.find? fun e => decide (e.1 ≤ o ∧ o < e.1 + poolSize e.2.pool)

/-- The first k bytes of a buffer, those that nothing has written yet free. -/
def heldBytes (d : Dev) (h : Held) (k : Nat) : List Byte × Dev :=
  if k ≤ h.data.length then (h.data, d) else let (x, d) := freeBytes d (k - h.data.length); (h.data ++ toLe (k - h.data.length) x, d)

/-- The byte at an offset outside every held buffer: free until a thread has touched it. -/
def looseByte (d : Dev) (o : Nat) : Nat × Dev :=
  match tfind d.cc.cbuf o with
  | some b => (b.toNat, d)
  | none => let (x, d) := freeBytes d 1; (x, d.onCc fun c => { c with cbuf := tins c.cbuf o (BitVec.ofNat 8 x) })

/-- An access to the control buffer memory (Table 10-1). -/
def cbufDo (x : ThrAccess) (o : Nat) (d : Dev) : Nat × Dev :=
  let load := decide (x.kind ≠ .store)
  match heldAt d o with
  | some (base, h) =>
    let (l, d) := heldBytes d h (o - base + x.size)
    let l := if load then l else overlay l (o - base) (toLe x.size x.data)
    (leVal ((l.drop (o - base)).take x.size), d.onCc fun c => { c with held := tins c.held base { h with data := l } })
  | none =>
    if load then
      (List.range x.size).foldl (fun a i => let (b, d) := looseByte a.2 (o + i); (a.1 + b * 256 ^ i, d)) (0, d)
    else
      (0, d.onCc fun c => { c with
        cbuf := (List.range x.size).foldl (fun m i => tins m (o + i) (BitVec.ofNat 8 (x.data / 256 ^ i))) c.cbuf })

/-- Bits of a register of this chapter that a store leaves alone, being reserved (R638). -/
def fwMask (a : Nat) : Nat :=
  if 0x264_0000 ≤ a ∧ a < 0x265_0000 then
    let o := (a - 0x264_0000) % 0x4000
    if o < 0x200 ∧ o % 0x40 = Reg.tSampleCfg then 0xFFFF_FF1F
    else if o < 0x200 ∧ o % 0x40 = Reg.tPerfPerm then 3
    else if o = Reg.corePwr then 3
    else if 0x200 ≤ o ∧ o < 0x400 ∧ o % 0x80 < 0x40 then (if o % 8 = 0 then 0xFFFF_FFCF else 0xFFFF_FFC0)
    else 0xFFFF_FFFF
  else if Reg.coopQuota 0 ≤ a ∧ a ≤ Reg.coopQuota 63 then 0x7FFF
  else if Reg.ccEvtRoute 0 ≤ a ∧ a ≤ Reg.ccEvtRoute 30 then 0x1FF
  else 0xFFFF_FFFF

/-- Thread n stores a word to a register (R588, R626, Table 11-3): what firmware writes takes the word, a command acts, every other
register stays. A sampling register starts its countdown anew, after what its thread has done so far (R621). -/
def fwStore (n a v : Nat) (d : Dev) : Dev :=
  let thr := 8 * ((a - 0x264_0000) / 0x4000) + a % 0x4000 / 0x40
  let inThr := decide (0x264_0000 ≤ a ∧ a < 0x265_0000 ∧ a % 0x4000 < 0x200)
  if inThr && decide (a % 0x40 = 0x30) then
    match v % 4 with
    | 1 => cmdThr d thr .start
    | 2 => cmdThr d thr .stop
    | 3 => cmdThr d thr .restart
    | _ => d
  else if a = Reg.cmWdog then wdogWrite n d
  else if a = Reg.tsuCmd then tsuCommand d v
  else if a = Reg.tsuCapCmd then tsuCapCmd d
  else if a = Reg.calLoadCmd then calLoad d
  else if Reg.sharedWrite a then wr d a (v &&& (Reg.hostMask a).getD 0)
  else
    let d := coreReg d a
    let d := if inThr && decide (a % 0x40 = Reg.tSampleCfg) then setThr (flushThr d thr) thr fun t => { t with sampleLeft := 0 } else d
    match Reg.kind a with
    | some .cfg | some .mcfg | some .ack => if Reg.hostWritten a then d else wr d a (v &&& fwMask a)
    | _ => d

/-- Thread n loads a register's word; where the manual gives no value it is free. -/
def fwLoad (n : Nat) (x : ThrAccess) (a : Nat) (d : Dev) : Nat × Dev :=
  let d := coreReg d a
  if inPadWin a then let c := (a - 0x280_0000) / 0x8_0000; padAcc n x c 0 (a % 0x8_0000) (portB d c)
  else if 0x262_0000 ≤ a ∧ a < 0x262_0800 then (readPerf d ((a - 0x262_0000) / 0x40) (a / 4 % 16), d)
  else match readBar0 d a with
    | some v => (v, d)
    | none => freeBytes d 4

/-- The access at its target: what it loads, and the device after it. What a store to a maintenance port does belongs to Ralku. -/
def targetDo (n : Nat) (x : ThrAccess) (t : ThrTarget) (d : Dev) : Nat × Dev :=
  let store := decide (x.kind = .store)
  match t with
  | .pad c w off b => padAcc n x c w off (if b then portB d c else d)
  | .reg a _ => if store then (0, fwStore n a x.data d) else fwLoad n x a d
  | .cycle o => (if o < 4 then ccCycle d % two32 else ccCycle d / two32 % two32, d)
  | .cbuf o => cbufDo x o d
  | .alloc k => let d := cooperRequest n k x.rd d; (d.cc.answer, d)
  | .free => (0, coopFree d n x.data)
  | .tables => if store then (0, d) else freeBytes d x.size

/-! ## The access -/

/-- The thread runs a fetched word of the custom-0 opcode (R575); the other instructions are those of RV32IMC. -/
def runWord (n w : Nat) (d : Dev) : Dev :=
  match threadWord n (xr d n) w with
  | some (.tret _ _ _) => tret n w 0 d
  | some (.twait _ r a b) => twait n r a b d
  | some (.tyield _) => tyield n d
  | some (.tpost _ a b) => tpost n a b d
  | some (.trap _ c v _ _) => trap n c v d
  | _ => d

/-- The access goes through port B of a scratchpad. -/
def viaPortB (t : ThrTarget) : Bool :=
  match t with
  | .pad _ _ _ b => b
  | .reg a _ => inPadWin a
  | _ => false

/-- A fetch: a whole word runs. Like a load's data, a word from outside the scratchpad comes in the command that asks for it; if the
thread still runs then, it switches out (R573, log entry 113). -/
def fetchDo (n : Nat) (x : ThrAccess) (t : ThrTarget) (d : Dev) : Dev :=
  let (v, d) := targetDo n x t d
  let d := if x.size = 4 then runWord n v d else d
  if leavesPad t && isState d n .running then issueOff d n else d

/-- A load or store; one that leaves the scratchpad has the thread switch out as it issues (R573). What a load through port B returns is
marked as poisoned where it met an error that is not corrected (R604). -/
def loadStore (n : Nat) (x : ThrAccess) (t : ThrTarget) (d : Dev) : Dev :=
  let d := advance d n (if x.short then 2 else 4)
  let (v, d) := targetDo n x t (if leavesPad t then issueOff d n else d)
  if x.kind = .load then setThr (setX d n x.rd (loaded x v)) n fun k => { k with poison := viaPortB t && decide (x.ecc = 2) } else d

/-- An access that is performed. -/
def accessDo (n : Nat) (x : ThrAccess) (t : ThrTarget) (d : Dev) : Dev :=
  if x.kind = .fetch then fetchDo n x t d else loadStore n x t d

/-- Bytes of the own scratchpad that a direct or rotate store writes through port A: the first and how many. -/
def storedBytes (x : ThrAccess) (t : ThrTarget) : Nat × Nat :=
  match t with
  | .pad _ w off false => if w ≤ 1 ∧ x.kind = .store then (off, x.size) else (0, 0)
  | _ => (0, 0)

/-- An access that reads after port B's write of the same cycle (R601); a set or clear window keeps port B waiting (R606). -/
def readsAfter (x : ThrAccess) (t : ThrTarget) : Bool :=
  match t with
  | .pad _ w _ false => decide (x.kind ≠ .store ∧ w ≤ 1)
  | _ => decide (x.kind ≠ .store)

/-- A running thread's access with port B's write of the cycle. -/
def accessWrite (n : Nat) (x : ThrAccess) (other : Option SpmOther) (d : Dev) : Dev :=
  let c := coreNum n
  if !isState d n .running then portBWrite d c 0 0 other
  else
    match accessFault d n x, thrTarget c x.addr with
    | some code, _ => withWrite n other (takeFault n x code) d
    | none, none => portBWrite d c 0 0 other
    | none, some t =>
      if readsAfter x t then accessDo n x t (portBWrite d c 0 0 other)
      else
        let b := storedBytes x t
        portBWrite (accessDo n x t d) c b.1 b.2 other

/-- A running thread's access with port B's own of the cycle. -/
def threadAccess (n : Nat) (x : ThrAccess) (other : Option SpmOther) (d : Dev) : Dev :=
  portBRead (accessWrite n x other d) (coreNum n) other

/-! ## TRAP and LONG_STALL -/

/-- A trap by its code, or an access with the trap that it raises. -/
def trapRow (n code tval : Nat) (other : Option SpmOther) (acc : Option ThrAccess) (d : Dev) : Dev :=
  match acc with
  | none => withFrame n other (trap n code tval) d
  | some x => threadAccess n x other d

def execTrap (thr code tval : Nat) (s : State) (other : Option SpmOther := none) (acc : Option ThrAccess := none) :
    Host.Outcome State Fault Refusal :=
  s.runIf (Instr.trap thr code tval other acc).wf (trapRow thr code tval other acc)

/-- A stall that has lasted 24 cycles (R570): on its own, or behind an access of the own core's memory or block. -/
def stallNow (n : Nat) (d : Dev) : Dev := if isState d n .running then stall d n else d

/-- A long stall of the running thread: an access that leaves the scratchpad, or one, or none, that has waited 24 cycles. -/
def longStall (n : Nat) (acc : Option ThrAccess) (other : Option SpmOther) (d : Dev) : Dev :=
  match acc with
  | none => withFrame n other (stallNow n) d
  | some x =>
    let e := threadAccess n x other d
    if isState d n .running && (accessFault d n x).isNone then stallNow n e else e

def execLongStall (thr : Nat) (s : State) (acc : Option ThrAccess := none) (other : Option SpmOther := none) :
    Host.Outcome State Fault Refusal :=
  s.runIf (Instr.longStall thr acc other).wf (longStall thr acc other)

end Sys2Proof.Machine
end

