-- ==== Sys2Proof/Machine/Audit.lean ====
section
/-! DEFINITION. Passes over the buffers: over-age (R298 to R302) and the lees audit (R303 to R307). -/

namespace Sys2Proof.Machine

/-! ## Over-age -/

/-- Queue key of a copy that waits whole in a VOQ, its staging or its cellar segment, or in a lifeline queue. -/
def waitKey (c : Copy) : Option (Nat × Nat × Bool) :=
  if c.cls = 7 then none
  else if c.lifeline then (if c.loc = .landed then some (0, c.voq, true) else none)
  else if (c.loc = .voq ∨ c.loc = .staging ∨ c.loc = .cellar) ∧ c.sent = 0 then some (c.tile, c.voq, false)
  else none

/-- Over-age copies at the heads of their queues, in the order of the copies. -/
def staleHeads (d : Dev) (l : List (Nat × Copy)) (blocked : List (Nat × Nat × Bool)) : List (Nat × Nat) :=
  match l with
  | [] => []
  | (id, c) :: r =>
    match waitKey c with
    | none => staleHeads d r blocked
    | some k =>
      if blocked.contains k then staleHeads d r blocked
      else if overAge d c.tile c then (id, c.tile) :: staleHeads d r blocked
      else staleHeads d r (k :: blocked)

/-- Over-age copies at the head of an egress queue. -/
def staleQueue (d : Dev) (p c : Nat) : List (Nat × Nat) :=
  ((queueOf d p c).takeWhile fun id => ((copyOf d id).map fun x => decide (x.loc = .queued) && overAge d (tileOf p) x).getD false).map
    fun id => (id, tileOf p)

def staleEgress (d : Dev) (p : Nat) : List (Nat × Nat) := (List.range 7).flatMap (staleQueue d p)

def overagePass (d : Dev) : Dev :=
  if !alive d then d
  else
    let n := d.buf.overPass + 1
    let d := (reach d (d.boot.releasedAt + n * (10 * ps_ms))).onBuf fun b => { b with overPass := n }
    let stale := staleHeads d d.buf.copies [] ++ (d.egr.map (·.1)).flatMap (staleEgress d)
    let d := stale.foldl (fun d e => discardCopy (tcnt d e.2 Reg.dropOverage) e.1) d
    (d.egr.map (·.1)).foldl syncHeads d

def execOveragePass (s : State) : Host.Outcome State Fault Refusal := s.runIf Instr.overagePass.wf overagePass

/-! ## Lees -/

/-- Cross-linked cells or racks as a pass finds them: with the frames, and with the mirror copies, that own them. -/
def joinLinks (crossed mirrors : List (Nat × List Nat)) : List CrossLink :=
  ((crossed ++ mirrors).map (·.1)).eraseDups.map fun n =>
    let of := fun (l : List (Nat × List Nat)) => (l.filter fun e => decide (e.1 = n)).flatMap (·.2)
    { num := n, frames := of crossed, mirrors := of mirrors }

/-- A tile's cell passes end 10 ms apart and a controller's rack passes 1 s apart (R303), the first of them at a moment that the
manual leaves open (log entry 31). -/
def nextPass (d : Dev) (at_ : Tab Nat) (n period : Nat) : Dev :=
  match tfind at_ n with
  | some a => reach d (a + period)
  | none => d

/-- Cross-linked cells or racks that a frame owns (R305). -/
def linksFound (d : Dev) (l : List CrossLink) : List CrossLink := l.filter (linkHeld d)

/-- Cross-linked ones still held, with those just found. -/
def keepLinks (d : Dev) (old new : List CrossLink) : List CrossLink := linksFound d old ++ new

/-- What is neither free nor owned, beside what is cross-linked. -/
def unowned (own linked all : List Nat) : List Nat := all.eraseDups.filter fun c => !(own ++ linked).contains c

/-- Count and record one cell (R306): `last` is the word of `LEES_CELL_LAST`. -/
def leesCell (t : Nat) (d : Dev) (last : Nat) : Dev :=
  let d := wr (tcnt (tcnt d t Reg.leesCellEvc) t Reg.leesCellReclaim) (Reg.tile t + Reg.leesCellLast) last
  bb d t 0x21 (toLe 4 t ++ toLe 4 last)

/-- A pass of a tile's cells ends: what two passes found unowned returns to the free list; what is cross-linked leaves it until its
frames are gone. -/
def leesCellPass (t : Nat) (orphans : List Nat) (crossed mirrors : List (Nat × List Nat)) (d : Dev) : Dev :=
  if !alive d then d
  else
    let d := nextPass d d.buf.leesCellAt t (10 * ps_ms)
    let found := unowned (ownedCells d t) (crossLinked d d.buf.crossCells t) (tget [] d.buf.lost t ++ orphans)
    let gone := found.filter (tget [] d.buf.leesCells t).contains
    let rest := found.filter fun c => !gone.contains c
    let links := linksFound d (joinLinks crossed mirrors)
    let d := d.onBuf fun b => { b with
      leesCells := tput [] b.leesCells t rest
      lost := tput [] b.lost t rest
      crossCells := tput [] b.crossCells t (keepLinks d (tget [] b.crossCells t) links)
      leesCellAt := tins b.leesCellAt t d.now }
    let d := links.foldl condemnOwners d
    let words := gone ++ links.map fun e => e.num + 65536
    let d := words.foldl (leesCell t) d
    match words.getLast? with
    | none => d
    | some w => note d 5 (toLe 4 t ++ toLe 4 w)

def execLeesCellPass (tile : Nat) (orphans : List Nat) (crossed : List (Nat × List Nat)) (s : State)
    (mirrors : List (Nat × List Nat) := []) : Host.Outcome State Fault Refusal :=
  s.runIf (Instr.leesCellPass tile orphans crossed mirrors).wf (leesCellPass tile orphans crossed mirrors)

def leesRack (s : Nat) (d : Dev) (last : Nat) : Dev :=
  bb (wr (cnt (cnt d Reg.leesRackEvc) Reg.leesRackReclaim) Reg.leesRackLast last) (29 + s) 0x22 (zeros 4 ++ toLe 4 last)

/-- Racks of a stack that a segment owns. -/
def ownedRacks (d : Dev) (s : Nat) : List Nat :=
  d.buf.segs.flatMap fun e => (e.2.racks.filter fun r => decide (r.stack = s)).map (·.rack)

/-- A pass of a stack's racks ends; a stopped controller makes none. -/
def leesRackPass (s : Nat) (orphans : List Nat) (crossed mirrors : List (Nat × List Nat)) (d : Dev) : Dev :=
  if !alive d || !d.buf.running.contains s then d
  else
    let d := nextPass d d.buf.leesRackAt s ps_s
    let used := tget [] d.buf.usedRacks s
    let found := unowned (ownedRacks d s) (crossLinked d d.buf.crossRacks s) (used ++ orphans)
    let gone := found.filter (tget [] d.buf.leesRacks s).contains
    let rest := found.filter fun c => !gone.contains c
    let links := linksFound d (joinLinks crossed mirrors)
    let d := d.onBuf fun b => { b with
      leesRacks := tput [] b.leesRacks s rest
      usedRacks := tput [] b.usedRacks s ((used.filter fun r => !gone.contains r) ++ rest.filter fun r => !used.contains r)
      crossRacks := tput [] b.crossRacks s (keepLinks d (tget [] b.crossRacks s) links)
      leesRackAt := tins b.leesRackAt s d.now }
    let d := links.foldl condemnOwners d
    let words := gone.map (· + 2 ^ 23 * s) ++ links.map fun e => e.num + 2 ^ 23 * s + 2 ^ 25
    let d := words.foldl (leesRack s) d
    match words.getLast? with
    | none => d
    | some w => note d 5 (toLe 4 16 ++ toLe 4 w)

def execLeesRackPass (stack : Nat) (orphans : List Nat) (crossed : List (Nat × List Nat)) (s : State)
    (mirrors : List (Nat × List Nat) := []) : Host.Outcome State Fault Refusal :=
  s.runIf (Instr.leesRackPass stack orphans crossed mirrors).wf (leesRackPass stack orphans crossed mirrors)

end Sys2Proof.Machine
end

