-- ==== Sys2Proof/Machine/Health.lean ====
section
/-! DEFINITION. Health (chapter 14): the thermal governor, the wear integrator, the margin plan, and the vintage beacons. -/

namespace Sys2Proof.Machine

/-! ## The governor (R776 to R779, Tables 14-10 and 14-11) -/

/-- Sensors of one die: the core die's 24, then one for each other die. -/
def sensorDies : List (List Nat) := List.range 24 :: (List.range 13).map fun i => [24 + i]

/-- Show the readings; an excluded sensor's °C is left open. -/
def showSensors (d : Dev) (l : List (Option Nat)) (i : Nat) : Dev :=
  match l with
  | [] => d
  | some t :: r => showSensors (wr d (Reg.thermSensor i) (256 + t)) r (i + 1)
  | none :: r => let (x, d) := fresh d; showSensors (wr d (Reg.thermSensor i) (x % 256)) r (i + 1)

/-- A die with fewer than half of its sensors valid. -/
def blindDie (l : List (Option Nat)) (die : List Nat) : Bool :=
  decide (2 * (die.filter fun i => (l.getD i none).isSome).length < die.length)

/-- Hottest reading and its sensor, the lowest-numbered of equals; a blind die reads 108 °C at its first sensor. -/
def hottest (l : List (Option Nat)) : Nat × Nat :=
  let valid := (List.range l.length).filterMap fun i => (l.getD i none).map fun t => (t, i)
  let blind := (sensorDies.filter (blindDie l)).filterMap fun x => x.head?.map fun i => (108, i)
  (valid ++ blind).foldl (fun a x => if a.1 < x.1 then x else a) (0, 0)

/-- Steps that go and return: temperature, release level, health code. -/
def govSteps : List (Nat × Nat × Nat) := [(95, 92, 1), (100, 97, 2), (103, 100, 3)]

/-- The reading has been below a level for 1 s. -/
def coolLong (d : Dev) (step : Nat) : Bool := ((tfind d.health.below step).map fun t => decide (t + ps_s ≤ d.now)).getD false

/-- Follow how long the reading has been below a step's release level. -/
def coolFrom (d : Dev) (step release hot : Nat) : Dev :=
  d.onHealth fun h => { h with below :=
    if hot < release then (if (tfind h.below step).isSome then h.below else tins h.below step d.now) else tdel h.below step }

/-- Trap-queue buckets are brought up to now at the old rates before limit 1 begins or ends. -/
def settleTraps (d : Dev) : Dev :=
  d.host.trapBkt.foldl (fun d e => setTrapBucket d (e.1 / 2) (decide (e.1 % 2 = 1)) (trapBucket d (e.1 / 2) (decide (e.1 % 2 = 1)))) d

/-- A governor bucket begins full. -/
def freshGov (d : Dev) : Dev := { d with egr := d.egr.map fun e => (e.1, { e.2 with buckets := tdel e.2.buckets 8 }) }

def setStep (d : Dev) (step : Nat) (on : Bool) : Dev :=
  let d := if step = 100 then settleTraps d else if step = 103 then freshGov d else d
  cnt (d.onHealth fun h => { h with steps := (if on then h.steps ++ [step] else h.steps.filter (· ≠ step)), below := tdel h.below step })
    Reg.thermEvc

/-- One step of Table 14-10 against a reading. -/
def govStep (hot : Nat) (d : Dev) (s : Nat × Nat × Nat) : Dev :=
  let (step, release, h) := s
  if !d.health.steps.contains step then
    if step ≤ hot then healthEvent (setStep d step true) h (toLe 1 1 ++ toLe 1 hot) else d
  else
    let d := coolFrom d step release hot
    if coolLong d step then healthEvent (setStep d step false) h (toLe 1 0 ++ toLe 1 hot) else d

/-- A port without a committed stream or telegram is disabled at the trip. -/
def tripPort (d : Dev) (p : Nat) : Dev :=
  if !ownPath d p || safeUses d p then d
  else
    mmStop (setFld (stopPort d p) (Reg.port p + Reg.pMode) 0 4 0) p

/-- The frames of a trap queue, none of which is of TC7 any more (R488), are discarded at the trip. -/
def dropTraps (d : Dev) (q : Nat) : Dev :=
  (trapQueue d q).foldl (fun d t => coopFree d (48 + q) t.buf) (d.onHost fun h => { h with trapQ := tput [] h.trapQ q [] })

/-- QUIESCED (R777, R778): only TC7 frames and telegrams go on; every other frame is discarded, those of the trap queues and the
express MACs' control frames too, and no pair stays in XOFF. -/
def quiesce (d : Dev) : Dev :=
  let d := (List.range 8).foldl dropTraps ((List.range 512).foldl tripPort d)
  let d := ((d.buf.frames.filter fun e => decide (e.2.cls ≠ 7)).map (·.1)).foldl condemn d
  let d := d.onBuf fun b => { b with segs := [], usedRacks := [], rackQ := [], stackWake := [], xoff := [] }
  let d := { d with egr := d.egr.map fun (e : Nat × EgrPort) => (e.1, { e.2 with ctl := [] }) }
  let d := setFlag (d.onBoot fun b => { b with phase := .quiesced, lifeline := false }) Reg.hkFault 0 true
  triggerOn (setSafe d 21 true) 2

/-- The trip, which only a reset ends; its trigger ends once the reading has been below 100 °C for 1 s. -/
def govTrip (hot sensor : Nat) (d : Dev) : Dev :=
  if !d.health.steps.contains 108 then
    if 108 ≤ hot then quiesce (mramTrigger (healthEvent (setStep d 108 true) 4 (toLe 1 sensor ++ toLe 1 hot)) 5) else d
  else if !safeFlag d 21 then d
  else
    let d := coolFrom d 108 100 hot
    if coolLong d 108 then triggerOff (setSafe d 21 false) else d

/-- Whole seconds of `a` ps count in a register; the rest stays. -/
def hotSeconds (d : Dev) (a reg : Nat) : Dev := if ps_s ≤ a then cntAdd d reg (a / ps_s) else d

/-- Seconds at or above 95 and 103 °C up to this reading, by the reading before it. -/
def hotTime (d : Dev) : Dev :=
  let t := fld d Reg.thermSts 0 8
  let dt := d.now - d.health.readAt
  let a := d.health.hot95 + if 95 ≤ t then dt else 0
  let b := d.health.hot103 + if 103 ≤ t then dt else 0
  let d := hotSeconds (hotSeconds d a Reg.thermSec95) b Reg.thermSec103
  d.onHealth fun h => { h with readAt := d.now, hot95 := a % ps_s, hot103 := b % ps_s }

/-- Sensors that fail their self-check now are reported once (R779). -/
def excludeSensors (d : Dev) (l : List (Option Nat)) : Dev :=
  let bad := (List.range l.length).filter fun i => (l.getD i none).isNone
  let new := bad.filter fun i => !d.health.excluded.contains i
  let d := d.onHealth fun h => { h with excluded := bad }
  new.foldl (fun d i => healthEvent d 5 (toLe 1 i)) d

/-- The guards' islands by their own sensors, 21 and 22 (Table 14-11, R482); an excluded sensor says nothing. -/
def guardTemps (l : List (Option Nat)) (d : Dev) : Dev :=
  (List.range 2).foldl (fun d g => match l.getD (21 + g) none with
    | some t => guardTemp d g (decide (105 < t))
    | none => d) d

/-- The sensor monitors run wherever the housekeeping die does, in RESET too (Table 14-1, R756); the trip and the guards' islands are
the running device's. -/
def thermalReading (l : List (Option Nat)) (d : Dev) : Dev :=
  if !hkOn d then d
  else
    let d := hotTime (reach d (d.health.readAt + ps_ms))
    let d := showSensors (excludeSensors d l) l 0
    let (hot, sensor) := hottest l
    let d := if alive d then guardTemps l d else d
    let d := govSteps.foldl (govStep hot) d
    let d := if alive d then govTrip hot sensor d else d
    let on := fun (s i : Nat) => (2 ^ i) * b2n (d.health.steps.contains s)
    wr (wr d Reg.thermSts (hot + on 95 8 + on 100 9 + on 103 10 + on 108 11)) Reg.thermPeak (max hot (rd d Reg.thermPeak))

def execThermalReading (readings : List (Option Nat)) (s : State) : Host.Outcome State Fault Refusal :=
  s.runIf (Instr.thermalReading readings).wf (thermalReading readings)

/-! ## Wear (R774) -/

/-- The greatest k below 2^b above its start with k^m ≤ n. -/
def rootBits (m n b k : Nat) : Nat :=
  match b with
  | 0 => k
  | b + 1 => rootBits m n b (if (k + 2 ^ b) ^ m ≤ n then k + 2 ^ b else k)

/-- 2^((T − 85) / 7.74) in units of 2^−32, rounded down: (T − 85) / 7.74 is (100 T − 8,500) / 774. -/
def wearRate (t : Nat) : Nat := rootBits 774 (2 ^ (32 * 774 + 100 * t - 8500)) 45 0

/-- Each second of wear, on the housekeeping die, while a monitor holds the rest in reset too (R756); how the integrator rounds is
left open. -/
def wearIntegrate (d : Dev) : Dev :=
  if !hkOn d then d
  else
    let d := reach d (d.health.wearAt + ps_s)
    let (x, d) := fresh d
    let d := d.onHealth fun h => { h with wear := h.wear + wearRate (fld d Reg.thermSts 0 8) + x % 2, wearAt := d.now }
    wr d Reg.ageWear (d.health.wear / (360 * two32))

def execWearIntegrate (s : State) : Host.Outcome State Fault Refusal := s.runIf Instr.wearIntegrate.wf wearIntegrate

/-! ## The margin plan (R773, R775, Table 14-9) -/

def coreMv (d : Dev) : Nat := fld d Reg.avsVout 0 16

/-- Every ring-oscillator pair is measured; only the worst is named, the others lie at or below it. -/
def showPairs (p : MarginPlan) (d : Dev) (j : Nat) : Dev :=
  if j = p.worstPair then wr d (Reg.ageRo j) p.worstRo
  else let (x, d) := fresh d; wr d (Reg.ageRo j) (x % (p.worstRo + 1))

/-- A tile's nominal clock in kHz (R16), and the clock target that plans have left it. -/
def nominalClk : Nat := 1625000
def tileClk (d : Dev) (t : Nat) : Nat := tget nominalClk d.health.tileClk t

/-- Bit t: tile t's clock target lies below nominal (Table 14-9). -/
def tilesLow (d : Dev) : Nat := bitSet ((List.range 16).filter fun t => tileClk d t < nominalClk)

/-- An AVSBus readback of mv confirms the setpoint that was commanded where it lies within 25 mV of it (DESIGN CHOICE for R792, log entry
118). -/
def confirmSet (d : Dev) (mv : Nat) : Dev :=
  if mv ≤ coreMv d + 25 ∧ coreMv d ≤ mv + 25 then d.onHealth fun h => { h with avsSet := coreMv d } else d

/-- The voltage goes from `a` to `b` mV in steps of 5 mV, 10 ms apart (R773), and is read back. -/
def avsStep (d : Dev) (a b : Nat) : Dev :=
  let n := ceilDiv (max a b - min a b) 5
  let d := reach d (d.now + (n - 1) * (10 * ps_ms))
  let (x, d) := fresh d
  confirmSet (wr d Reg.avsVout (b + 65536 * (x % 65536))) (x % 65536)

/-- What a plan sets (R773): `VDD_CORE`, each tile's clock target, each lane's equalisation targets. -/
def setPlan (p : MarginPlan) (d : Dev) : Dev :=
  let d := avsStep d (coreMv d) (max 650 (min 800 p.vddAfter))
  let clk := (List.range 16).foldl (fun m t => tput nominalClk m t (p.tileClk.getD t nominalClk)) d.health.tileClk
  d.onHealth fun h => { h with tileClk := clk, laneEq := p.laneEq.foldl (fun m e => tins m e.1 e.2) h.laneEq }

/-- Run the plan: the device after it and the response of Table 14-9. A plan with every monitor within margin needs nothing. -/
def runPlan (apply : Bool) (p : MarginPlan) (d : Dev) : List Byte × Dev :=
  let before := coreMv d
  let newLow := !p.clean && (List.range 16).any fun t => decide (p.tileClk.getD t nominalClk < tileClk d t)
  let limit := !p.clean && decide (800 < p.vddAfter)
  let d := (List.range 96).foldl (showPairs p) d
  let d := if apply && !p.clean then setPlan p d else d
  let after := coreMv d
  let n := (rd d Reg.agePlanSeq + 1) % two32
  let d := wr (wr d Reg.agePlanSeq n) Reg.ageLife p.life
  let flags := b2n apply + 2 * b2n limit + 4 * b2n newLow + 8 * b2n p.stackLow
  let rsp := toLe 2 after ++ toLe 2 before ++ toLe 2 p.worstRo ++ toLe 1 p.worstPair ++ toLe 1 flags ++ toLe 2 p.eye ++ toLe 2 p.eyeLane
    ++ toLe 2 p.hbm ++ toLe 1 p.hbmStack ++ [0] ++ toLe 4 (rd d Reg.ageWear) ++ toLe 4 p.life ++ toLe 2 (tilesLow d) ++ toLe 2 0 ++ toLe 4 n
  let d := if limit then healthEvent d 14 (toLe 4 n) else d
  let d := if p.life < 8760 then healthEvent d 15 (toLe 4 p.life) else d
  (rsp, note d 11 (rsp.take 2 ++ (rsp.drop 7).take 1 ++ [0] ++ (rsp.drop 16).take 8 ++ (rsp.drop 28).take 4))

def marginPlanRun (ch : Nat) (p : MarginPlan) (d : Dev) : Dev :=
  runCmd d ch 0x801 0 anySlot (lenIs 4) fun d sl =>
    if 1 < le sl.payload 0 1 ∨ le sl.payload 1 3 ≠ 0 then fail d eArg
    else let (rsp, d) := runPlan (bit (le sl.payload 0 1) 0) p d; { dev := d, payload := rsp }

def execMarginPlanRun (ch : Nat) (plan : MarginPlan) (s : State) : Host.Outcome State Fault Refusal :=
  s.runIf (Instr.marginPlanRun ch plan).wf (marginPlanRun ch plan)

/-- Every 24 h from full service. -/
def marginPlanDaily (p : MarginPlan) (d : Dev) : Dev :=
  if !d.boot.fwRunning || decide (d.boot.phase ≠ .full) then d
  else
    let d := reach d (d.health.planAt + 86400 * ps_s)
    (runPlan true p (d.onHealth fun h => { h with planAt := d.now })).2

def execMarginPlanDaily (plan : MarginPlan) (s : State) : Host.Outcome State Fault Refusal :=
  s.runIf (Instr.marginPlanDaily plan).wf (marginPlanDaily plan)

/-! ## Beacons (R768 to R771, Tables 14-5 and 14-6) -/

def serialNo (d : Dev) : Nat := rd d 8 + two32 * rd d 0xC

/-- Group identifier and whether beacons are enabled (Table 12-6 type 24). -/
def groupId (d : Dev) : Nat := le (cfgOf d 24 0) 0 4
def beaconsOn (d : Dev) : Bool := bit (le (cfgOf d 24 0) 4 1) 0

/-- The beacon of a port, without its FCS. -/
def beaconBytes (d : Dev) (p : Nat) : List Byte :=
  toBe 6 0x0180C200000E ++ [0x02] ++ toBe 5 (serialNo d % 2 ^ 40) ++ toBe 2 0x88B5 ++ [1] ++ toBe 1 (b2n d.boot.startCfg) ++ toBe 2 p
    ++ toBe 8 (serialNo d) ++ toBe 4 (groupId d) ++ toBe 4 d.host.vintage ++ toBe 8 (digest d) ++ toBe 4 (rd d Reg.safeVintage)
    ++ toBe 8 (safeDigest d.safe.cfg) ++ zeros 6

/-- Engine number of firmware's own direct injection, which no ring has. -/
def fwEngine : Nat := 8

/-- When the beacon of a port is due next: the k-th of the n ports that send beacons takes the k-th n-th of each 100 ms. -/
def beaconDue (d : Dev) (p : Nat) : Nat :=
  let ports := (List.range 512).filter fun q => !portDead d q
  let t := max d.now (tget 0 d.health.beaconAt p + 1)
  let period := 100 * ps_ms
  t + (period * (ports.findIdx (· == p)) / ports.length + period - t % period) % period

def beaconSend (p : Nat) (d : Dev) : Dev :=
  if !d.boot.fwRunning || decide (d.boot.phase ≠ .full) || !beaconsOn d || portDead d p then d
  else
    let t := beaconDue d p
    let d := (reach d t).onHealth fun h => { h with beaconAt := tins h.beaconAt p t }
    let l := beaconBytes d p
    let x := { newFrame d p (l ++ fcsOf l) true false with cls := 6, tailIn := true, keyed := true, inject := some (fwEngine, 0, false) }
    let (f, d) := addFrame d x
    injDirect d f x p

def execBeaconSend (port : Nat) (s : State) : Host.Outcome State Fault Refusal := s.runIf (Instr.beaconSend port).wf (beaconSend port)

/-- Peer state of a port (Table 14-6). -/
def peerCode (d : Dev) (p : Nat) : Nat :=
  match tfind d.health.peers p with
  | none => 0
  | some k =>
    if k.since + 350 * ps_ms < d.now then 0
    else if k.serial = serialNo d then 5
    else if k.group ≠ groupId d then 4
    else if k.digest = digest d then 1
    else match k.diffSince with
      | some t => if d.now < t + 60 * ps_s then 2 else 3
      | none => 2

/-- A digest that differs within the group starts the 60 s; one that does not, ends them. -/
def markDiff (d : Dev) (p : Nat) : Dev :=
  d.onHealth fun h => match tfind h.peers p with
    | none => h
    | some k =>
      let differs := decide (peerCode d p = 2 ∨ peerCode d p = 3)
      { h with peers := tins h.peers p { k with diffSince := if differs then some (k.diffSince.getD d.now) else none } }

/-- Set the peer state of one port; entries to and exits from MISMATCH are reported. -/
def peerUpdate (d : Dev) (p : Nat) : Dev :=
  let d := markDiff d p
  let was := peerState d p
  let s := peerCode d p
  let d := setFld d (Reg.vintPeer (p / 8)) (4 * (p % 8)) 4 s
  if decide (was = 3) = decide (s = 3) then d
  else
    let (v, g) := match tfind d.health.peers p with
      | some k => (k.vintage, k.digest)
      | none => (0, 0)
    note d 10 (toLe 2 p ++ toLe 1 s ++ [0] ++ toLe 4 v ++ toLe 8 g)

/-- A beacon at the head of a queue that Ralku keeps: the last one with `VERSION` 1 counts, and every one has the state set (R769). -/
def beaconReceive (q : Nat) (d : Dev) : Dev :=
  match trapQueue d q with
  | [] => d
  | t :: _ =>
    let l := t.frame.bytes
    let p := t.frame.inPort
    if !d.boot.fwRunning || (trapRing d q).isSome || decide (t.cause ≠ 5) then d
    else
      let d := trapTake d q
      if be l 14 1 ≠ 1 then peerUpdate d p
      else
        let old := (tfind d.health.peers p).bind (·.diffSince)
        let k : Peer := { serial := be l 18 8, group := be l 26 4, vintage := be l 30 4, digest := be l 34 8, since := d.now, diffSince := old }
        peerUpdate (d.onHealth fun h => { h with peers := tins h.peers p k }) p

def execBeaconReceive (queue : Nat) (s : State) : Host.Outcome State Fault Refusal :=
  s.runIf (Instr.beaconReceive queue).wf (beaconReceive queue)

/-- Every 100 ms, each port that has a peer or shows the state of one. -/
def peerStateUpdate (d : Dev) : Dev :=
  if !d.boot.fwRunning then d
  else
    let d := reach d (d.health.peerAt + 100 * ps_ms)
    let d := d.onHealth fun h => { h with peerAt := d.now }
    ((List.range 512).filter fun p => (tfind d.health.peers p).isSome || decide (peerState d p ≠ 0)).foldl peerUpdate d

def execPeerStateUpdate (s : State) : Host.Outcome State Fault Refusal := s.runIf Instr.peerStateUpdate.wf peerStateUpdate

end Sys2Proof.Machine
end

