-- ==== Sys2Proof/Machine/Bringup.lean ====
section
/-! DEFINITION. Supplies, resets, monitors and bring-up (chapters 14 and 15): from the first supply to full service. -/

namespace Sys2Proof.Machine

/-! ## Resets (R753, R754, R756) -/

/-- The device in reset: the standby domain's calendar, what MRAM holds (the safety configuration with its vintage, the copy
slots and the history of proof tests), the black-box ring and a copy on its way stay; everything else is as after reset. -/
def resetDev (d : Dev) : Dev :=
  { regs := d.regs.filter fun e => decide (e.1 = Reg.safeVintage)
    now := d.now, freeCtr := d.freeCtr, pins := { d.pins with ppsOutUntil := 0, ppsLaunch := 0 }
    boot := { monitor := d.boot.monitor, monitorAt := d.boot.monitorAt, invalid := d.boot.invalid }
    time := { calSec := d.time.calSec, calSub := d.time.calSub, calAt := d.time.calAt, calWrapped := d.time.calWrapped,
              calNotSet := d.time.calNotSet, stbyEpoch := d.time.stbyEpoch }
    safe := { cfg := d.safe.cfg, proofs := d.safe.proofs }
    tel := { ring := d.tel.ring, seq := d.tel.seq, slots := d.tel.slots, copy := d.tel.copy, heldTrig := d.tel.heldTrig,
             trigDue := d.tel.trigDue } }

/-- Reset ends: lifeline mode begins, and the counters and timers of the core die start from now (R413, Table 14-4). Every lane die
starts with its slave counter not yet aligned (R414); tiles and output stages take the image's safety VID map, and a `STOP_ACK_N` that
is low counts from now (R529), or from its fall if only a monitor held the device. The first ageing sweep of R195 comes T/2 after this
(DESIGN CHOICE, log entry 115). -/
def startUp (d : Dev) : Dev :=
  let d := (wr d Reg.tsuSts 0xFF00).onTime fun t => { t with slaveAt := (List.range 8).map fun k => (k, d.now) }
  let cores := (List.range 4).map fun c => (c, { coreOf d c with idleAt := d.now, portBAt := d.now, stoppedAt := d.now, testAt := d.now })
  let d := (d.onBoot fun b => { b with phase := .lifeline, releasedAt := d.now }).onCc fun c => { c with core := cores, wdogAt := d.now }
  let d := (setThr d 0 fun t => { t with since := d.now }).onFwd fun w => { w with sweepAt := d.now }
  let d := putMaps d true d.safe.cfg.vids
  let d := d.onSafe fun s => { s with ackFallAt := if d.pins.stopAckN then none else some (s.ackFallAt.getD d.now) }
  (wr d Reg.hkBootMs 0).onHealth fun h => { h with readAt := d.now, wearAt := d.now, peerAt := d.now, planAt := d.now }

def resetNFall (d : Dev) : Dev :=
  if !hkOn d || !d.pins.resetN then d
  else setFlag (resetDev (d.onPins fun p => { p with resetN := false })) Reg.hkFault 3 d.boot.monitor

def execResetNFall (s : State) : Host.Outcome State Fault Refusal := s.runIf Instr.resetNFall.wf resetNFall

/-- `RESET_N` rises; a monitor may still hold the device. -/
def resetRelease (d : Dev) : Dev :=
  if !hkOn d || d.pins.resetN then d
  else
    let d := d.onPins fun p => { p with resetN := true }
    if d.boot.monitor then d else startUp d

def execResetRelease (s : State) : Host.Outcome State Fault Refusal := s.runIf Instr.resetRelease.wf resetRelease

/-! ## Supplies (R466, R476, R742, R782 to R784, R803) -/

/-- The calendar as on first application of `VSTBY`. -/
def freshStandby (d : Dev) : Dev :=
  d.onTime fun t => { t with calSec := 0, calSub := 0, calAt := d.now, calWrapped := false, calNotSet := true, stbyEpoch := 0 }

def vstbyApplied (d : Dev) : Dev :=
  if d.pins.vstby then d
  else
    let d := freshStandby (d.onPins fun p => { p with vstby := true })
    if d.boot.phase = .off then d.onBoot fun b => { b with phase := .standby } else d

def execVstbyApplied (s : State) : Host.Outcome State Fault Refusal := s.runIf Instr.vstbyApplied.wf vstbyApplied

def vstbyLoss (d : Dev) : Dev :=
  if !d.pins.vstby then d
  else
    let d := freshStandby (d.onPins fun p => { p with vstby := false })
    if d.boot.phase = .standby then d.onBoot fun b => { b with phase := .off } else d

def execVstbyLoss (s : State) : Host.Outcome State Fault Refusal := s.runIf Instr.vstbyLoss.wf vstbyLoss

/-- What is left without `VDD_HK`: the standby domain and MRAM. -/
def powerDown (d : Dev) (ph : Phase) : Dev :=
  let e := resetDev d
  { e with boot := { phase := ph }, pins := { d.pins with resetN := false }
           tel := { slots := d.tel.slots } }

/-- Greatest sequence number in a valid MRAM copy; 0 if no copy is valid. -/
def mramSeq (d : Dev) : Nat := d.tel.slots.foldl (fun a e => e.2.recs.foldl (fun a r => max a r.seq) a) 0

/-- Rails of Table 15-1 that come up after `VSTBY` and `VDD_HK`, in its order. -/
def laterRails : List Nat := [0, 1, 2, 3, 4, 5, 6, 8, 9]

/-- `VDD_HK` comes up: the ring starts empty and its numbers continue from MRAM's (R742, R754), and the monitors hold the device in
reset until they see every other rail valid (R796). -/
def vddHkUp (d : Dev) : Dev :=
  if d.boot.phase ≠ .standby then d
  else
    let d := (powerDown d .reset).onTime fun t => { t with stbyEpoch := (t.stbyEpoch + 1) % two32 }
    let d := setFlag (d.onBoot fun b => { b with monitor := true, monitorAt := d.now, invalid := laterRails }) Reg.hkFault 3 true
    d.onTel fun t => { t with seq := mramSeq d }

def execVddHkUp (s : State) : Host.Outcome State Fault Refusal := s.runIf Instr.vddHkUp.wf vddHkUp

/-- The record and the copy of the fall of `PWR_FAIL_N` are still to come (R748). -/
def fallUnserved (d : Dev) : Bool := d.tel.copy.isSome || d.tel.trigDue.contains 1 || d.tel.heldTrig.any (·.1 = 1)

/-- Every supply but `VSTBY` has fallen after a fall of `PWR_FAIL_N` that has been served (R782). -/
def standbyEntry (d : Dev) : Dev :=
  if !hkOn d || d.pins.pwrFailN || fallUnserved d then d else powerDown d (if d.pins.vstby then .standby else .off)

def execStandbyEntry (s : State) : Host.Outcome State Fault Refusal := s.runIf Instr.standbyEntry.wf standbyEntry

def pwrFailFall (d : Dev) : Dev :=
  if !hkOn d || !d.pins.pwrFailN then d else mramTrigger (d.onPins fun p => { p with pwrFailN := false }) 1

def execPwrFailFall (s : State) : Host.Outcome State Fault Refusal := s.runIf Instr.pwrFailFall.wf pwrFailFall

/-- The device runs on, and the copy that the fall started completes (R798). -/
def pwrFailRise (d : Dev) : Dev := if !hkOn d then d else d.onPins fun p => { p with pwrFailN := true }

def execPwrFailRise (s : State) : Host.Outcome State Fault Refusal := s.runIf Instr.pwrFailRise.wf pwrFailRise

/-! ## Monitors (R756 to R758) -/

/-- Registers of the housekeeping block, which a departure does not reset. -/
def Reg.isHk (a : Nat) : Bool := decide (0x20_0000 ≤ a ∧ a < 0x26_0000)

/-- The hardwired stop path's telegrams in force, which lie on the housekeeping die. -/
def hkBanks (d : Dev) : Banks :=
  let b := d.safe.hk
  if d.safe.loaded then { b with new := b.old } else b

/-- Everything but the housekeeping die is reset; its own registers, its health readings, the hardwired stop path's telegrams and its queued
records stay. What plans have set in tiles and lanes goes with those. -/
def holdReset (d : Dev) : Dev :=
  let e := resetDev d
  { e with
    regs := d.regs.filter fun r => Reg.isHk r.1 || decide (r.1 = Reg.safeVintage)
    time := { e.time with calLoads := d.time.calLoads }
    safe := { e.safe with ackFallAt := d.safe.ackFallAt, ackRiseAt := d.safe.ackRiseAt, hk := hkBanks d }
    tel := { e.tel with bbQ := d.tel.bbQ.filter fun q => decide (41 ≤ q.1) }
    health := { d.health with
      steps := d.health.steps.filter (· ≠ 108), peers := [], bridge := [], beaconAt := [], tileClk := [], laneEq := [] }
    boot := { monitor := true, monitorAt := d.now, invalid := d.boot.invalid } }

/-- The level of `FAULT_N`: low while any cause of `HK_FAULT` is 1 (R758). -/
def faultN (d : Dev) : Bool := decide (rd d Reg.hkFault = 0)

/-- Operating ranges of the rails after `VDD_CORE`, in 0.1 mV, in the order of Table 15-1. -/
def railRange (i : Nat) : Nat × Nat :=
  [(0, 0), (7275, 7725), (7275, 7725), (11640, 12360), (17100, 18900), (10670, 11330), (3800, 4200), (7760, 8240), (17100, 18900),
    (31350, 34650), (16000, 36000)].getD i (0, 0)

/-- What a monitor reports, the readback itself noted, is a departure: of `VDD_CORE` (rail 0) more than 25 mV from the setpoint last
confirmed or the third failed readback in a row (R792), of another rail outside its operating range, of a clock as such. -/
def departs (d : Dev) (clock : Bool) (which mv : Nat) (readFail : Bool) : Bool :=
  if clock then true
  else if which ≠ 0 then decide (10 * mv < (railRange which).1 ∨ (railRange which).2 < 10 * mv)
  else if readFail then decide (3 ≤ d.health.avsFails)
  else decide (mv + 25 < d.health.avsSet ∨ d.health.avsSet + 25 < mv)

/-- An AVSBus readback of `VDD_CORE`: failed ones in a row are counted, another may confirm the setpoint. -/
def noteReadback (d : Dev) (clock : Bool) (which mv : Nat) (readFail : Bool) : Dev :=
  if clock || decide (which ≠ 0) then d
  else
    let e := d.onHealth fun h => { h with avsFails := if readFail then h.avsFails + 1 else 0 }
    if readFail then e else confirmSet e mv

/-- A report of a rail says whether it is valid; the 10 ms of R756 count from the report that leaves none invalid. -/
def noteRail (d : Dev) (clock : Bool) (which : Nat) (bad : Bool) : Dev :=
  if clock then d
  else
    d.onBoot fun b =>
      let l := b.invalid.filter (· ≠ which) ++ if bad then [which] else []
      { b with invalid := l, monitorAt := if b.invalid ≠ [] ∧ l = [] then d.now else b.monitorAt }

/-- A supply or an island clock is seen out of specification, or an AVSBus readback fails; the guards' islands 38 and 39 are R482's. -/
def monitorDeparture (clock : Bool) (which mv : Nat) (readFail : Bool) (d : Dev) : Dev :=
  if !hkOn d || (clock && decide (which = 38 ∨ which = 39)) then d
  else
  let e := noteReadback d clock which mv readFail
  let bad := departs e clock which mv readFail
  let e := noteRail e clock which bad
  if !bad then e
  else
    let d := setFlag (wr (holdReset e) Reg.hkFault 8) Reg.thermSts 11 false
    let d := if clock then healthEvent d 7 (toLe 1 which) else healthEvent d 6 (toLe 1 which ++ zeros 3 ++ toLe 2 mv)
    mramTrigger d 7

def execMonitorDeparture (clock : Bool) (which mv : Nat) (s : State) (readFail : Bool := false) : Host.Outcome State Fault Refusal :=
  s.runIf (Instr.monitorDeparture clock which mv readFail).wf (monitorDeparture clock which mv readFail)

/-- Every rail has been valid, and every clock right again, for 10 ms, and `RESET_N` is high (R756, R796). -/
def monitorRelease (d : Dev) : Dev :=
  if !d.boot.monitor || !d.pins.resetN || decide (d.boot.invalid ≠ []) then d
  else
    let d := reach d (d.boot.monitorAt + 10 * ps_ms)
    startUp (setFlag (d.onBoot fun b => { b with monitor := false }) Reg.hkFault 3 false)

def execMonitorRelease (s : State) : Host.Outcome State Fault Refusal := s.runIf Instr.monitorRelease.wf monitorRelease

/-! ## The firmware image (R569, R739, R761, R767) -/

/-- A register that firmware sets at bring-up to a value the manual does not give. -/
def wrFree (d : Dev) (a n : Nat) : Dev := let (x, d) := fresh d; wr d a (x % n)

/-- The cellarmaster sets a firmware thread's stack window, vectors and sampling and starts it (Table 10-8). -/
def bringThread (d : Dev) (n : Nat) : Dev :=
  let d := [Reg.tTvec, Reg.tStkLo, Reg.tStkHi, Reg.tRestartVec].foldl (fun d o => wrFree d (Reg.thr n + o) two32) d
  let (x, d) := fresh d
  let d := wr (flushThr d n) (Reg.thr n + Reg.tSampleCfg) (x % 32 + 256 * (1 + x / 32 % 0xFFFFFF))
  if n = 0 then dispatch d 0 else cmdThr d n .start

/-- Ralku starts: hash seeds, the sketch's random seed, event routes and the firmware threads; a start configuration is compared with
the safety digest of now. -/
def firmwareStart (d : Dev) (imageB : Bool) : Dev :=
  let d := (d.onBoot fun b => { b with fwRunning := true, imageB }).onCc fun c => { c with wdogAt := d.now }
  let d := d.onSafe fun s => { s with startDigest := safeDigest s.cfg }
  let d := setSeeds (d.onHealth fun h => { h with peerAt := d.now }) (cfgReset 7 0)
  let (x, d) := fresh d
  let d := allCplx d fun d k => wr d (Reg.cplx k + Reg.hhSeed) (x % two32)
  let d := (List.range 30).foldl (fun d s => wrFree d (Reg.ccEvtRoute s) 512) d
  (List.range 28).foldl bringThread d

/-- The boot ROM loads image A, or B where A's header or CRC fails; without either the device stays in lifeline mode. -/
def bootImageLoad (aOk bOk : Bool) (d : Dev) : Dev :=
  if decide (d.boot.phase ≠ .lifeline) || d.boot.fwRunning || flag d Reg.hkFault 1 then d
  else if aOk || bOk then firmwareStart d (!aOk)
  else healthEvent (setFlag d Reg.hkFault 1 true) 9 (toLe 1 3)

def execBootImageLoad (aOk bOk : Bool) (s : State) : Host.Outcome State Fault Refusal :=
  s.runIf (Instr.bootImageLoad aOk bOk).wf (bootImageLoad aOk bOk)

/-! ## Lifeline mode (R60, R759) -/

/-- Mode B of Table 02-1 with RS(528,514) FEC and auto-negotiation, as bits 9 to 0 of `PORT_MODE`. -/
def lifelineMode : Nat := 2 + 64 * 2 + 512

/-- Within 80 ms of reset release ports 0 to 7 are enabled in the mode of R60. -/
def lifelineStart (d : Dev) : Dev :=
  if decide (d.boot.phase ≠ .lifeline) || d.boot.lifeline then d
  else (List.range 8).foldl (fun d p => setFld d (Reg.port p + Reg.pMode) 0 10 lifelineMode) (d.onBoot fun b => { b with lifeline := true })

def execLifelineStart (s : State) : Host.Outcome State Fault Refusal := s.runIf Instr.lifelineStart.wf lifelineStart

/-! ## The start configuration (R762) -/

/-- The record names an object of Table 12-6 and has its length. -/
def startShape (r : CfgRec) : Bool :=
  let n := r.val.length
  let i := r.idx
  if r.ty < 32 then recShape r
  else
    match r.ty with
    | 32 => decide (n = 14 ∧ i < 514)
    | 33 => decide (n = 512 ∧ i < 512)
    | 34 => decide (n = 16 ∧ i = 0)
    | 35 => decide (n = 24 ∧ i = 0)
    | 36 => decide (n = 84 ∧ i < 32768)
    | 37 => decide (n = 20 ∧ i < 16384)
    | 38 => decide (n = 48 ∧ i < 16384 ∧ le r.val 0 2 = i % 1024)
    | 39 => decide (n = 16 ∧ i < 512)
    | 40 => decide (n = 11 ∧ i < 128)
    | 41 => decide (n = 9 ∧ i < 4096)
    | 42 => decide (20 ≤ n ∧ (n - 20) % 8 = 0 ∧ i < 512)
    | 43 => decide (n = 28 ∧ i = 0)
    | 44 => decide (n = 112 ∧ i < 16 ∧ le r.val 0 1 = i)
    | 45 => decide (n = 4 ∧ i < 4)
    | 46 => decide (n = 8 ∧ i = 0)
    | _ => false

/-- The slot of the command that sets an object, with payload l. -/
def payloadSlot (l : List Byte) : Slot := { opcode := 0, flags := 0, len := l.length, tag := 0, expVint := 0, rspLen := 0, payload := l }

def byCommand (f : Dev → Slot → Res) (d : Dev) (l : List Byte) : Nat × Dev := let r := f d (payloadSlot l); (r.status, r.dev)

def startGaf (d : Dev) (r : CfgRec) : Nat × Dev := (0, putCfg (setGaf d r.idx r.val) 33 r.idx r.val)

def startMac (d : Dev) (r : CfgRec) : Nat × Dev :=
  if !macElemOk r.val || !bit (le r.val 10 1) 0 then (eArg, d) else let (st, _, d) := insertElem d false r.val; (st, d)

def startPrefix (d : Dev) (r : CfgRec) : Nat × Dev :=
  if !prefixOk false r.val then (eArg, d) else let (st, _, d) := addPrefix false d r.val; (st, d)

def startRule (d : Dev) (r : CfgRec) : Nat × Dev :=
  let e := parseRule r.val
  if 65536 ≤ e.action then (eArg, d) else (0, putCfg (allCplx d fun d k => writeRule d k r.idx e) 36 r.idx r.val)

def startPattern (d : Dev) (r : CfgRec) : Nat × Dev :=
  if !patElemOk r.val then (eArg, d) else (0, loadPats [r.val] d (r.idx / 1024))

def startPortQueues (d : Dev) (r : CfgRec) : Nat × Dev :=
  let l := [0, 0] ++ toLe 2 r.idx ++ r.val
  if portQueuesOk l then (0, putCfg (setPortQueues d l) 39 r.idx r.val) else (eArg, d)

def startClassBuf (d : Dev) (r : CfgRec) : Nat × Dev :=
  let l := [1, 0] ++ toLe 2 (2 ^ (r.idx / 8)) ++ toLe 1 (r.idx % 8) ++ r.val
  if classBufOk l then (0, classRecord l (setClassBuf l d (r.idx / 8)) (r.idx / 8)) else (eArg, d)

/-- An object of types 32 to 46 is set as the command that sets it would. A guest image stands in no flash and is not set; a
safety digest is only compared. -/
def startRec (d : Dev) (r : CfgRec) : Nat × Dev :=
  match r.ty with
  | 32 => byCommand portSetRes d (toLe 2 r.idx ++ r.val)
  | 33 => startGaf d r
  | 34 => startMac d r
  | 35 => startPrefix d r
  | 36 => startRule d r
  | 37 => byCommand meterRes d (toLe 2 r.idx ++ toLe 2 1 ++ r.val)
  | 38 => startPattern d r
  | 39 => startPortQueues d r
  | 40 => startClassBuf d r
  | 41 => byCommand shaperSetRes d (toLe 2 (r.idx / 8) ++ toLe 1 (r.idx % 8) ++ r.val)
  | 42 => byCommand gateListSetRes d (toLe 2 r.idx ++ toLe 2 ((r.val.length - 20) / 8) ++ r.val)
  | 43 => byCommand refSelectRes d r.val
  | 44 => byCommand mirrorRes d r.val
  | _ => (0, d)

/-- Set objects one after another: the position of the first that is refused with its status, or the device with all set. -/
def startRecs (d : Dev) (n : Nat) (rs : List CfgRec) : Except (Nat × Nat) Dev :=
  match rs with
  | [] => .ok d
  | r :: t =>
    if r.ty < 32 then startRecs d (n + 1) t
    else
      let (st, d) := startRec d r
      if st = 0 then startRecs d (n + 1) t else .error (n, st)

/-- Position in a list of the k-th record of a type below 32. -/
def stagedPos (rs : List CfgRec) (k : Nat) : Nat := ((List.range rs.length).filter fun i => ((rs[i]?).map fun r => decide (r.ty < 32)).getD false).getD k 0

/-- Every check of R701 over the whole, and the device with the configuration applied, types ascending. The buffer rules over
types 15, 39 and 40 hold for what all of them leave. -/
def startApply (d : Dev) (rs : List CfgRec) : Except (Nat × Nat) Dev :=
  let staged := rs.filter fun r => decide (r.ty < 32)
  match recsCheck d (cfgWith d.host.cfg staged) [15] 0 staged with
  | some (n, e) => .error (stagedPos rs n, e)
  | none =>
    match startRecs (applyAll d staged) 0 rs with
    | .error x => .error x
    | .ok d =>
      if tenantsOk d d.host.cfg then .ok d
      else .error ((findIdx (fun r => decide (r.ty = 15 ∨ r.ty = 39 ∨ r.ty = 40)) rs).getD 0, eArg)

def refuseStart (d : Dev) (n status : Nat) : Dev := healthEvent d 10 (toLe 2 n ++ toLe 1 status)

/-- A type 46 record that differs from the image's digest is reported. -/
def startDigest (d : Dev) (r : CfgRec) : Dev :=
  if r.ty = 46 ∧ le r.val 0 8 ≠ safeDigest d.safe.cfg then healthEvent d 11 (zeros 4 ++ r.val) else d

def commitStart (d : Dev) (l : List Byte) : Dev :=
  match parseRecs startShape l.length l 0 with
  | .error n => (leadRecs startShape l.length l).foldl startDigest (refuseStart d n eArg)
  | .ok rs =>
    match startApply d rs with
    | .error (n, e) => rs.foldl startDigest (refuseStart d n e)
    | .ok e =>
      let e := (restartPeers e).onHost fun h => { h with vintage := nextVintage h.vintage }
      rs.foldl startDigest (e.onBoot fun b => { b with startCfg := true })

/-- Firmware commits the start configuration, or refuses it as a whole; flash may hold none. A running `RULE_WRITE` holds the
configuration lock (R692). -/
def startConfigCommit (recs : Option (List Byte)) (d : Dev) : Dev :=
  if !d.boot.fwRunning || d.boot.startDone || d.fwd.ruleJob.isSome || decide (d.boot.phase ≠ .lifeline) then d
  else
    let d := match recs with
      | none => d
      | some l => commitStart d l
    d.onBoot fun b => { b with startDone := true }

def execStartConfigCommit (recs : Option (List Byte)) (s : State) : Host.Outcome State Fault Refusal :=
  s.runIf (Instr.startConfigCommit recs).wf (startConfigCommit recs)

/-! ## Full service (R763 to R765) -/

/-- A port among 0 to 7 leaves the lifeline bridge: it forwards nothing for at most 1 ms, and takes its configured mode. -/
def leaveLifeline (d : Dev) (p : Nat) : Dev :=
  let (x, d) := fresh d
  let d := setPort d p fun s => { s with closedUntil := d.now + x % (ps_ms + 1) }
  let l := portPayload d p
  setPortRegs d p l (decide (portModeWord l % 1024 ≠ lifelineMode))

/-- Marks of absorbed MACs and MAC merge, once the modes of all eight ports stand. -/
def joinFull (d : Dev) (p : Nat) : Dev := mmFollow (if ownPath d p then markCovered d p (portRow d p) true else d) p false

/-- An enabled port whose lanes training has not left trained is reported, but not in mode J, which trains no lane alone. -/
def reportLanes (d : Dev) (p : Nat) : Dev :=
  match portRow d p with
  | none => d
  | some r =>
    if !ownPath d p || flag d (psts p) 0 || decide (r.speed = 6 ∧ r.lanes = 8) || decide (r.lanes ≤ (portOf d p).lanesTrained) then d
    else healthEvent d 16 (toLe 2 p)

/-- The stacks that trained serve; one that failed stays stopped (R765). -/
def trainStacks (d : Dev) (stackFail : Nat) : Dev :=
  let bad := ones 4 stackFail
  let d := d.onBuf fun b => { b with failed := bad, running := (List.range 4).filter fun s => !bad.contains s }
  bad.foldl (fun d s => healthEvent d 17 (toLe 1 s)) d

/-- A port from 8 on is enabled and its `LANE_TRAIN` has not finished; ports 0 to 7 retrain at the change itself (R764). -/
def trainOwed (d : Dev) (p : Nat) : Bool :=
  (if 512 ≤ p then mgmtOn d p else ownPath d p && !noTraining d p) && !(portOf d p).trainDone

/-- Ports that full service waits for (R763). -/
def owedPorts (d : Dev) : List Nat := ((List.range 514).drop 8).filter (trainOwed d)

/-- Firmware trains a port that is still to be trained, with these attempts of its lanes. -/
def bringTrain (d : Dev) (e : Nat × List Nat) : Dev := if 8 ≤ e.1 && trainOwed d e.1 then trainPort d e.1 (laneTries d e.1 e.2) else d

/-- Full service begins once the start configuration is done and every enabled port has finished training (R763); `trained` are the
trainings that firmware finishes in between. -/
def fullService (stackFail : Nat) (trained : List (Nat × List Nat)) (d : Dev) : Dev :=
  if decide (d.boot.phase ≠ .lifeline) || !d.boot.fwRunning || !d.boot.startDone then d
  else
  let d := trained.foldl bringTrain d
  if owedPorts d ≠ [] then d
  else
    let d := trainStacks d stackFail
    let d := (List.range 8).foldl leaveLifeline d
    let d := (List.range 8).foldl joinFull d
    let d := d.onBoot fun b => { b with phase := .full, lifeline := false }
    let d := wr d Reg.hkBootMs ((d.now - d.boot.releasedAt) / ps_ms)
    let d := d.onHealth fun h => { h with bridge := [], planAt := d.now }
    (List.range 512).foldl reportLanes d

def execFullService (stackFail : Nat) (s : State) (trained : List (Nat × List Nat) := []) : Host.Outcome State Fault Refusal :=
  s.runIf (Instr.fullService stackFail trained).wf (fullService stackFail trained)

end Sys2Proof.Machine
end

