-- ==== Sys2Proof/Machine/ThreadFault.lean ====
section
/-! DEFINITION. A command whose firmware thread faults (R704): the cellarmaster completes it with E_TIMEOUT and `DETAIL` 0xFFFF; what it
had applied stays applied, and counts in the vintage. -/

namespace Sys2Proof.Machine

/-- The commands that need nothing from outside: each carries out the command at the head of a channel if it is its own. -/
def ownWork : List (Nat → Dev → Dev) :=
  [getInfo, configStage, configStageRestart, configCommit, configCommitCheck, configCommitAbandon, getVintage, portSet, busRecover,
    fdbInsert, fdbDelete, fdbSearch, fdbNext, fdbFlushByPort, lpmAdd, lpmDelete, lpmSearch] ++
  [ruleWrite, ruleWriteMeter, matchStep, patternLoad, queueSet, shaperSet, gateListSet, timeAdjustFrequency, timeAdjustSlew, timeAdjustStep,
    timeAdjustSet, refSelect] ++
  [safetyEditOpen, safetyStreamSet, telegramLoad, safetyCommit, safetyCommitAbandon, claimSet, stopAck, snapshot, mirrorSet, blackboxRead,
    guestLoad, guestStart, guestStop]

/-- The head of a channel is a command whose thread has faulted. -/
def headFaulted (d : Dev) (ch : Nat) : Bool := (((chanOf d ch).inflight.head?).map (·.faulted)).getD false

def markHead (d : Dev) (ch : Nat) : Dev :=
  setChan d ch fun c => { c with inflight := match c.inflight with
    | [] => []
    | sl :: r => { sl with faulted := true } :: r }

/-- Entries of a running `RULE_WRITE` that have been written, in one complex at least. -/
def rulesWritten (d : Dev) (ch : Nat) (sl : Slot) : Nat := min (le sl.payload 2 2) (16 * ceilDiv (chunksDone d ch) 4)

/-- The command ends where it stands: rules that it has written stay, with their records, and a snapshot that it waits for is no
longer waited for. -/
def endFaulted (ch : Nat) (sl : Slot) (d : Dev) : Dev :=
  let n := rulesWritten d ch sl
  let d := if holdsLock d ch then (ruleRecords d sl.payload n).onFwd fun w => { w with ruleJob := none } else d
  let d := d.onTel fun t => { t with snapWait := tdel t.snapWait ch }
  complete ch sl { fail d eTimeout with vint := decide (0 < n) }

/-- What a training, a margin plan, a safety commit or a proof test finds comes with its own command. -/
def needsOutside (sl : Slot) : Bool := [0x102, 0x801, 0x604, 0x605].contains sl.opcode

/-- `applied`: the command had been applied when its thread faulted; what one command of it is not told by the manual, so all of it
(log entry 114). One that finds something outside is applied, and completes so, when that comes. -/
def commandThreadFault (ch : Nat) (applied : Bool) (d : Dev) : Dev :=
  match (chanOf d ch).inflight with
  | [] => d
  | sl :: _ =>
    if !d.boot.fwRunning then d
    else if !applied then endFaulted ch sl d
    else
      let d := ownWork.foldl (fun d f => if headFaulted d ch then f ch d else d) (markHead d ch)
      if headFaulted d ch && !needsOutside sl then endFaulted ch sl d else d

def execCommandThreadFault (ch : Nat) (applied : Bool) (s : State) : Host.Outcome State Fault Refusal :=
  s.runIf (Instr.commandThreadFault ch applied).wf (commandThreadFault ch applied)

end Sys2Proof.Machine
end

