-- ==== Sys2Proof/Machine/Dispatch.lean ====
section
/-! DEFINITION. One arm for each command: a direct call of its meaning. -/

namespace Sys2Proof.Machine

def exec (i : Instr) (s : State) : Host.Outcome State Fault Refusal :=
  match i with
  | .getInfo ch => Sys2Proof.Machine.execGetInfo ch s
  | .configStage ch => Sys2Proof.Machine.execConfigStage ch s
  | .configStageRestart ch => Sys2Proof.Machine.execConfigStageRestart ch s
  | .configCommit ch => Sys2Proof.Machine.execConfigCommit ch s
  | .configCommitCheck ch => Sys2Proof.Machine.execConfigCommitCheck ch s
  | .configCommitAbandon ch => Sys2Proof.Machine.execConfigCommitAbandon ch s
  | .stagingTimeout => Sys2Proof.Machine.execStagingTimeout s
  | .getVintage ch => Sys2Proof.Machine.execGetVintage ch s
  | .portSet ch => Sys2Proof.Machine.execPortSet ch s
  | .busRecover ch => Sys2Proof.Machine.execBusRecover ch s
  | .laneTrain ch tries => Sys2Proof.Machine.execLaneTrain ch tries s
  | .trainingAttemptAbandon port => Sys2Proof.Machine.execTrainingAttemptAbandon port s
  | .fdbInsert ch => Sys2Proof.Machine.execFdbInsert ch s
  | .fdbDelete ch => Sys2Proof.Machine.execFdbDelete ch s
  | .fdbSearch ch => Sys2Proof.Machine.execFdbSearch ch s
  | .fdbNext ch => Sys2Proof.Machine.execFdbNext ch s
  | .fdbFlushByPort ch => Sys2Proof.Machine.execFdbFlushByPort ch s
  | .lpmAdd ch => Sys2Proof.Machine.execLpmAdd ch s
  | .lpmDelete ch => Sys2Proof.Machine.execLpmDelete ch s
  | .lpmSearch ch => Sys2Proof.Machine.execLpmSearch ch s
  | .ruleWrite ch => Sys2Proof.Machine.execRuleWrite ch s
  | .ruleChunkWrite ch => Sys2Proof.Machine.execRuleChunkWrite ch s
  | .ruleWriteMeter ch => Sys2Proof.Machine.execRuleWriteMeter ch s
  | .matchStep ch => Sys2Proof.Machine.execMatchStep ch s
  | .patternLoad ch => Sys2Proof.Machine.execPatternLoad ch s
  | .queueSet ch => Sys2Proof.Machine.execQueueSet ch s
  | .shaperSet ch => Sys2Proof.Machine.execShaperSet ch s
  | .gateListSet ch => Sys2Proof.Machine.execGateListSet ch s
  | .timeAdjustFrequency ch => Sys2Proof.Machine.execTimeAdjustFrequency ch s
  | .timeAdjustSlew ch => Sys2Proof.Machine.execTimeAdjustSlew ch s
  | .timeAdjustStep ch => Sys2Proof.Machine.execTimeAdjustStep ch s
  | .timeAdjustSet ch => Sys2Proof.Machine.execTimeAdjustSet ch s
  | .refSelect ch => Sys2Proof.Machine.execRefSelect ch s
  | .safetyEditOpen ch => Sys2Proof.Machine.execSafetyEditOpen ch s
  | .safetyStreamSet ch => Sys2Proof.Machine.execSafetyStreamSet ch s
  | .telegramLoad ch => Sys2Proof.Machine.execTelegramLoad ch s
  | .safetyCommit ch => Sys2Proof.Machine.execSafetyCommit ch s
  | .safetyCommitConfirm ch mramOk => Sys2Proof.Machine.execSafetyCommitConfirm ch mramOk s
  | .safetyCommitAbandon ch => Sys2Proof.Machine.execSafetyCommitAbandon ch s
  | .safetyEditTimeout => Sys2Proof.Machine.execSafetyEditTimeout s
  | .safetyBankSwitch => Sys2Proof.Machine.execSafetyBankSwitch s
  | .claimSet ch => Sys2Proof.Machine.execClaimSet ch s
  | .claimSetProof ch pass => Sys2Proof.Machine.execClaimSetProof ch pass s
  | .stopAck ch => Sys2Proof.Machine.execStopAck ch s
  | .snapshot ch => Sys2Proof.Machine.execSnapshot ch s
  | .mirrorSet ch => Sys2Proof.Machine.execMirrorSet ch s
  | .blackboxRead ch => Sys2Proof.Machine.execBlackboxRead ch s
  | .marginPlanRun ch plan => Sys2Proof.Machine.execMarginPlanRun ch plan s
  | .guestLoad ch => Sys2Proof.Machine.execGuestLoad ch s
  | .guestStart ch => Sys2Proof.Machine.execGuestStart ch s
  | .guestStop ch => Sys2Proof.Machine.execGuestStop ch s
  | .mbxPost ch value => Sys2Proof.Machine.execMbxPost ch value s
  | .commandFetch ch slot payload slotOk payloadOk rspOk => Sys2Proof.Machine.execCommandFetch ch slot payload slotOk payloadOk rspOk s
  | .mbxEnable ch value => Sys2Proof.Machine.execMbxEnable ch value s
  | .commandThreadFault ch applied => Sys2Proof.Machine.execCommandThreadFault ch applied s
  | .tret thr other ecc => Sys2Proof.Machine.execTret thr s other ecc
  | .twait thr rd rs1 rs2 => Sys2Proof.Machine.execTwait thr rd rs1 rs2 s
  | .twaitWake thr => Sys2Proof.Machine.execTwaitWake thr s
  | .tyield thr => Sys2Proof.Machine.execTyield thr s
  | .tpost thr rs1 rs2 => Sys2Proof.Machine.execTpost thr rs1 rs2 s
  | .trap thr code tval other acc => Sys2Proof.Machine.execTrap thr code tval s other acc
  | .longStall thr acc other => Sys2Proof.Machine.execLongStall thr s acc other
  | .stallEnd thr => Sys2Proof.Machine.execStallEnd thr s
  | .thrCmdStart writer thr other => Sys2Proof.Machine.execThrCmdStart writer thr s other
  | .thrCmdStop writer thr other => Sys2Proof.Machine.execThrCmdStop writer thr s other
  | .thrCmdRestart writer thr other => Sys2Proof.Machine.execThrCmdRestart writer thr s other
  | .cmWdog writer => Sys2Proof.Machine.execCmWdog writer s
  | .cellarmasterWatchdog => Sys2Proof.Machine.execCellarmasterWatchdog s
  | .firmwareThreadRestart thr => Sys2Proof.Machine.execFirmwareThreadRestart thr s
  | .guestRunLimit thr cycles => Sys2Proof.Machine.execGuestRunLimit thr cycles s
  | .sampleCountdown thr n ev => Sys2Proof.Machine.execSampleCountdown thr n s ev
  | .sampleTrap thr skid other => Sys2Proof.Machine.execSampleTrap thr skid s other
  | .coreClockStop core => Sys2Proof.Machine.execCoreClockStop core s
  | .spmRetentionEntry core => Sys2Proof.Machine.execSpmRetentionEntry core s
  | .islandWake island => Sys2Proof.Machine.execIslandWake island s
  | .spmBitsetAccess thr addr size load rd data other => Sys2Proof.Machine.execSpmBitsetAccess thr addr size load rd data s other
  | .spmBitclearAccess thr addr size load rd data other => Sys2Proof.Machine.execSpmBitclearAccess thr addr size load rd data s other
  | .spmBackgroundTest core bad => Sys2Proof.Machine.execSpmBackgroundTest core bad s
  | .cooperAlloc reqs frees regs => Sys2Proof.Machine.execCooperAlloc reqs frees s regs
  | .cooperFree req off => Sys2Proof.Machine.execCooperFree req off s
  | .perfUserPageRead thr e => Sys2Proof.Machine.execPerfUserPageRead thr e s
  | .registerWrite acc => Sys2Proof.Machine.execRegisterWrite acc s
  | .irqArm value => Sys2Proof.Machine.execIrqArm value s
  | .msixUnmask vec => Sys2Proof.Machine.execMsixUnmask vec s
  | .hostInterfaceReset => Sys2Proof.Machine.execHostInterfaceReset s
  | .busMasterDisable => Sys2Proof.Machine.execBusMasterDisable s
  | .ringEnable inj e value => Sys2Proof.Machine.execRingEnable inj e value s
  | .ringPost inj e value => Sys2Proof.Machine.execRingPost inj e value s
  | .trapRingDeliver queue desc err => Sys2Proof.Machine.execTrapRingDeliver queue desc err s
  | .trapRingNobuf queue => Sys2Proof.Machine.execTrapRingNobuf queue s
  | .injectDescriptor e desc frame err => Sys2Proof.Machine.execInjectDescriptor e desc frame err s
  | .injectComplete e => Sys2Proof.Machine.execInjectComplete e s
  | .parityScrub addr => Sys2Proof.Machine.execParityScrub addr s
  | .parityRecord island => Sys2Proof.Machine.execParityRecord island s
  | .parityRewrite addr => Sys2Proof.Machine.execParityRewrite addr s
  | .tsuLoadInc => Sys2Proof.Machine.execTsuLoadInc s
  | .tsuArmStep => Sys2Proof.Machine.execTsuArmStep s
  | .tsuStartSlew => Sys2Proof.Machine.execTsuStartSlew s
  | .tsuStopSlew => Sys2Proof.Machine.execTsuStopSlew s
  | .tsuStepApply => Sys2Proof.Machine.execTsuStepApply s
  | .tsuSlewEnd => Sys2Proof.Machine.execTsuSlewEnd s
  | .tsuCapCmd => Sys2Proof.Machine.execTsuCapCmd s
  | .slaveRealign die => Sys2Proof.Machine.execSlaveRealign die s
  | .ppsOutEdge => Sys2Proof.Machine.execPpsOutEdge s
  | .ppsInEdge b offset => Sys2Proof.Machine.execPpsInEdge b offset s
  | .ppsMissing b => Sys2Proof.Machine.execPpsMissing b s
  | .refGateEnd ref raw => Sys2Proof.Machine.execRefGateEnd ref raw s
  | .refLossOfSignal ref => Sys2Proof.Machine.execRefLossOfSignal ref s
  | .calSecondStep => Sys2Proof.Machine.execCalSecondStep s
  | .calLoad => Sys2Proof.Machine.execCalLoad s
  | .calLoadApply => Sys2Proof.Machine.execCalLoadApply s
  | .vstbyApplied => Sys2Proof.Machine.execVstbyApplied s
  | .vstbyLoss => Sys2Proof.Machine.execVstbyLoss s
  | .vddHkUp => Sys2Proof.Machine.execVddHkUp s
  | .resetNFall => Sys2Proof.Machine.execResetNFall s
  | .resetRelease => Sys2Proof.Machine.execResetRelease s
  | .bootImageLoad aOk bOk => Sys2Proof.Machine.execBootImageLoad aOk bOk s
  | .lifelineStart => Sys2Proof.Machine.execLifelineStart s
  | .stopPathArm => Sys2Proof.Machine.execStopPathArm s
  | .startConfigCommit recs => Sys2Proof.Machine.execStartConfigCommit recs s
  | .guardsStart => Sys2Proof.Machine.execGuardsStart s
  | .fullService stackFail trained => Sys2Proof.Machine.execFullService stackFail s trained
  | .monitorDeparture clock which mv readFail => Sys2Proof.Machine.execMonitorDeparture clock which mv s readFail
  | .monitorRelease => Sys2Proof.Machine.execMonitorRelease s
  | .pwrFailFall => Sys2Proof.Machine.execPwrFailFall s
  | .pwrFailRise => Sys2Proof.Machine.execPwrFailRise s
  | .standbyEntry => Sys2Proof.Machine.execStandbyEntry s
  | .frameReceive port bytes pre assyErr frags verify line => Sys2Proof.Machine.execFrameReceive port bytes pre assyErr frags verify s line
  | .pauseFrameReceive port bytes => Sys2Proof.Machine.execPauseFrameReceive port bytes s
  | .pauseExpiry port cls => Sys2Proof.Machine.execPauseExpiry port cls s
  | .keySearch keys => Sys2Proof.Machine.execKeySearch keys s
  | .rackWrite tile voq errs => Sys2Proof.Machine.execRackWrite tile voq s errs
  | .refillRequest tile voq => Sys2Proof.Machine.execRefillRequest tile voq s
  | .refillDone tile voq bad => Sys2Proof.Machine.execRefillDone tile voq bad s
  | .cellarStop stack => Sys2Proof.Machine.execCellarStop stack s
  | .xoffRepeat port cls => Sys2Proof.Machine.execXoffRepeat port cls s
  | .frameTail frame => Sys2Proof.Machine.execFrameTail frame s
  | .learnSync cplx => Sys2Proof.Machine.execLearnSync cplx s
  | .ageingSweep => Sys2Proof.Machine.execAgeingSweep s
  | .trapHandle queue => Sys2Proof.Machine.execTrapHandle queue s
  | .guardDecide guard frame => Sys2Proof.Machine.execGuardDecide guard frame s
  | .outputStageAccept copy => Sys2Proof.Machine.execOutputStageAccept copy s
  | .decisionMissing copy guard => Sys2Proof.Machine.execDecisionMissing copy guard s
  | .claimForce guard cause => Sys2Proof.Machine.execClaimForce guard cause s
  | .degradeLimitExpiry => Sys2Proof.Machine.execDegradeLimitExpiry s
  | .proofTestStart guard => Sys2Proof.Machine.execProofTestStart guard s
  | .proofTestDone guard pass => Sys2Proof.Machine.execProofTestDone guard pass s
  | .safeStopChange b level heldUs => Sys2Proof.Machine.execSafeStopChange b level heldUs s
  | .discrepancyFault => Sys2Proof.Machine.execDiscrepancyFault s
  | .stopAckNEdge => Sys2Proof.Machine.execStopAckNEdge s
  | .ackStuck => Sys2Proof.Machine.execAckStuck s
  | .telegramRepeat => Sys2Proof.Machine.execTelegramRepeat s
  | .trellisSlot errs => Sys2Proof.Machine.execTrellisSlot s errs
  | .bunchLand tile parityErr errs => Sys2Proof.Machine.execBunchLand tile parityErr errs s
  | .egressQueueJoin copy => Sys2Proof.Machine.execEgressQueueJoin copy s
  | .frameBoundary port pre errs => Sys2Proof.Machine.execFrameBoundary port pre s errs
  | .gateEvent port => Sys2Proof.Machine.execGateEvent port s
  | .gateListSwitch port => Sys2Proof.Machine.execGateListSwitch port s
  | .mmVerifySend port => Sys2Proof.Machine.execMmVerifySend port s
  | .mmRespondReceive port => Sys2Proof.Machine.execMmRespondReceive port s
  | .linkUp port => Sys2Proof.Machine.execLinkUp port s
  | .linkDown port pcs fec => Sys2Proof.Machine.execLinkDown port s pcs fec
  | .memberReassign lag group member => Sys2Proof.Machine.execMemberReassign lag group member s
  | .memberAdd lag group member => Sys2Proof.Machine.execMemberAdd lag group member s
  | .overagePass => Sys2Proof.Machine.execOveragePass s
  | .leesCellPass tile orphans crossed mirrors => Sys2Proof.Machine.execLeesCellPass tile orphans crossed s mirrors
  | .leesRackPass stack orphans crossed mirrors => Sys2Proof.Machine.execLeesRackPass stack orphans crossed s mirrors
  | .tasteLogDrain => Sys2Proof.Machine.execTasteLogDrain s
  | .snapCmd => Sys2Proof.Machine.execSnapCmd s
  | .snapshotTick => Sys2Proof.Machine.execSnapshotTick s
  | .snapshotDone => Sys2Proof.Machine.execSnapshotDone s
  | .totalsPublish => Sys2Proof.Machine.execTotalsPublish s
  | .hhSwap => Sys2Proof.Machine.execHhSwap s
  | .blackboxRecord island own others => Sys2Proof.Machine.execBlackboxRecord island own s others
  | .mramCopyTrigger trigger => Sys2Proof.Machine.execMramCopyTrigger trigger s
  | .mramCopyDone => Sys2Proof.Machine.execMramCopyDone s
  | .thermalReading readings => Sys2Proof.Machine.execThermalReading readings s
  | .marginPlanDaily plan => Sys2Proof.Machine.execMarginPlanDaily plan s
  | .wearIntegrate => Sys2Proof.Machine.execWearIntegrate s
  | .beaconSend port => Sys2Proof.Machine.execBeaconSend port s
  | .beaconReceive queue => Sys2Proof.Machine.execBeaconReceive queue s
  | .peerStateUpdate => Sys2Proof.Machine.execPeerStateUpdate s
  | .modBusStuck bus => Sys2Proof.Machine.execModBusStuck bus s
  | .modBusClear bus released => Sys2Proof.Machine.execModBusClear bus released s
  | .modBusStretchLimit bus => Sys2Proof.Machine.execModBusStretchLimit bus s
  | .slaveAlignmentLoss die => Sys2Proof.Machine.execSlaveAlignmentLoss die s
  | .refSignalReturn ref => Sys2Proof.Machine.execRefSignalReturn ref s
  | .pciePowerStateChange d3 => Sys2Proof.Machine.execPciePowerStateChange d3 s
  | .busMasterEnable => Sys2Proof.Machine.execBusMasterEnable s
  | .lifelineBridgeAgeing => Sys2Proof.Machine.execLifelineBridgeAgeing s
  | .stopAckNFall => Sys2Proof.Machine.execStopAckNFall s
  | .ackStuckClear => Sys2Proof.Machine.execAckStuckClear s
  | .emitterHeartbeatLoss emitter => Sys2Proof.Machine.execEmitterHeartbeatLoss emitter s
  | .tokenBucketRefill port bucket => Sys2Proof.Machine.execTokenBucketRefill port bucket s

end Sys2Proof.Machine
end

