-- ==== Sys2Proof/Machine/Tick.lean ====
section
/-! DEFINITION. What a step does while no command waits. -/

namespace Sys2Proof.Machine

/-- One tick of the TSU's clock passes (R27, R415); interrupts that became pending are sent. Log entry 2. -/
def idle (s : State) : Host.Outcome State Fault Refusal := s.runIf true (fun d => fwAcks (elapse d 1))

end Sys2Proof.Machine
end

