-- ==== Sys2Proof/Safety.lean ====
section
/-! DEFINITION. The terms that claims use: how a command ends, what it leaves alone, when a mailbox channel can complete a
command, and the rule of R655. -/

namespace Sys2Proof

open Machine

/-- R655: no vector of Table 11-5 is armed while its summary is 1. -/
def IrqSettled (d : Dev) : Prop := ∀ v < 36, armed d v = true → irqSummary d v = false

/-- The step neither faults nor is refused. -/
def Runs (s : State) : Prop := ∃ t, step s = .next t

/-- Command `c` answers a next state from `s`: the queue as it was, the device as `p` says. -/
def Ends (c : Instr) (s : State) (p : Dev → Prop) : Prop :=
  ∃ t : State, exec c s = .next t ∧ t.pending = s.pending ∧ p t.dev

/-- The counter runs at an increment below 16 ns with no slew in progress, and extended time e lies ahead within its range. -/
abbrev Ahead (d : Dev) (e : Nat) : Prop :=
  alive d = true ∧ rd d Reg.tsuSlewLeft = 0 ∧ 0 < d.time.incNs * two32 + d.time.incFrac ∧
    d.time.incNs * two32 + d.time.incFrac < 2 ^ 36 ∧ extTime d < e ∧ e + 16 ≤ 2 ^ 64

/-- Extended time x is what the counter first reads at or after e, from d on (R379, R418). -/
def FirstAt (d : Dev) (e x : Nat) : Prop :=
  ∃ n, x = extTime (elapse d n) ∧ e ≤ x ∧ ∀ m < n, extTime (elapse d m) < e

/-- No event of the port's gate list is due (R351). -/
abbrev NoGateDue (d : Dev) (p : Nat) : Prop := ∀ t sw, gateDue d p = some (t, sw) → extTime d < t

/-- The frame that a port's preemptable MAC holds is one of the port's own. -/
abbrev OwnPreempt (d : Dev) (p : Nat) : Prop := ∀ id c, (egrOf d p).preempt = some id → copyOf d id = some c → c.port = p

/-- Copies, and the grants of the slots to come, name tiles, ports and sessions that the device has; the table of copies is in order. -/
def InPlace (d : Dev) : Prop :=
  risingFrom 0 d.buf.copies = true ∧
    (∀ e ∈ d.buf.copies, e.2.tile < 16 ∧ e.2.port < 512 ∧ e.2.cls < 8 ∧ ∀ m ∈ e.2.mirror, m < 16) ∧
    ∀ l ∈ d.trl.matching, ∀ g ∈ l, g.src < 128 ∧ g.dst < 128

/-! ## Frames -/

/-- Parts of the device that a frame speaks of. Left out of every part: the messages and pending bits of the MSI-X delivery that
ends each command (R655, R656), the parity faults that a write mends (R651), the wraps of counters (R721), and the model's own
counter of free values. -/
inductive Piece where
  | now | pins | boot | ports | modBus | fwd | buf | trl | egr | time | safe | cc | health | chan | host | tel
  deriving DecidableEq, Repr

/-- One part is as it was. -/
def Same (x : Piece) (d t : Dev) : Prop :=
  match x with
  | .now => t.now = d.now
  | .pins => t.pins = d.pins
  | .boot => t.boot = d.boot
  | .ports => t.ports = d.ports
  | .modBus => t.modBus = d.modBus
  | .fwd => t.fwd = d.fwd
  | .buf => t.buf = d.buf
  | .trl => t.trl = d.trl
  | .egr => t.egr = d.egr
  | .time => t.time = d.time
  | .safe => t.safe = d.safe
  | .cc => t.cc = d.cc
  | .health => t.health = d.health
  | .chan => t.host.chan = d.host.chan
  | .host => t.host.busMaster = d.host.busMaster ∧ t.host.d3 = d.host.d3 ∧ t.host.pcie = d.host.pcie ∧ t.host.masked = d.host.masked ∧
      t.host.msix = d.host.msix ∧ t.host.notes = d.host.notes ∧ t.host.trapQ = d.host.trapQ ∧ t.host.trapBkt = d.host.trapBkt ∧
      t.host.inject = d.host.inject ∧ t.host.done = d.host.done ∧ t.host.parQ = d.host.parQ ∧ t.host.staging = d.host.staging ∧
      t.host.rdata = d.host.rdata ∧ t.host.cfg = d.host.cfg ∧ t.host.vintage = d.host.vintage
  | .tel => t.tel.ring = d.tel.ring ∧ t.tel.bbQ = d.tel.bbQ ∧ t.tel.seq = d.tel.seq ∧ t.tel.slots = d.tel.slots ∧
      t.tel.copy = d.tel.copy ∧ t.tel.heldTrig = d.tel.heldTrig ∧ t.tel.trigDue = d.tel.trigDue ∧ t.tel.shot = d.tel.shot ∧
      t.tel.bank = d.tel.bank ∧ t.tel.bankWraps = d.tel.bankWraps ∧ t.tel.snapWait = d.tel.snapWait ∧
      t.tel.totals = d.tel.totals ∧ t.tel.tasteN = d.tel.tasteN ∧ t.tel.tasteLog = d.tel.tasteLog ∧
      t.tel.mirrors = d.tel.mirrors

/-- Every part but those named is as it was. -/
def OnlyParts (l : List Piece) (d t : Dev) : Prop := ∀ x, x ∉ l → Same x d t

/-- Every register but those named, and but the count of messages sent (R656), is as it was. -/
def OnlyRegs (l : List Nat) (d t : Dev) : Prop := ∀ a, a ≠ Reg.irqMsgCnt → a ∉ l → rd t a = rd d a

/-! ## The control complex -/

/-- Threads, scratchpads and registers of the cores other than core c are as they were, and so is every other register but those
named; the cooper's buffers stay. Core c's own registers hold its performance counters, which any change of a thread's state
brings up to date (Table 10-12). -/
def OnlyCore (c : Nat) (l : List Nat) (d t : Dev) : Prop :=
  (∀ m, coreNum m ≠ c → thrOf t m = thrOf d m) ∧ (∀ k, k ≠ c → coreOf t k = coreOf d k) ∧ t.cc.held = d.cc.held ∧
    ∀ a, a ≠ Reg.irqMsgCnt → ¬(Reg.core c ≤ a ∧ a < Reg.core c + 0x4000) → a ∉ l → rd t a = rd d a

/-- The same for several cores at once. -/
def OnlyCores (cs : List Nat) (l : List Nat) (d t : Dev) : Prop :=
  (∀ m, coreNum m ∉ cs → thrOf t m = thrOf d m) ∧ (∀ k, k ∉ cs → coreOf t k = coreOf d k) ∧ t.cc.held = d.cc.held ∧
    ∀ a, a ≠ Reg.irqMsgCnt → (∀ c ∈ cs, ¬(Reg.core c ≤ a ∧ a < Reg.core c + 0x4000)) → a ∉ l → rd t a = rd d a

/-- The thread runs, and no sample of it has fallen due whose trap the sixth instruction after it forces (R622). -/
abbrev Executes (d : Dev) (n : Nat) : Prop := isState d n .running = true ∧ (thrOf d n).sampleDue = false

/-- The thread has issued an access of 2 or 4 bytes of code that leaves the scratchpad, and switched out (R573). -/
abbrev Issued (d t : Dev) (n : Nat) : Prop :=
  (thrOf t n).state = .stalled ∧ ((thrOf t n).pc = (thrOf d n).pc + 2 ∨ (thrOf t n).pc = (thrOf d n).pc + 4)

/-- The thread runs next, or waits until its core comes to it (R572). -/
abbrev Going (d : Dev) (n : Nat) : Prop := (thrOf d n).state = .ready ∨ (thrOf d n).state = .running

/-! ## Forwarding tables -/

/-- The slot of complex k in which an address stands or will stand: where it is found, or the new slot of R185. -/
def macSlot (d : Dev) (k fid mac : Nat) : Option Nat :=
  (macFind (macTab d k) fid mac).or (newSlot (macTab d k) (macKey fid mac))

/-! ## Mailbox commands -/

/-- The registers of channel n. -/
def ChanReg (n a : Nat) : Prop := Reg.chan n ≤ a ∧ a < Reg.chan n + 0x100

/-- Every register but those named, those of the channel that completes a command, the cooper's count of bad frees (R619) and
the count of messages sent is as it was. -/
def OnlyRegsBeside (ch : Nat) (l : List Nat) (d t : Dev) : Prop :=
  ∀ a, a ≠ Reg.irqMsgCnt → a ≠ Reg.coopBadFree → a ≠ Reg.coopBadFreeLast → ¬ChanReg ch a → a ∉ l → rd t a = rd d a

/-- Channel ch is at work on one command `sl`, whose response goes to the host at once: firmware runs, bus mastering is on, the
channel has not stopped, nothing is held or discarded (R680, R687, R703), and no thread fault is about to end the command (R704). -/
abbrev Served (d : Dev) (ch : Nat) (sl : Slot) : Prop :=
  d.boot.fwRunning = true ∧ (chanOf d ch).inflight = [sl] ∧ (chanOf d ch).discard = 0 ∧ (chanOf d ch).held = [] ∧
    (chanOf d ch).enPending = false ∧ d.host.busMaster = true ∧ d.host.d3 = false ∧ chanErr d ch = false ∧ sl.rspOk = true ∧ sl.faulted = false

/-- The checks that R688 makes before a command's own pass: opcode, channel (R689), flags and payload, cooper, vintage (R695); and no
other channel's `RULE_WRITE` holds the vintage lock that the command needs (R692). -/
abbrev Accepted (d : Dev) (ch : Nat) (sl : Slot) (op flags : Nat) : Prop :=
  sl.opcode = op ∧ (if op / 256 = 6 then ch = 15 else ch < 15 ∨ op = 0x001 ∨ op = 0x004) ∧ sl.flags = flags ∧ sl.len ≤ 16384 ∧ sl.pool = 0 ∧
    sl.payloadOk = true ∧ (sl.expVint = 0 ∨ sl.expVint = d.host.vintage) ∧ lockWaits d ch sl = false

/-- The command has completed: the channel has none left, its response stands in the slot of its number (R681) with the vintage
after it (R694) and at most `RSP_LEN` bytes of its payload (R686), and `MBX_RSP_EVC` counts it. -/
def Answered (d t : Dev) (ch : Nat) (sl : Slot) (status detail : Nat) (payload : List Byte) : Prop :=
  (chanOf t ch).inflight = [] ∧ mreg t ch Reg.mRspEvc = (mreg d ch Reg.mRspEvc + 1) % two32 ∧
    tfind (chanOf t ch).ring (mreg d ch Reg.mRspEvc % 64) =
      some { status, len := payload.length, tag := sl.tag, vintage := t.host.vintage, detail, reason := 0,
             payload := payload.take sl.rspLen, addr := sl.rspAddr }

/-- Completed with OK and no failing element. -/
def AnsweredOk (d t : Dev) (ch : Nat) (sl : Slot) (payload : List Byte) : Prop := Answered d t ch sl 0 0xFFFF payload

end Sys2Proof
end

