-- ==== Sys2Proof/Certificates/Slice0/Obligations.lean ====
section
/-! DEFINITION. The statements for the provers, by chapter of the manual. -/

open Sys2Proof Sys2Proof.Machine

/-! ## The machine -/

/-- A step takes the command at the front of the queue and runs it with the rest (one step, one command). -/
def Obligations.StepRunsFrontCommand : Prop :=
  ∀ (c : Instr) (rest : List Instr) (s : State), step { s with pending := c :: rest } = exec c { s with pending := rest }

/-- With no command waiting a step is one tick of the TSU's clock (the model's choice, log entry 2): it answers a next state,
keeps the queue empty, and 1.28 ns of `now` pass. -/
def Obligations.IdleStepIsOneTick : Prop :=
  ∀ s : State, s.pending = [] → ∃ t : State, step s = .next t ∧ t.pending = [] ∧ t.dev.now = s.dev.now + 1280

/-- Every command whose operands name instances the device has answers a next state and leaves the queue alone; every other one
is refused as ill formed; none faults. -/
def Obligations.WellFormedCommandsRun : Prop :=
  ∀ (c : Instr) (s : State),
    (c.wf = true → ∃ t : State, exec c s = .next t ∧ t.pending = s.pending) ∧ (c.wf = false → exec c s = .refused .illFormed)

/-- R655: whatever command runs, or when the block idles, no vector of Table 11-5 is left armed with summary 1. -/
def Obligations.StepLeavesNoArmedPendingVector : Prop :=
  ∀ s t : State, step s = .next t → IrqSettled t.dev

/-- The state after reset satisfies what every step keeps. -/
def Obligations.ResetLeavesNoArmedPendingVector : Prop := IrqSettled State.reset.dev

/-! ## Mailbox: information and staged configuration -/

/-- `GET_INFO` and `GET_VINTAGE` complete with OK and the payloads of Table 12-8, and change nothing else (R694). -/
def Obligations.InfoCommandsAnswer : Prop :=
  ∀ (s : State) (ch : Nat) (sl : Slot), ch < 16 → Served s.dev ch sl → sl.len = 0 →
    (Accepted s.dev ch sl 0x001 0 → Ends (.getInfo ch) s fun t =>
      AnsweredOk s.dev t ch sl (infoPayload s.dev) ∧ OnlyParts [.chan, .cc] s.dev t ∧ OnlyRegsBeside ch [] s.dev t) ∧
    (Accepted s.dev ch sl 0x004 0 → Ends (.getVintage ch) s fun t =>
      AnsweredOk s.dev t ch sl (vintagePayload s.dev) ∧ OnlyParts [.chan, .cc] s.dev t ∧ OnlyRegsBeside ch [] s.dev t)

/-- R691, R697 to R701: `CONFIG_STAGE` adds its records to the staging area of its channel, and with `RESTART` discards what the area
held first; it answers how many it staged. `CONFIG_COMMIT` of one staged VLAN entry puts it into effect in every complex (R18, R171),
empties the area and moves the vintage; its `CHECK` form changes no configuration, `ABANDON` discards the area, and so does the passing
of 60 s. -/
def Obligations.StagingHoldsChecksAndCommits : Prop :=
  (∀ (s : State) (ch : Nat) (sl : Slot) (rs : List CfgRec), ch < 16 → Served s.dev ch sl →
      (∀ g, s.dev.host.staging = some g → g.owner = ch) → parseRecs recShape sl.len sl.payload 0 = .ok rs →
      (Accepted s.dev ch sl 0x002 0 →
        sumOf (rs.foldl replaceRec ((s.dev.host.staging.map (·.recs)).getD [])) CfgRec.size ≤ 2097152 →
        Ends (.configStage ch) s fun t =>
          AnsweredOk s.dev t ch sl (toLe 4 rs.length) ∧
            t.host.staging = some { owner := ch, recs := rs.foldl replaceRec ((s.dev.host.staging.map (·.recs)).getD []), last := s.dev.now } ∧
            t.host.cfg = s.dev.host.cfg ∧ t.host.vintage = s.dev.host.vintage ∧ OnlyParts [.chan, .cc, .host] s.dev t ∧
            OnlyRegsBeside ch [] s.dev t) ∧
      (Accepted s.dev ch sl 0x002 1 → sumOf (rs.foldl replaceRec []) CfgRec.size ≤ 2097152 →
        Ends (.configStageRestart ch) s fun t =>
          AnsweredOk s.dev t ch sl (toLe 4 rs.length) ∧
            t.host.staging = some { owner := ch, recs := rs.foldl replaceRec [], last := s.dev.now } ∧
            t.host.cfg = s.dev.host.cfg ∧ t.host.vintage = s.dev.host.vintage ∧ OnlyParts [.chan, .cc, .host] s.dev t ∧
            OnlyRegsBeside ch [] s.dev t)) ∧
  (∀ (s : State) (ch : Nat) (sl : Slot) (g : Staging) (r : CfgRec), ch < 16 → Served s.dev ch sl → sl.len = 0 →
      Accepted s.dev ch sl 0x003 0 → s.dev.host.staging = some g → g.owner = ch → g.recs = [r] → r.ty = 1 → valOk r = true →
      Ends (.configCommit ch) s fun t =>
        AnsweredOk s.dev t ch sl (toLe 4 1) ∧ cfgOf t 1 r.idx = r.val ∧ (∀ k < 4, pathOf t k 1 r.idx = r.val) ∧ t.host.staging = none ∧
          t.host.vintage = nextVintage s.dev.host.vintage ∧ OnlyRegsBeside ch [] s.dev t) ∧
  (∀ (s : State) (ch : Nat) (sl : Slot) (g : Staging), ch < 16 → s.dev.host.staging = some g →
      (Served s.dev ch sl → sl.len = 0 → g.owner = ch → commitCheck s.dev g.recs = none → Accepted s.dev ch sl 0x003 1 →
        Ends (.configCommitCheck ch) s fun t =>
          AnsweredOk s.dev t ch sl (toLe 4 0) ∧ t.host.staging = some { g with last := s.dev.now } ∧
            t.host.cfg = s.dev.host.cfg ∧ t.host.vintage = s.dev.host.vintage ∧ OnlyRegsBeside ch [] s.dev t) ∧
      (Served s.dev ch sl → sl.len = 0 → g.owner = ch → Accepted s.dev ch sl 0x003 2 → Ends (.configCommitAbandon ch) s fun t =>
        AnsweredOk s.dev t ch sl (toLe 4 0) ∧ t.host.staging = none ∧ t.host.cfg = s.dev.host.cfg ∧
          t.host.vintage = s.dev.host.vintage ∧ OnlyRegsBeside ch [] s.dev t) ∧
      (s.dev.boot.fwRunning = true → Ends .stagingTimeout s fun t =>
        g.last + 60 * ps_s ≤ t.now ∧ t.host.staging = none ∧ t.host.cfg = s.dev.host.cfg ∧ t.host.vintage = s.dev.host.vintage))

/-! ## Forwarding tables (chapter 04) -/

/-- R203, R825: `FDB_INSERT` of one well-formed element installs it in all four copies with `HIT` 1, `ORIGIN` 0 and `LEARN_TS` the
present `TSU_NS`, in the slot where the address stands or, where it does not, in the one R185 names, and answers 1; a static entry
needs `REPLACE` to be replaced, and the vintage moves if and only if a static entry is added or replaced (Table 12-10). `FDB_DELETE`
of an address that some copy holds removes it from every copy, with no learn notification of it left queued, and answers 1. -/
def Obligations.FdbEntriesAreInsertedAndDeleted : Prop :=
  (∀ (s : State) (ch fl : Nat) (sl : Slot) (e : MacEnt), ch < 16 → Served s.dev ch sl → Accepted s.dev ch sl 0x201 fl → fl < 2 →
      sl.len = 16 → sl.payload.length = 16 → macElemOk sl.payload = true →
      e = { parseMacElem sl.payload with ts := rd s.dev Reg.tsuNs } →
      (∀ k < 4, (macSlot s.dev k e.fid e.mac).isSome = true) →
      (fl = 1 ∨ ∀ k < 4, ∀ o, macGet (macTab s.dev k) e.fid e.mac = some o → o.static = false) →
      Ends (.fdbInsert ch) s fun t =>
        AnsweredOk s.dev t ch sl (toLe 4 1) ∧
          (∀ k < 4, ∀ i, macSlot s.dev k e.fid e.mac = some i →
            tfind (macTab t k) i = some e ∧ ∀ j, j ≠ i → tfind (macTab t k) j = tfind (macTab s.dev k) j) ∧
          (e.static = true ∨ (∃ k < 4, ∃ o, macGet (macTab s.dev k) e.fid e.mac = some o ∧ o.static = true) →
            t.host.vintage = nextVintage s.dev.host.vintage) ∧
          (e.static = false → (∀ k < 4, ∀ o, macGet (macTab s.dev k) e.fid e.mac = some o → o.static = false) →
            t.host.vintage = s.dev.host.vintage) ∧
          OnlyRegsBeside ch [] s.dev t) ∧
  (∀ (s : State) (ch : Nat) (sl : Slot) (fid mac : Nat), ch < 16 → Served s.dev ch sl → Accepted s.dev ch sl 0x202 0 →
      sl.len = 8 → sl.payload.length = 8 → fid = le sl.payload 0 2 → mac = be sl.payload 2 6 → fid < 4096 →
      (∃ k < 4, (macGet (macTab s.dev k) fid mac).isSome = true) →
      Ends (.fdbDelete ch) s fun t =>
        AnsweredOk s.dev t ch sl (toLe 4 1) ∧
          (∀ k < 4, ∀ i, macFind (macTab s.dev k) fid mac = some i → tfind (macTab t k) i = none) ∧
          (∀ k < 4, ∀ e ∈ learnQueue t k, ¬(e.fid = fid ∧ e.mac = mac)) ∧
          OnlyRegsBeside ch ((List.range 4).map fun k => Reg.cplx k + Reg.learnqAck) s.dev t)

/-- R203 to R205, R207: `FDB_SEARCH` and `FDB_NEXT` answer what the copies hold and change nothing. `FDB_FLUSH_BY_PORT` for one port,
every VLAN and dynamic entries counts each copy's dynamic MAC entries of that port, removes them with every other dynamic copy of the
addresses it affects, drops the queued notifications of those addresses and leaves every other entry and notification as it was; the
vintage stays. -/
def Obligations.FdbReadsAndFlushesAnswer : Prop :=
  (∀ (s : State) (ch : Nat) (sl : Slot), ch < 16 → Served s.dev ch sl →
      (∀ fid mac, Accepted s.dev ch sl 0x203 0 → sl.len = 8 → fid = le sl.payload 0 2 → mac = be sl.payload 2 6 → fid < 4096 →
        (∃ k < 4, (macGet (macTab s.dev k) fid mac).isSome = true) →
        Ends (.fdbSearch ch) s fun t =>
          AnsweredOk s.dev t ch sl
            (toLe 4 (bitSet ((List.range 4).filter fun k => (macGet (macTab s.dev k) fid mac).isSome)) ++
              (List.range 4).flatMap fun k => ((macGet (macTab s.dev k) fid mac).map MacEnt.encode).getD (zeros 16)) ∧
            OnlyParts [.chan, .cc] s.dev t ∧ OnlyRegsBeside ch [] s.dev t) ∧
      (∀ k cur n l, ∀ es : Tab MacEnt, Accepted s.dev ch sl 0x204 0 → sl.len = 12 →
        k = le sl.payload 0 1 → cur = le sl.payload 4 4 → n = le sl.payload 8 2 → le sl.payload 1 1 = 0 → le sl.payload 2 2 < 4096 →
        le sl.payload 10 2 = 0 → k < 4 → cur < 524288 → 1 ≤ n → n ≤ 1023 →
        es = ((macTab s.dev k).filter fun e => decide (cur ≤ e.1)).take n → es.getLast? = some l →
        Ends (.fdbNext ch) s fun t =>
          AnsweredOk s.dev t ch sl (toLe 4 (l.1 + 1) ++ toLe 2 es.length ++ zeros 10 ++ es.flatMap fun e => e.2.encode) ∧
            OnlyParts [.chan, .cc] s.dev t ∧ OnlyRegsBeside ch [] s.dev t)) ∧
  (∀ (s : State) (ch : Nat) (sl : Slot) (p : Nat), ch < 16 → Served s.dev ch sl → Accepted s.dev ch sl 0x205 0 → sl.len = 8 →
      p = le sl.payload 0 2 → p < 512 → le sl.payload 2 2 = 0 → le sl.payload 4 2 < 4096 → le sl.payload 6 2 = 0 →
      Ends (.fdbFlushByPort ch) s fun t =>
        AnsweredOk s.dev t ch sl
            ((List.range 4).flatMap fun k => toLe 4 ((macTab s.dev k).filter fun e => flushed false p none false e.2).length) ∧
          (∀ k < 4,
            (∀ e ∈ macTab t k, e ∈ macTab s.dev k ∧ flushed false p none false e.2 = false) ∧
            (∀ e ∈ macTab t k, e.2.ty = 0 → e.2.static = false → e.2.key ∉ affected s.dev (flushed false p none false)) ∧
            (∀ e ∈ macTab s.dev k, (e.2.ty ≠ 0 ∨ e.2.static = true ∨ e.2.key ∉ affected s.dev (flushed false p none false)) →
              e ∈ macTab t k) ∧
            learnQueue t k =
              (learnQueue s.dev k).filter fun n => !(affected s.dev (flushed false p none false)).contains n.key) ∧
          t.host.vintage = s.dev.host.vintage ∧
          OnlyRegsBeside ch ((List.range 4).map fun k => Reg.cplx k + Reg.learnqAck) s.dev t)

/-- R195, R196, R199 to R201: a learn-synchronisation thread takes the oldest notification of the queue in turn, counts it taken, and
installs an address that another complex does not know in the slot of R185, seen (`HIT` 1); the learning complex's own table stays. An
ageing sweep, half the ageing time after the one before at the earliest, removes the dynamic MAC entries that no copy had seen, keeps
the others with `HIT` cleared, and keeps every static and every host entry as it is. -/
def Obligations.LearningSpreadsAndAges : Prop :=
  (∀ (s : State) (k : Nat) (e : MacEnt) (r : List MacEnt), k < 4 → s.dev.boot.fwRunning = true → nextLearn s.dev = some k →
      learnQueue s.dev k = e :: r → Ends (.learnSync k) s fun t =>
        learnQueue t k = r ∧ t.fwd.learnTurn = k ∧ (∀ j, j ≠ k → learnQueue t j = learnQueue s.dev j) ∧
          rd t (Reg.cplx k + Reg.learnqAck) = (rd s.dev (Reg.cplx k + Reg.learnqAck) + 1) % two32 ∧
          macTab t k = macTab s.dev k ∧
          (∀ j < 4, j ≠ k → ∀ i, macFind (macTab s.dev j) e.fid e.mac = none →
            newSlot (macTab s.dev j) (macKey e.fid e.mac) = some i → tfind (macTab t j) i = some { e with hit := true })) ∧
  (∀ s : State, s.dev.boot.fwRunning = true → Ends .ageingSweep s fun t =>
      t.fwd.sweepAt = t.now ∧ s.dev.fwd.sweepAt + ageingTime s.dev * 1000000000000 / 2 ≤ t.now ∧
        (∀ k < 4,
          (∀ i e, (i, e) ∈ macTab t k →
            (e.ty = 0 → e.static = false → e.hit = false ∧ (e.fid, e.mac) ∈ seenKeys s.dev) ∧
            (e.ty ≠ 0 ∨ e.static = true → (i, e) ∈ macTab s.dev k)) ∧
          (∀ i e, (i, e) ∈ macTab s.dev k →
            (e.ty ≠ 0 ∨ e.static = true → (i, e) ∈ macTab t k) ∧
            (e.ty = 0 → e.static = false → (e.fid, e.mac) ∈ seenKeys s.dev → (i, { e with hit := false }) ∈ macTab t k))) ∧
        OnlyParts [.now, .time, .fwd] s.dev t)

/-- R18, R212, R213, R217: `LPM_ADD` of one new prefix, neither a default route nor a host, with room in the store and in the spill CAM,
lists it with its route result in every complex, the first of its length in the store if a page is free; `LPM_DELETE` of a listed prefix
that no host entry holds removes it from every complex; both answer the units in use and move the vintage. `LPM_SEARCH` answers the
longest match of an IPv4 or an IPv6 address, its kind and its route result, or E_NOENT where nothing matches, and changes nothing. -/
def Obligations.PrefixesAreStoredAndSearched : Prop :=
  (∀ (s : State) (ch : Nat) (sl : Slot) (p : Prefix), ch < 16 → Served s.dev ch sl → sl.len = 24 → sl.payload.length = 24 →
      p = parsePrefix sl.payload →
      (∀ fl, fl < 2 → Accepted s.dev ch sl 0x210 fl → prefixOk false sl.payload = true → 0 < p.len → p.len < addrBits p.fam →
        (∀ q ∈ lpmOf s.dev 0, q.same p.fam p.len p.addr = false) → lpmUnits s.dev 0 + prefixUnits p.fam p.len ≤ 1048576 →
        camUsed s.dev 0 + camEntries p.fam p.len ≤ 16384 →
        Ends (.lpmAdd ch) s fun t =>
          AnsweredOk s.dev t ch sl (toLe 4 (lpmUnits t 0)) ∧
            (∃ pl : Place, (pl = .hash ∨ pl = .cam) ∧ (∀ k < 4, lpmOf t k = lpmOf s.dev k ++ [{ p with place := pl }]) ∧
              (lengthUnits (lpmOf s.dev 0) p.fam p.len = 0 → 0 < freePages (tget {} s.dev.fwd.lpm 0) → pl = .hash)) ∧
            t.host.vintage = nextVintage s.dev.host.vintage ∧ OnlyRegsBeside ch [] s.dev t) ∧
      (∀ q, Accepted s.dev ch sl 0x211 0 → prefixOk true sl.payload = true →
        (lpmOf s.dev 0).find? (fun x => x.same p.fam p.len p.addr) = some q → q.place ≠ .host →
        Ends (.lpmDelete ch) s fun t =>
          AnsweredOk s.dev t ch sl (toLe 4 (lpmUnits t 0)) ∧ (∀ k < 4, lpmOf t k = (lpmOf s.dev k).filter (· ≠ q)) ∧
            t.host.vintage = nextVintage s.dev.host.vintage ∧ OnlyRegsBeside ch [] s.dev t)) ∧
  (∀ (s : State) (ch : Nat) (sl : Slot) (k fam a : Nat), ch < 16 → Served s.dev ch sl →
      Accepted s.dev ch sl 0x212 0 → sl.len = 20 → fam = le sl.payload 0 1 → k = le sl.payload 1 1 → k < 4 → le sl.payload 2 2 = 0 →
      ((fam = 4 ∧ sl.payload.drop 8 = zeros 12 ∧ a = be sl.payload 4 4) ∨ (fam = 6 ∧ a = be sl.payload 4 16)) →
      (∀ len via route, routeFind s.dev k fam a = some (len, via, route) → Ends (.lpmSearch ch) s fun t =>
        AnsweredOk s.dev t ch sl (toLe 1 len ++ toLe 1 via ++ toLe 3 route ++ zeros 3) ∧ OnlyParts [.chan, .cc] s.dev t ∧
          OnlyRegsBeside ch [] s.dev t) ∧
      (routeFind s.dev k fam a = none → Ends (.lpmSearch ch) s fun t =>
        Answered s.dev t ch sl eNoent 0xFFFF [] ∧ OnlyParts [.chan, .cc] s.dev t ∧ OnlyRegsBeside ch [] s.dev t))

/-- R237, R238: when a member of a group is lost, each of its buckets goes to a live member, if there is one, and no other bucket moves.
A member that is live again takes buckets from the others until it holds its fair share, rounded down (the model's choice, log entry
115), while no other member that held its own share falls below it, and no bucket moves to another. The four copies are written alike
(R171). -/
def Obligations.MembersMoveBuckets : Prop :=
  ∀ (s : State) (lag : Bool) (g m : Nat), s.dev.boot.fwRunning = true →
    (m ∉ liveMembers s.dev lag g → m < (groupMembers s.dev 0 lag g).length → Ends (.memberReassign lag g m) s fun t =>
      (∀ k < 4, groupBuckets t k lag g = reassign (groupBuckets s.dev 0 lag g) m (liveMembers s.dev lag g) ∧
        (∀ i, (groupBuckets s.dev 0 lag g).getD i 0 ≠ m → (groupBuckets t k lag g).getD i 0 = (groupBuckets s.dev 0 lag g).getD i 0) ∧
        (liveMembers s.dev lag g ≠ [] → ∀ i < (groupBuckets s.dev 0 lag g).length, (groupBuckets s.dev 0 lag g).getD i 0 = m →
          (groupBuckets t k lag g).getD i 0 ∈ liveMembers s.dev lag g)) ∧
        OnlyParts [.fwd] s.dev t ∧ OnlyRegs [] s.dev t) ∧
    (m ∈ liveMembers s.dev lag g → Ends (.memberAdd lag g m) s fun t =>
      (∀ k < 4, groupBuckets t k lag g =
          regain (groupMembers s.dev 0 lag g) (liveMembers s.dev lag g) m (groupBuckets s.dev 0 lag g) ∧
        (groupBuckets t k lag g).length = (groupBuckets s.dev 0 lag g).length ∧
        (∀ i, (groupBuckets t k lag g).getD i 0 = (groupBuckets s.dev 0 lag g).getD i 0 ∨ (groupBuckets t k lag g).getD i 0 = m) ∧
        ∀ share, share = shareOf (groupMembers s.dev 0 lag g) (liveMembers s.dev lag g) (groupBuckets s.dev 0 lag g).length →
          (∀ x, x ≠ m → share x ≤ held (groupBuckets s.dev 0 lag g) x → share x ≤ held (groupBuckets t k lag g) x) ∧
          (held (groupBuckets s.dev 0 lag g) m ≤ share m →
            (∀ x ∈ groupBuckets s.dev 0 lag g, x < (groupMembers s.dev 0 lag g).length) →
            held (groupBuckets t k lag g) m = share m)) ∧ OnlyParts [.fwd] s.dev t ∧ OnlyRegs [] s.dev t)

/-! ## Rules, meters and patterns (chapters 03, 07) -/

/-- R150, R154, R155: `RULE_WRITE` of one well-formed entry puts it into all four complexes, its counters starting at 0, every
other entry staying; the vintage moves, and where no complex began a chunk in the last 20 µs no other register does. A chunk of
a longer one writes at most 16 entries of one complex, 20 µs or more after the complex's chunk before, and leaves the others. -/
def Obligations.RuleWritesReachComplexes : Prop :=
  ∀ (s : State) (ch g n : Nat) (sl : Slot), ch < 16 → Served s.dev ch sl → Accepted s.dev ch sl 0x301 0 →
    rulePayloadOk sl.payload = true → g = le sl.payload 0 2 → n = le sl.payload 2 2 →
    (n = 1 → sl.len = 88 → s.dev.fwd.ruleJob = none → (∀ k < 4, backlog s.dev k = 0) → Ends (.ruleWrite ch) s fun t =>
      AnsweredOk s.dev t ch sl [] ∧ t.fwd.ruleJob = none ∧ t.host.vintage = nextVintage s.dev.host.vintage ∧
        (∀ k < 4, tget {} (ruleTab t k) g = parseRule (sl.payload.drop 4) ∧
          (∀ j, j ≠ g → tfind (ruleTab t k) j = tfind (ruleTab s.dev k) j) ∧
          rd t (Reg.cplx k + Reg.ruleFrames g) = 0 ∧ rd t (Reg.cplx k + Reg.ruleBytes g) = 0 ∧
          rd t (Reg.cplx k + Reg.ruleBytes g + 4) = 0) ∧
        ((∀ k < 4, ∀ u, tfind s.dev.fwd.chunkAt k = some u → u + 20 * ps_us ≤ s.dev.now) →
          OnlyRegsBeside ch ((List.range 4).flatMap fun k => [Reg.cplx k + Reg.ruleFrames g, Reg.cplx k + Reg.ruleBytes g,
            Reg.cplx k + Reg.ruleBytes g + 4, Reg.cplx k + Reg.rulePauseCnt]) s.dev t)) ∧
    (∀ i, i = chunksDone s.dev ch → i < chunkCount sl.payload → backlog s.dev (i % 4) = 0 → Ends (.ruleChunkWrite ch) s fun t =>
      t.fwd.ruleJob = some (ch, i + 1) ∧ chanOf t ch = chanOf s.dev ch ∧
        (∀ j < min 16 (n - i / 4 * 16), tget {} (ruleTab t (i % 4)) (g + i / 4 * 16 + j) =
          parseRule (sl.payload.drop (4 + 84 * (i / 4 * 16 + j)))) ∧
        (∀ k, k ≠ i % 4 → ruleTab t k = ruleTab s.dev k) ∧
        (∀ u, tfind s.dev.fwd.chunkAt (i % 4) = some u → u + 20 * ps_us ≤ t.now) ∧ OnlyParts [.now, .time, .fwd] s.dev t)

/-- Table 12-11, R365, R141: `RULE_WRITE` with `METER` sets one meter in all four complexes, its buckets full, and no register;
`MATCH_STEP` answers the first matching entry at or above its cursor, whether it is the first of all, whether it is counted, and
whether several match, and changes nothing. -/
def Obligations.MetersAndMatches : Prop :=
  ∀ (s : State) (ch : Nat) (sl : Slot), ch < 16 → Served s.dev ch sl →
    (∀ g, Accepted s.dev ch sl 0x301 1 → sl.len = 24 → sl.payload.length = 24 → le sl.payload 2 2 = 1 → g = le sl.payload 0 2 →
      0 < g → g < 16384 → meterElemOk (sl.payload.drop 4) = true → Ends (.ruleWriteMeter ch) s fun t =>
        AnsweredOk s.dev t ch sl [] ∧ t.host.vintage = nextVintage s.dev.host.vintage ∧
          (∀ k < 4, tfind (tget [] t.fwd.meters k) g = some (parseMeter s.dev.now (sl.payload.drop 4)) ∧
            ∀ j, j ≠ g → tfind (tget [] t.fwd.meters k) j = tfind (tget [] s.dev.fwd.meters k) j) ∧
          OnlyRegsBeside ch [] s.dev t) ∧
    (∀ k prof cur g ms, Accepted s.dev ch sl 0x302 0 → sl.len = 44 → k = le sl.payload 0 1 → prof = le sl.payload 1 1 →
      cur = le sl.payload 2 2 → k < 4 → prof < 16 → cur < 32768 → ms = ruleMatches s.dev k prof (le sl.payload 4 40) →
      ms.find? (fun g => decide (cur ≤ g)) = some g → Ends (.matchStep ch) s fun t =>
        AnsweredOk s.dev t ch sl (toLe 2 g ++ toLe 2 (b2n (decide (ms.head? = some g)) + 2 * b2n ((counted ms).contains g)
          + 4 * b2n (decide (2 ≤ ms.length)))) ∧ OnlyParts [.chan, .cc] s.dev t ∧ OnlyRegsBeside ch [] s.dev t)

/-- R126, R127: `PATTERN_LOAD` of one valid pattern puts it into the inactive set of every named tile, beside the entries of the
active one, and swaps the sets; the set that was active and the tiles not named stay as they were. -/
def Obligations.PatternLoadSwapsSets : Prop :=
  ∀ (s : State) (ch i m : Nat) (sl : Slot), ch < 16 → Served s.dev ch sl → Accepted s.dev ch sl 0x303 0 → sl.len = 52 →
    sl.payload.length = 52 → m = le sl.payload 0 2 → le sl.payload 2 2 = 1 → i = le sl.payload 4 2 →
    patElemOk (sl.payload.drop 4) = true → (parsePat (sl.payload.drop 4)).valid = true →
    Ends (.patternLoad ch) s fun t =>
      AnsweredOk s.dev t ch sl [] ∧ t.host.vintage = nextVintage s.dev.host.vintage ∧
        (∀ n < 16, bit m n = true →
          activeSet t n = 1 - activeSet s.dev n ∧
            tfind (tget [] t.fwd.pats (2 * n + activeSet t n)) i = some (parsePat (sl.payload.drop 4)) ∧
            (∀ j, j ≠ i → tfind (tget [] t.fwd.pats (2 * n + activeSet t n)) j =
              tfind (tget [] s.dev.fwd.pats (2 * n + activeSet s.dev n)) j) ∧
            tget [] t.fwd.pats (2 * n + activeSet s.dev n) = tget [] s.dev.fwd.pats (2 * n + activeSet s.dev n)) ∧
        (∀ n < 16, bit m n = false → activeSet t n = activeSet s.dev n ∧
          ∀ a < 2, tget [] t.fwd.pats (2 * n + a) = tget [] s.dev.fwd.pats (2 * n + a)) ∧
        OnlyRegsBeside ch ((List.range 16).flatMap fun n => [Reg.tile n + Reg.patSts, Reg.tile n + Reg.patSwapEvc]) s.dev t

/-! ## Queues, shapers and gates (chapter 07) -/

/-- Table 12-12, R263, R271, R360 to R366: `QUEUE_SET` with selector 0 sets a port's class weights and PFC registers, and a lossless
class that holds more shared cells than its new `XOFF` allows is in XOFF from then on; with selector 1 it sets the buffer registers of a
class in the tiles of its bitmap and of no other tile, and a VOQ of that class deeper than the new `SPILL_AT` is spilled (log entry 29);
`SHAPER_SET` writes the
encoded rate, the enable and the burst, answers the encoding, and a shaper newly enabled holds its full burst; a bucket below 0
is refilled to what it held and its rate has gained since, at most its burst, and holds 0 or more. -/
def Obligations.QueuesAndShapersAreSet : Prop :=
  ∀ (s : State) (ch p : Nat) (sl : Slot) (l : List Byte), l = sl.payload →
    (ch < 16 → Served s.dev ch sl → Accepted s.dev ch sl 0x401 0 → sl.len = 20 → l.length = 20 → le l 0 1 = 0 → p = le l 2 2 →
      portQueuesOk l = true → poolTooSmall (setPortQueues s.dev l) [tileOf p] = false → Ends (.queueSet ch) s fun t =>
        AnsweredOk s.dev t ch sl [] ∧ t.host.vintage = nextVintage s.dev.host.vintage ∧
          (∀ c < 8, rd t (Reg.egr p + Reg.eClass c) = le l (4 + c) 1) ∧
          rd t (Reg.portPfcCfg p) = le l 12 1 + 65536 * le l 14 2 ∧ rd t (Reg.portPfcHr p) = le l 16 4 ∧
          (∀ c < 7, bit (le l 12 1) c = true → 0 < pairUse s.dev p c .shared → le l 14 2 ≤ pairUse s.dev p c .shared →
            le l 14 2 < pairUse s.dev p c .shared + le l 18 2 → xoffOn t p c = true) ∧
          ((∀ c < 7, pairUse s.dev p c .shared = 0) → s.dev.buf.xoff = [] →
            OnlyRegsBeside ch (Reg.portPfcCfg p :: Reg.portPfcHr p :: (List.range 8).map fun c => Reg.egr p + Reg.eClass c) s.dev t)) ∧
    (∀ m c, ch < 16 → Served s.dev ch sl → Accepted s.dev ch sl 0x401 0 → sl.len = 16 → l.length = 16 → le l 0 1 = 1 → m = le l 2 2 →
      c = le l 4 1 → classBufOk l = true → poolTooSmall ((ones 16 m).foldl (setClassBuf l) s.dev) (ones 16 m) = false →
      Ends (.queueSet ch) s fun t =>
        AnsweredOk s.dev t ch sl [] ∧ t.host.vintage = nextVintage s.dev.host.vintage ∧
          (∀ n < 16, bit m n = true →
            (c = 7 → rd t (Reg.tile n + Reg.classBufCfg 7) = 0) ∧
            (c < 7 → rd t (Reg.tile n + Reg.classBufCfg c) = unsigned 4 (signed 8 (le l 5 1)) + 16 * le l 6 1 + 4096 * le l 7 1 ∧
              rd t (Reg.tile n + Reg.spillCfg c) = le l 8 4 ∧ rd t (Reg.tile n + Reg.overageLimit c) = le l 12 4 ∧
              (le l 7 1 = 1 → ∀ x ∈ s.dev.buf.copies, x.2.tile = n → x.2.cls = c → le l 8 2 < voqDepth s.dev n x.2.voq →
                spilled t n x.2.voq = true))) ∧
          (s.dev.buf.xoff = [] → OnlyRegsBeside ch ((ones 16 m).flatMap fun n =>
            [Reg.tile n + Reg.classBufCfg c, Reg.tile n + Reg.spillCfg c, Reg.tile n + Reg.overageLimit c, Reg.tile n + Reg.spillCnt])
            s.dev t)) ∧
    (∀ b k, ch < 16 → Served s.dev ch sl → Accepted s.dev ch sl 0x402 0 → sl.len = 12 → p = le l 0 2 → b = le l 2 1 →
      k = le l 4 4 → p < 512 → b < 8 → le l 3 1 ≤ 1 → 64 ≤ le l 8 4 → le l 8 4 ≤ 16777216 → rateOk k = true →
      Ends (.shaperSet ch) s fun t =>
        AnsweredOk s.dev t ch sl (toLe 1 (rateE k) ++ [0] ++ toLe 2 (rateM k - 1) ++ toLe 4 (rateSet k)) ∧
          t.host.vintage = nextVintage s.dev.host.vintage ∧
          rd t (Reg.egr p + Reg.eShRate b) = rateWord k + 2 ^ 31 * le l 3 1 ∧ rd t (Reg.egr p + Reg.eShBurst b) = le l 8 4 ∧
          (flag s.dev (Reg.egr p + Reg.eShRate b) 31 = false →
            (tget {} (egrOf t p).buckets b).tokens = (le l 8 4 * tokenUnit : Nat)) ∧
          OnlyRegsBeside ch [Reg.egr p + Reg.eShRate b, Reg.egr p + Reg.eShBurst b] s.dev t) ∧
    (∀ b, p < 512 → b < 9 → shaperEn s.dev p b = true → (bktNow s.dev p b).tokens < 0 → Ends (.tokenBucketRefill p b) s fun t =>
      s.dev.now + ceilDiv (-(bktNow s.dev p b).tokens).toNat (bktGain s.dev p b) ≤ t.now ∧
        (∃ x y, tfind (egrOf s.dev p).buckets b = some x ∧ tfind (egrOf t p).buckets b = some y ∧ y.since = t.now ∧
          y.tokens = min ((bktCap s.dev p b : Nat) : Int) (x.tokens + ((bktGain s.dev p b * (t.now - x.since) : Nat) : Int)) ∧
          (x.since ≤ s.dev.now → 0 < bktGain s.dev p b → 0 ≤ y.tokens)) ∧
        (∀ k, k ≠ b → tfind (egrOf t p).buckets k = tfind (egrOf s.dev p).buckets k) ∧
        (∀ q, q ≠ p → egrOf t q = egrOf s.dev q) ∧ OnlyParts [.now, .time, .egr] s.dev t)

/-- R380, R387: `GATE_LIST_SET` makes the list pending for the first of its base time plus whole cycles that lies 10 µs ahead, and
answers that time, the list in force going on; with `GATE_EN` 0 the list stops at once and every gate opens. -/
def Obligations.GateListSetWaitsOrStops : Prop :=
  ∀ (s : State) (ch p n : Nat) (l : List Byte) (sl : Slot), ch < 16 → Served s.dev ch sl → Accepted s.dev ch sl 0x403 0 →
    l = sl.payload → p = le l 0 2 → n = le l 2 2 → sl.len = 24 + 8 * n → l.length = sl.len → gateHeadOk l = true →
    (le l 20 1 = 1 → gateListOk l n = true → Ends (.gateListSet ch) s fun t =>
      AnsweredOk s.dev t ch sl (toLe 8 (tNew (le l 4 8) (le l 12 4) (extTime s.dev))) ∧
        (egrOf t p).pending = some (⟨le l 4 8, le l 12 4, le l 16 4, (elements 8 (l.drop 24)).map parseGate⟩,
          tNew (le l 4 8) (le l 12 4) (extTime s.dev)) ∧
        (egrOf t p).gates = (egrOf s.dev p).gates ∧ flag t (stsAddr p) 9 = true ∧
        (∀ q, q ≠ p → egrOf t q = egrOf s.dev q) ∧ OnlyRegsBeside ch [stsAddr p] s.dev t) ∧
    (le l 20 1 = 0 → n = 0 → Ends (.gateListSet ch) s fun t =>
      AnsweredOk s.dev t ch sl (toLe 8 (extTime s.dev)) ∧ (egrOf t p).gates = none ∧ (egrOf t p).pending = none ∧
        fld t (stsAddr p) 0 8 = 0xFF ∧ flag t (Reg.egr p + Reg.eCfg) 0 = false ∧
        (∀ q, q ≠ p → egrOf t q = egrOf s.dev q) ∧ OnlyRegsBeside ch [stsAddr p, Reg.egr p + Reg.eCfg] s.dev t)

/-- R377, R379 to R382: at T_new, if no event of the running list comes first, the pending list comes into force at the start of its
cycle; at the end of an entry the next one comes into force, whether a list is pending or not, and after the last one the next cycle
begins, or, where that would lie within the extension before T_new, does not begin; the extension is that of the list in force (the
model's choice, log entry 36). The gates' states are those of the entry. -/
def Obligations.GatesFollowTheList : Prop :=
  ∀ (s : State) (p : Nat) (l : GateList), p < 512 →
    (∀ u, (egrOf s.dev p).pending = some (l, u) → (∀ o v, (egrOf s.dev p).gates = some o → entryEnd s.dev p o = some v → u ≤ v) →
      u ≤ extTime s.dev → extTime s.dev < u + entryEnds {} l → Ends (.gateListSwitch p) s fun t =>
      (egrOf t p).gates = some l ∧ (egrOf t p).pending = none ∧ flag t (stsAddr p) 9 = false ∧ flag t (stsAddr p) 10 = false ∧
        flag t (Reg.egr p + Reg.eCfg) 0 = true ∧ (egrOf t p).entry = 0 ∧ (egrOf t p).cycleAt = u ∧
        fld t (stsAddr p) 0 8 = (l.entries.getD 0 noList).gates % 256 ∧
        rd t (Reg.egr p + Reg.eGateSwitchEvc) = (rd s.dev (Reg.egr p + Reg.eGateSwitchEvc) + 1) % two32 ∧
        rd t (Reg.egr p + Reg.eGateCycle) = (rd s.dev (Reg.egr p + Reg.eGateCycle) + 1) % two32 ∧
        (OwnPreempt s.dev p → ∀ q, q ≠ p → egrOf t q = egrOf s.dev q) ∧ OnlyParts [.egr, .buf] s.dev t) ∧
    (∀ n c, (egrOf s.dev p).gates = some l → n = entryEnds (egrOf s.dev p) l → c = (egrOf s.dev p).cycleAt → c + n ≤ extTime s.dev →
      ((egrOf s.dev p).pending = none → Ends (.gateEvent p) s fun t =>
        (egrOf t p).gates = some l ∧
          (n < l.cycle → (egrOf t p).entry = (egrOf s.dev p).entry + 1 ∧ (egrOf t p).cycleAt = c ∧
            fld t (stsAddr p) 0 8 = (l.entries.getD ((egrOf s.dev p).entry + 1) noList).gates % 256) ∧
          (l.cycle ≤ n → 0 < n → (egrOf t p).entry = 0 ∧ (egrOf t p).cycleAt = c + n ∧
            fld t (stsAddr p) 0 8 = (l.entries.getD 0 noList).gates % 256 ∧
            rd t (Reg.egr p + Reg.eGateCycle) = (rd s.dev (Reg.egr p + Reg.eGateCycle) + 1) % two32) ∧
          (OwnPreempt s.dev p → ∀ q, q ≠ p → egrOf t q = egrOf s.dev q) ∧ OnlyParts [.egr, .buf] s.dev t) ∧
      (∀ x, (egrOf s.dev p).pending = some x → c + n < x.2 →
        (n < l.cycle ∨ (n = l.cycle ∧ 0 < n ∧ l.ext ≤ x.2 - (c + n))) → Ends (.gateEvent p) s fun t =>
          (egrOf t p).gates = some l ∧ (egrOf t p).pending = some x ∧ flag t (stsAddr p) 10 = false ∧
            (n < l.cycle → (egrOf t p).entry = (egrOf s.dev p).entry + 1 ∧ (egrOf t p).cycleAt = c ∧
              fld t (stsAddr p) 0 8 = (l.entries.getD ((egrOf s.dev p).entry + 1) noList).gates % 256) ∧
            (n = l.cycle → (egrOf t p).entry = 0 ∧ (egrOf t p).cycleAt = c + n ∧
              fld t (stsAddr p) 0 8 = (l.entries.getD 0 noList).gates % 256) ∧
            (OwnPreempt s.dev p → ∀ q, q ≠ p → egrOf t q = egrOf s.dev q) ∧ OnlyParts [.egr, .buf] s.dev t) ∧
      (∀ x, (egrOf s.dev p).pending = some x → n = l.cycle → 0 < n → c + n < x.2 → x.2 - (c + n) < l.ext →
        flag s.dev (stsAddr p) 10 = false → Ends (.gateEvent p) s fun t =>
          flag t (stsAddr p) 10 = true ∧ (egrOf t p).gates = some l ∧ (egrOf t p).pending = some x ∧
            (egrOf t p).entry = (egrOf s.dev p).entry ∧ (egrOf t p).cycleAt = c ∧
            fld t (stsAddr p) 0 8 = (lastEnt l).gates % 256 ∧
            (OwnPreempt s.dev p → ∀ q, q ≠ p → egrOf t q = egrOf s.dev q) ∧ OnlyParts [.egr, .buf] s.dev t))

/-! ## Ports, lanes, links and module buses (chapter 02) -/

/-- R63, Table 12-9: `PORT_SET` of a management port, or of a port with an allowed mode whose lanes no other port has, writes the
mode, MAC merge, lane map and polarity registers and moves the vintage; with the link down and no filter in the payload only
these and the marks of the MACs that the mode covers change. -/
def Obligations.PortSetWritesRegisters : Prop :=
  ∀ (s : State) (ch p : Nat) (l : List Byte) (sl : Slot), ch < 16 → Served s.dev ch sl → Accepted s.dev ch sl 0x101 0 →
    l = sl.payload → l.length = sl.len → (sl.len = 16 ∨ sl.len = 528) → p = le l 0 2 →
    (512 ≤ p → p ≤ 513 → mgmtFieldsOk l = true → Ends (.portSet ch) s fun t =>
      AnsweredOk s.dev t ch sl [] ∧ rd t (Reg.mgmt (p - 512)) = portModeWord l ∧
        rd t (Reg.mgmt (p - 512) + 8) = pByte l 13 + 256 * pByte l 14 ∧ t.host.vintage = nextVintage s.dev.host.vintage ∧
        (flag s.dev (Reg.mgmt (p - 512) + 4) 0 = false → OnlyRegsBeside ch [Reg.mgmt (p - 512), Reg.mgmt (p - 512) + 8] s.dev t) ∧
        OnlyRegsBeside ch ([0, 4, 8, 0x2C].map (Reg.mgmt (p - 512) + ·)) s.dev t) ∧
    (p < 512 → lifelinePort s.dev p = false → portFieldsOk l = true → absorbedSet s.dev p = false →
      ((modeRow (pByte l 2)).map (modeOk p l)).getD true = true →
      ((modeRow (pByte l 2)).map fun r => (covered p r.lanes).filter (ownSet s.dev)).getD [] = [] →
      ((modeRow (pByte l 2)).map (familiesAfter s.dev p)).getD 0 ≤ 2 → safeUses s.dev p = false → Ends (.portSet ch) s fun t =>
        AnsweredOk s.dev t ch sl [] ∧ rd t (Reg.port p + Reg.pMode) = portModeWord l ∧ rd t (Reg.port p + Reg.pMm) = pmmWord l ∧
          rd t (Reg.port p + Reg.pLaneMap) = le l 10 3 ∧ rd t (Reg.port p + Reg.pLanePol) = pByte l 13 + 256 * pByte l 14 ∧
          t.host.vintage = nextVintage s.dev.host.vintage ∧
          (flag s.dev (psts p) 0 = false → sl.len = 16 → OnlyRegsBeside ch
            ([Reg.port p + Reg.pMm, Reg.port p + Reg.pLaneMap, Reg.port p + Reg.pLanePol, psts p] ++
              (List.range 4).map fun i => Reg.port (p + i) + Reg.pMode) s.dev t))

/-- R57 to R59, R98 to R104: `LANE_TRAIN` of a port with its link down, each lane trained within three attempts, counts the abandoned
ones and answers how many lanes trained; an abandoned attempt outside it is counted too. A stuck bus is cleared by 9 clock pulses and
a stop condition up to three times 1 ms apart and then failed, a device that stretches too long fails it, and `BUS_RECOVER` uses it
again. That abandoned attempts of `LANE_TRAIN` count, and when a bus is found stuck and how long a clear takes, are the model's choices
(log entries 25, 26, 99). -/
def Obligations.LanesTrainAndBusesRecover : Prop :=
  ∀ s : State,
    (∀ (ch p : Nat) (tries ks : List Nat) (r : ModeRow) (sl : Slot), ch < 16 → Served s.dev ch sl → Accepted s.dev ch sl 0x102 0 →
      sl.len = 4 → p = le sl.payload 0 2 → le sl.payload 2 2 = 0 → p < 512 → ownPath s.dev p = true → portRow s.dev p = some r →
      noTraining s.dev p = false → flag s.dev (psts p) 0 = false → (∀ k ∈ tries, k ≤ 3) →
      ks = (List.range r.lanes).map (fun i => tries.getD i 0) → (∀ k ∈ ks, k ≠ 0) → Ends (.laneTrain ch tries) s fun t =>
        AnsweredOk s.dev t ch sl (toLe 1 r.lanes ++ toLe 1 (ks.foldl max 0) ++ toLe 2 0) ∧
          rd t (Reg.port p + Reg.trainAbandon) = (rd s.dev (Reg.port p + Reg.trainAbandon) + sumOf ks (· - 1)) % two32 ∧
          (portOf t p).lanesTrained = r.lanes ∧ (portOf t p).trainDone = true ∧ (∀ q, q ≠ p → portOf t q = portOf s.dev q) ∧
          OnlyParts [.chan, .cc, .ports] s.dev t ∧
          OnlyRegsBeside ch [Reg.port p + Reg.trainAbandon, Reg.port p + Reg.pHalfEvc] s.dev t) ∧
    (∀ p < 512, ownPath s.dev p = true → noTraining s.dev p = false → Ends (.trainingAttemptAbandon p) s fun t =>
      rd t (Reg.port p + Reg.trainAbandon) = (rd s.dev (Reg.port p + Reg.trainAbandon) + 1) % two32 ∧ OnlyParts [] s.dev t ∧
        OnlyRegs [Reg.port p + Reg.trainAbandon, Reg.port p + Reg.pHalfEvc] s.dev t) ∧
    (∀ b < 16, alive s.dev = true → (busOf s.dev b).failed = false → (busOf s.dev b).stuck = false → Ends (.modBusStuck b) s fun t =>
      (busOf t b).stuck = true ∧ (busOf t b).clears = 0 ∧ (busOf t b).nextAt = t.now ∧ s.dev.now + 100 * ps_us ≤ t.now ∧
        OnlyParts [.now, .time, .modBus] s.dev t) ∧
    (∀ b < 16, (busOf s.dev b).stuck = true →
      (Ends (.modBusClear b true) s fun t =>
        busOf t b = { pulses := (busOf s.dev b).pulses + 9, stops := (busOf s.dev b).stops + 1 } ∧
          (busOf s.dev b).nextAt + clearTime b ≤ t.now ∧ OnlyParts [.now, .time, .modBus] s.dev t) ∧
      ((busOf s.dev b).clears < 2 → Ends (.modBusClear b false) s fun t =>
        (busOf t b).clears = (busOf s.dev b).clears + 1 ∧ (busOf t b).nextAt = t.now + ps_ms ∧ (busOf t b).failed = (busOf s.dev b).failed ∧
          (busOf t b).pulses = (busOf s.dev b).pulses + 9 ∧ (busOf t b).stops = (busOf s.dev b).stops + 1 ∧
          (busOf s.dev b).nextAt + clearTime b ≤ t.now ∧ OnlyParts [.now, .time, .modBus] s.dev t) ∧
      (2 ≤ (busOf s.dev b).clears → Ends (.modBusClear b false) s fun t => (busOf t b).failed = true ∧ (busOf t b).stuck = false ∧
        (busOf t b).pulses = (busOf s.dev b).pulses + 9 ∧ (busOf t b).stops = (busOf s.dev b).stops + 1 ∧
          OnlyParts [.now, .time, .modBus, .host, .tel] s.dev t)) ∧
    (∀ b < 16, alive s.dev = true → (busOf s.dev b).failed = false → Ends (.modBusStretchLimit b) s fun t =>
      (busOf t b).failed = true ∧ (∀ c, c ≠ b → busOf t c = busOf s.dev c) ∧ OnlyParts [.modBus, .host, .tel] s.dev t) ∧
    (∀ (ch b : Nat) (sl : Slot), ch < 16 → Served s.dev ch sl → Accepted s.dev ch sl 0x101 1 → sl.len = 4 → b = le sl.payload 0 1 →
      b < 16 → le sl.payload 1 3 = 0 → (busOf s.dev b).failed = true → Ends (.busRecover ch) s fun t =>
        AnsweredOk s.dev t ch sl [] ∧ busOf t b = {} ∧ (∀ c, c ≠ b → busOf t c = busOf s.dev c) ∧
          OnlyParts [.chan, .cc, .modBus] s.dev t ∧ OnlyRegsBeside ch [] s.dev t)

/-- Table 02-7, R73, R74, R821: a link that comes up or falls shows in `PORT_STS` and counts in `PORT_LINK_EVC`; without a link the locks
that are left show, and MAC merge stays active if it needs no verification; a verify frame is
sent up to three times and then verification has failed; a respond frame ends it and MAC merge is active. A management port
(512 and 513, R61, R63, Table 02-10) shows its link in `MGMT_STS` and counts its frames, falls and abandoned training. MAC merge after
a fall and the locks that are left are the model's choices (log entry 107), and so is what a management port counts (log entry 91). -/
def Obligations.LinksAndMacMergeFollowEvents : Prop :=
  (∀ (s : State) (p : Nat), p < 512 →
    (ownPath s.dev p = true → flag s.dev (psts p) 0 = false → Ends (.linkUp p) s fun t =>
      fld t (psts p) 0 3 = 7 ∧ flag t (psts p) 3 = flag s.dev (Reg.port p + Reg.pMode) 9 ∧
        rd t (Reg.port p + Reg.pLinkEvc) = (rd s.dev (Reg.port p + Reg.pLinkEvc) + 1) % two32 ∧
        OnlyParts [.ports] s.dev t ∧ OnlyRegs [psts p, Reg.port p + Reg.pLinkEvc] s.dev t) ∧
    (∀ pcs fec : Bool, ownPath s.dev p = true →
      (flag s.dev (psts p) 0 = true → Ends (.linkDown p pcs fec) s fun t =>
        flag t (psts p) 0 = false ∧ fld t (psts p) 1 2 =
            (if fld s.dev (Reg.port p + Reg.pMode) 6 3 = 0 ∨ (pcs = true ∧ fec = true) then 0 else b2n pcs + 2 * b2n fec) ∧
          (if mmEn s.dev p = true ∧ verifyEn s.dev p = false then flag t (psts p) 5 = flag s.dev (psts p) 5
            else flag t (psts p) 5 = false ∧ (portOf t p).verify = none) ∧
          rd t (Reg.port p + Reg.linkDownCnt) = (rd s.dev (Reg.port p + Reg.linkDownCnt) + 1) % two32 ∧
          rd t (Reg.port p + Reg.pLinkEvc) = (rd s.dev (Reg.port p + Reg.pLinkEvc) + 1) % two32) ∧
      (flag s.dev (psts p) 0 = false → Ends (.linkDown p pcs fec) s fun t =>
        fld t (psts p) 1 2 =
            (if fld s.dev (Reg.port p + Reg.pMode) 6 3 = 0 ∨ (pcs = true ∧ fec = true) then 0 else b2n pcs + 2 * b2n fec) ∧
          OnlyParts [] s.dev t ∧ OnlyRegs [psts p] s.dev t)) ∧
    (∀ n, (portOf s.dev p).verify = some n →
      (n < 3 → Ends (.mmVerifySend p) s fun t =>
        (portOf t p).verify = some (n + 1) ∧ (egrOf t p).ctl = (egrOf s.dev p).ctl ++ [.verify] ∧
          (portOf s.dev p).verifyAt ≤ t.now ∧ OnlyParts [.now, .time, .ports, .egr] s.dev t) ∧
      (3 ≤ n → Ends (.mmVerifySend p) s fun t =>
        (portOf t p).verify = none ∧ flag t (psts p) 6 = true ∧ OnlyParts [.now, .time, .ports] s.dev t)) ∧
    (receives s.dev p = true → portCounts s.dev p = true → Ends (.mmRespondReceive p) s fun t =>
      rd t (Reg.port p + Reg.mmVerifyRx) = (rd s.dev (Reg.port p + Reg.mmVerifyRx) + 1) % two32 ∧ (portOf t p).verify = none ∧
        ((portOf s.dev p).verify.isSome = true → flag t (psts p) 5 = true) ∧ OnlyParts [.ports] s.dev t ∧
        OnlyRegs [psts p, Reg.port p + Reg.mmVerifyRx, Reg.port p + Reg.pHalfEvc] s.dev t)) ∧
  ∀ (s : State) (n : Nat), n < 2 →
    (mgmtOn s.dev (512 + n) = true → flag s.dev (Reg.mgmt n + 4) 0 = false → Ends (.linkUp (512 + n)) s fun t =>
      fld t (Reg.mgmt n + 4) 0 3 = 7 ∧ OnlyParts [] s.dev t ∧ OnlyRegs [Reg.mgmt n + 4] s.dev t) ∧
    (∀ pcs fec : Bool, flag s.dev (Reg.mgmt n + 4) 0 = true → Ends (.linkDown (512 + n) pcs fec) s fun t =>
      fld t (Reg.mgmt n + 4) 0 3 = 0 ∧ rd t (Reg.mgmt n + 0x2C) = (rd s.dev (Reg.mgmt n + 0x2C) + 1) % two32 ∧
        OnlyParts [] s.dev t ∧ OnlyRegs [Reg.mgmt n + 4, Reg.mgmt n + 0x2C] s.dev t) ∧
    (mgmtOn s.dev (512 + n) = true → Ends (.trainingAttemptAbandon (512 + n)) s fun t =>
      rd t (Reg.mgmt n + 0x30) = (rd s.dev (Reg.mgmt n + 0x30) + 1) % two32 ∧ OnlyParts [] s.dev t ∧
        OnlyRegs [Reg.mgmt n + 0x30] s.dev t) ∧
    (∀ (l : List Byte) (pre err : Bool) (g v : Nat) (e : LineErrs), flag s.dev (Reg.mgmt n + 4) 0 = true →
      l.length ≤ fld s.dev (Reg.mgmt n) 16 14 → 64 ≤ l.length →
      (fcsGood l = true → Ends (.frameReceive (512 + n) l pre err g v e) s fun t =>
        rd t (Reg.mgmt n + 0x10) = (rd s.dev (Reg.mgmt n + 0x10) + 1) % two32 ∧
          rd t (Reg.mgmt n + 0x14) = (rd s.dev (Reg.mgmt n + 0x14) + l.length) % two32 ∧ OnlyParts [] s.dev t ∧
          OnlyRegs [Reg.mgmt n + 0x10, Reg.mgmt n + 0x14, Reg.mgmt n + 0x18] s.dev t) ∧
      (fcsGood l = false → Ends (.frameReceive (512 + n) l pre err g v e) s fun t =>
        rd t (Reg.mgmt n + 0x1C) = (rd s.dev (Reg.mgmt n + 0x1C) + 1) % two32 ∧ OnlyParts [] s.dev t ∧
          OnlyRegs [Reg.mgmt n + 0x1C] s.dev t))

/-! ## Time (chapter 08) -/

/-- Table 12-13, R415 to R425: the four kinds of `TIME_ADJUST`. Frequency sets the running increment to nominal × (1 + o × 2^−16 ppm),
to within the rounding that the manual leaves open; slew begins one in the direction of its amount; step arms a step for the permitted
instant; set enters an epoch, leaves the counter alone and has `PPS_OUT_NEXT` come to the next second of PTP time. Each answers when it
acts and what a slew in progress left. The model's choices: the rounding (log entry 38), that a frequency or slew acts at the command's own
time (log entry 37), the oldest epoch's going beyond 64 and the bound under which `PPS_OUT_NEXT` comes to a second (log entry 100). -/
def Obligations.TimeAdjustSteersTheCounter : Prop :=
  ∀ (s : State) (ch : Nat) (l : List Byte) (sl : Slot), ch < 16 → Served s.dev ch sl → Accepted s.dev ch sl 0x501 0 → sl.len = 24 →
    l = sl.payload → le l 1 3 = 0 →
    (∀ o, le l 0 1 = 0 → o = signed 32 (le l 4 4) → -65536000 ≤ o → o ≤ 65536000 → selMode s.dev = false →
      Ends (.timeAdjustFrequency ch) s fun t =>
        AnsweredOk s.dev t ch sl (adjRsp (extTime s.dev) 0) ∧
          (∃ r : Int, (r = 0 ∨ r = 1) ∧
            (t.time.incNs * two32 + t.time.incFrac : Nat) = (nominal : Int) + (nominal : Int) * o / 65536000000 + r) ∧
          rd t Reg.tsuAdjEvc = (rd s.dev Reg.tsuAdjEvc + 1) % two32 ∧ OnlyParts [.chan, .cc, .time] s.dev t ∧
          OnlyRegsBeside ch [Reg.tsuCtl, Reg.tsuIncFrac, Reg.tsuAdjEvc] s.dev t) ∧
    (∀ a, le l 0 1 = 1 → a = signed 32 (le l 4 4) → -1000000 ≤ a → a ≤ 1000000 → le l 8 4 ≤ 1000 → phaseSel s.dev = false →
      stepArmed s.dev = false → Ends (.timeAdjustSlew ch) s fun t =>
        (∃ rest, AnsweredOk s.dev t ch sl (adjRsp (extTime s.dev) rest) ∧ (slewing s.dev = false → rest = 0)) ∧
          slewing t = true ∧ rd t Reg.tsuSlewLeft = rd t Reg.tsuSlewTicks ∧ (0 ≤ a → 0 ≤ t.time.slewFrac) ∧
          (a < 0 → t.time.slewFrac < 0) ∧ OnlyParts [.chan, .cc, .time] s.dev t ∧
          OnlyRegsBeside ch [Reg.tsuSts, Reg.tsuSlewLeft, Reg.tsuSlewFrac, Reg.tsuSlewTicks, Reg.tsuAdjEvc] s.dev t) ∧
    (∀ a, le l 0 1 = 2 → a = signed 32 (le l 4 4) → a ≠ 0 → -1000000000 ≤ a → a ≤ 1000000000 → phaseSel s.dev = false →
      stepArmed s.dev = false → Ends (.timeAdjustStep ch) s fun t =>
        (∃ rest, AnsweredOk s.dev t ch sl (adjRsp (stepInstant (extTime s.dev)) rest) ∧ (slewing s.dev = false → rest = 0)) ∧
          stepArmed t = true ∧ slewing t = false ∧ rd t Reg.tsuStep = unsigned 32 a ∧ t.time.stepExt = stepInstant (extTime s.dev) ∧
          rd t Reg.tsuStepAt = stepInstant (extTime s.dev) % two32 ∧ OnlyParts [.chan, .cc, .time] s.dev t ∧
          OnlyRegsBeside ch [Reg.tsuSts, Reg.tsuSlewLeft, Reg.tsuStep, Reg.tsuStepAt, Reg.tsuAdjEvc] s.dev t) ∧
    (∀ o e, le l 0 1 = 3 → o = le l 16 8 → le l 14 2 = 0 → le l 10 4 < 1000000000 → o ≠ 0 → extTime s.dev + 10000 ≤ o →
      e = epochInsert (liveEpochs (extTime s.dev) s.dev.time.epochs) { origin := o, sec := le l 4 6, ns := le l 10 4 } →
      Ends (.timeAdjustSet ch) s fun t =>
        (∃ rest, AnsweredOk s.dev t ch sl (adjRsp o rest) ∧ (slewing s.dev = false → rest = 0)) ∧
          t.time.epochs = e.drop (e.length - 64) ∧ slewing t = false ∧
          (∀ x, nextSecond t.time.epochs (extTime s.dev + 1) = some x → x < extTime s.dev + 2 ^ 31 →
            rd t Reg.ppsOutNext = x % two32) ∧
          OnlyParts [.chan, .cc, .time] s.dev t ∧
          OnlyRegsBeside ch [Reg.tsuSts, Reg.tsuSlewLeft, Reg.tsuAdjEvc, Reg.ppsOutNext] s.dev t)

/-- R415 to R418, R477, R479: what the time-stamping unit does on firmware's writes of `TSU_CMD`, when a slew's ticks are over, when
an armed step's instant has passed, and on a write of `TSU_CAP_CMD`. The model's choices: a step armed where `TSU_NS` is beyond
`TSU_STEP_AT` by less than half a wrap applies in the next tick, any other at the next time that `TSU_NS` comes to it (log entries 37,
101); a stop counts as a slew's end (log entry 37); a capture comes 2 or 3 ticks later (log entry 39). -/
def Obligations.TsuCommandsAct : Prop :=
  ∀ s : State,
    (s.dev.boot.fwRunning = true →
      (Ends .tsuLoadInc s fun t =>
        t.time.incNs * two32 + t.time.incFrac = fld s.dev Reg.tsuCtl 0 4 * two32 + rd s.dev Reg.tsuIncFrac ∧
          rd t Reg.tsuAdjEvc = (rd s.dev Reg.tsuAdjEvc + 1) % two32 ∧ OnlyParts [.time] s.dev t ∧ OnlyRegs [Reg.tsuAdjEvc] s.dev t) ∧
      (Ends .tsuArmStep s fun t => stepArmed t = true ∧
        (sub32 (extTime s.dev % two32) (rd s.dev Reg.tsuStepAt) < 2 ^ 31 → t.time.stepExt = extTime s.dev) ∧
        (2 ^ 31 ≤ sub32 (extTime s.dev % two32) (rd s.dev Reg.tsuStepAt) →
          t.time.stepExt = nextAtNs (extTime s.dev) (rd s.dev Reg.tsuStepAt)) ∧
        OnlyParts [.time] s.dev t ∧ OnlyRegs [Reg.tsuSts] s.dev t) ∧
      (Ends .tsuStartSlew s fun t =>
        slewing t = true ∧ rd t Reg.tsuSlewLeft = rd s.dev Reg.tsuSlewTicks ∧ t.time.slewFrac = signed 32 (rd s.dev Reg.tsuSlewFrac) ∧
          OnlyParts [.time] s.dev t ∧ OnlyRegs [Reg.tsuSts, Reg.tsuSlewLeft, Reg.tsuAdjEvc] s.dev t) ∧
      (slewing s.dev = true → Ends .tsuStopSlew s fun t =>
        slewing t = false ∧ rd t Reg.tsuSlewLeft = 0 ∧ rd t Reg.tsuAdjEvc = (rd s.dev Reg.tsuAdjEvc + 1) % two32 ∧
          OnlyParts [.time] s.dev t ∧ OnlyRegs [Reg.tsuSts, Reg.tsuSlewLeft, Reg.tsuAdjEvc] s.dev t)) ∧
    (slewing s.dev = true → Ends .tsuSlewEnd s fun t =>
      slewing t = false ∧ rd t Reg.tsuSlewLeft = 0 ∧ t.now = s.dev.now + 1280 * rd s.dev Reg.tsuSlewLeft ∧
        rd t Reg.tsuAdjEvc = (rd s.dev Reg.tsuAdjEvc + 1) % two32 ∧ OnlyParts [.now, .time] s.dev t) ∧
    (stepArmed s.dev = true → Ends .tsuStepApply s fun t =>
      stepArmed t = false ∧
        (s.dev.time.stepExt ≤ extTime s.dev →
          (extTime t : Int) = ((extTime (elapse s.dev 1) : Int) + signed 32 (rd s.dev Reg.tsuStep)) % (2 ^ 64 : Nat)) ∧
        (Ahead s.dev s.dev.time.stepExt → ∃ x, FirstAt s.dev s.dev.time.stepExt x ∧
          (extTime t : Int) = ((x : Int) + signed 32 (rd s.dev Reg.tsuStep)) % (2 ^ 64 : Nat)) ∧
        OnlyParts [.now, .time, .egr, .buf] s.dev t) ∧
    (alive s.dev = true → Ends .tsuCapCmd s fun t =>
      (t.now = s.dev.now + 1280 * 2 ∨ t.now = s.dev.now + 1280 * 3) ∧ rd t Reg.tsuCapNs = tsuNs t ∧ rd t Reg.tsuCapWrap = rd t Reg.tsuWrap ∧
        rd t Reg.tsuCapFrac = t.time.frac ∧ rd t Reg.tsuCapSeq = (rd s.dev Reg.tsuCapSeq + 1) % two32 ∧
        OnlyParts [.now, .time] s.dev t ∧
        OnlyRegs [Reg.tsuNs, Reg.tsuWrap, Reg.tsuSlewLeft, Reg.tsuCapNs, Reg.tsuCapWrap, Reg.tsuCapFrac, Reg.tsuCapSeq] s.dev t)

/-- R443 to R447, R455, R456, R463 to R473, R414: pulses out of and into the device, the seconds and loads of the wall calendar, and
the alignment of the slave counters. The model's choices: how far `PPS_OUT_TS` lies from the intended time, and when a load is applied (log
entry 39); when a PPS edge is expected and the 2 µs beyond which it counts as a miss (log entry 103). -/
def Obligations.PulsesAndCalendarFollowTime : Prop :=
  ∀ s : State,
    (alive s.dev = true → flag s.dev Reg.ppsOutCfg 0 = true → Ends .ppsOutEdge s fun t =>
      t.pins.ppsOutUntil = t.now + fld s.dev Reg.ppsOutCfg 1 19 * ps_us ∧
        -4 ≤ diff32 (rd t Reg.ppsOutTs) (rd s.dev Reg.ppsOutNext) ∧ diff32 (rd t Reg.ppsOutTs) (rd s.dev Reg.ppsOutNext) ≤ 3 ∧
        (s.dev.time.ppsSet = false → rd t Reg.ppsOutNext = (rd s.dev Reg.ppsOutNext + 1000000000) % two32) ∧
        (∀ x, x = nextAtNs (extTime s.dev) (rd s.dev Reg.ppsOutNext) → Ahead s.dev x → FirstAt s.dev x (extTime t)) ∧
        OnlyParts [.now, .time, .pins] s.dev t ∧
        (s.dev.boot.fwRunning = false →
          OnlyRegs [Reg.tsuNs, Reg.tsuWrap, Reg.tsuSlewLeft, Reg.ppsOutNext, Reg.ppsOutTs] s.dev t)) ∧
    (∀ (b : Bool) (o : Int), alive s.dev = true → (∀ u, (refOf s.dev (b2n b)).ppsAt = some u → s.dev.now ≤ ppsDue u o) →
      (o.natAbs ≤ 2000 ∨ (refOf s.dev (b2n b)).ppsAt = none → Ends (.ppsInEdge b o) s fun t =>
        rd t (Reg.ppsTs b) = sub32 (tsuNs t) (fld s.dev (Reg.refPpsDelay (b2n b)) 0 16) ∧
          rd t (Reg.ppsEvc b) = (rd s.dev (Reg.ppsEvc b) + 1) % two32 ∧
          fld t (Reg.refSts (b2n b)) 13 5 = min 16 (fld s.dev (Reg.refSts (b2n b)) 13 5 + 1) ∧
          (fld s.dev (Reg.refSts (b2n b)) 13 5 = 15 → flag t (Reg.refSts (b2n b)) 3 = true) ∧
          (refOf t (b2n b)).ppsAt = some t.now ∧ (∀ u, (refOf s.dev (b2n b)).ppsAt = some u → ppsDue u o ≤ t.now) ∧
          OnlyParts [.now, .time] s.dev t) ∧
      (∀ u, (refOf s.dev (b2n b)).ppsAt = some u → 2000 < o.natAbs → Ends (.ppsInEdge b o) s fun t =>
        rd t (Reg.ppsEvc b) = (rd s.dev (Reg.ppsEvc b) + 1) % two32 ∧
          rd t (Reg.ppsMiss b) = (rd s.dev (Reg.ppsMiss b) + 1) % two32 ∧ fld t (Reg.refSts (b2n b)) 13 5 = 0 ∧
          ((refOf s.dev (b2n b)).ppsMissRun < 3 →
            (refOf t (b2n b)).ppsAt = some (if t.now < u + ps_s then u else u + ps_s)) ∧
          OnlyParts [.now, .time] s.dev t)) ∧
    (∀ (b : Bool) (u : Nat), alive s.dev = true → u = (refOf s.dev (b2n b)).ppsAt.getD s.dev.boot.releasedAt + ps_s →
      Ends (.ppsMissing b) s fun t =>
        u + 2 * ps_us ≤ t.now ∧ (refOf t (b2n b)).ppsAt = some u ∧
          rd t (Reg.ppsMiss b) = (rd s.dev (Reg.ppsMiss b) + 1) % two32 ∧ fld t (Reg.refSts (b2n b)) 13 5 = 0 ∧
          (2 ≤ (refOf s.dev (b2n b)).ppsMissRun → flag t (Reg.refSts (b2n b)) 3 = false) ∧ OnlyParts [.now, .time] s.dev t ∧
          (u + 2 * ps_us ≤ s.dev.now → OnlyRegs [Reg.ppsMiss b, Reg.refSts (b2n b)] s.dev t)) ∧
    (s.dev.pins.vstby = true → Ends .calSecondStep s fun t =>
      t.time.calSec = (s.dev.time.calSec + 1) % calSpan ∧ t.time.calSub = 0 ∧
        t.time.calAt = s.dev.time.calAt + ceilDiv ((32768 - s.dev.time.calSub) * ps_s) 32768 ∧ t.time.calAt ≤ t.now ∧
        (t.time.calWrapped = true ↔ s.dev.time.calWrapped = true ∨ s.dev.time.calSec + 1 = calSpan) ∧ OnlyParts [.now, .time] s.dev t) ∧
    (alive s.dev = true → Ends .calLoad s fun t =>
      t.time.calLoads = s.dev.time.calLoads ++ [(s.dev.now, rd s.dev Reg.calStage0, rd s.dev Reg.calStage1)] ∧
        t.time.calSec = s.dev.time.calSec ∧ OnlyParts [.time] s.dev t ∧ OnlyRegs [] s.dev t) ∧
    (∀ u s0 s1 r, s.dev.time.calLoads = (u, s0, s1) :: r → Ends .calLoadApply s fun t =>
      t.time.calLoads = r ∧ u + 61 * ps_us ≤ t.now ∧
        (stagePossible s0 s1 = true → t.time.calSec = stageSec s0 s1 ∧ t.time.calAt = t.now ∧ t.time.calNotSet = false ∧
          rd t Reg.calLoadEvc = (rd s.dev Reg.calLoadEvc + 1) % two32) ∧
        (stagePossible s0 s1 = false → t.time.calSec = s.dev.time.calSec ∧
          rd t Reg.calRejectEvc = (rd s.dev Reg.calRejectEvc + 1) % two32) ∧ OnlyParts [.now, .time] s.dev t) ∧
    (∀ die < 8, alive s.dev = true → Ends (.slaveAlignmentLoss die) s fun t =>
      flag t Reg.tsuSts (8 + die) = true ∧ tget 0 t.time.slaveAt die = s.dev.now ∧ OnlyParts [.time] s.dev t ∧
        OnlyRegs [Reg.tsuSts] s.dev t) ∧
    (∀ die < 8, Ends (.slaveRealign die) s fun t =>
      flag t Reg.tsuSts (8 + die) = false ∧ OnlyParts [] s.dev t ∧ OnlyRegs [Reg.tsuSts] s.dev t)

/-- R448 to R453, Table 08-7: the end of a gate counts it, keeps its raw offset, counts windows in a row and moves the reference
between its states: the 16th gate in window qualifies it, the third out of window in a row makes it SUSPECT, from where the third in
window brings it back and the eighth out of window disqualifies it. A loss of signal
disqualifies the reference at once and its return begins a gate; `REF_SELECT` writes the settings of all four. -/
def Obligations.ReferencesAreQualified : Prop :=
  ∀ s : State,
    (∀ (r : Nat) (raw : Int), r < 4 → alive s.dev = true → refEn s.dev r = true → flag s.dev (Reg.refSts r) 2 = false →
      (2 ≤ r → syncLock s.dev r = true) → Ends (.refGateEnd r raw) s fun t =>
        rd t (Reg.refGates r) = (rd s.dev (Reg.refGates r) + 1) % two32 ∧ (refOf t r).raw = (raw :: (refOf s.dev r).raw).take 19 ∧
          (∀ inWin i o, inWin = decide ((2 * raw - (median2 s.dev r).getD 0).natAbs ≤ 2 * fld s.dev (Reg.refCfg r) 12 14) →
            i = (if inWin then min 16 (fld s.dev (Reg.refSts r) 4 5 + 1) else 0) →
            o = (if inWin then 0 else min 8 (fld s.dev (Reg.refSts r) 9 4 + 1)) →
            fld t (Reg.refSts r) 4 5 = i ∧ fld t (Reg.refSts r) 9 4 = o ∧
              refState t r =
                (if refState s.dev r = 0 ∧ i = 16 then 1
                else if refState s.dev r = 1 ∧ o = 3 then 2
                else if refState s.dev r = 2 ∧ i = 3 then 1
                else if refState s.dev r = 2 ∧ o = 8 then 0
                else refState s.dev r)) ∧
          (∀ q < 4, q ≠ r → rd t (Reg.refSts q) = rd s.dev (Reg.refSts q)) ∧
          (refOf s.dev r).gateAt + ps_s ≤ t.now ∧ OnlyParts [.now, .time, .host] s.dev t) ∧
    (∀ r < 4, alive s.dev = true → refEn s.dev r = true → flag s.dev (Reg.refSts r) 2 = false → (2 ≤ r → syncLock s.dev r = false) →
      Ends (.refLossOfSignal r) s fun t =>
        flag t (Reg.refSts r) 2 = true ∧ refState t r = 0 ∧ fld t (Reg.refSts r) 4 5 = 0 ∧ fld t (Reg.refSts r) 9 4 = 0 ∧
          (∀ q < 4, q ≠ r → rd t (Reg.refSts q) = rd s.dev (Reg.refSts q)) ∧ OnlyParts [.time, .host] s.dev t) ∧
    (∀ r < 4, flag s.dev (Reg.refSts r) 2 = true → (2 ≤ r → syncLock s.dev r = true) → Ends (.refSignalReturn r) s fun t =>
      flag t (Reg.refSts r) 2 = false ∧ (refOf t r).gateAt = s.dev.now ∧ OnlyParts [.time] s.dev t ∧ OnlyRegs [Reg.refSts r] s.dev t) ∧
    (∀ (ch : Nat) (sl : Slot) (l : List Byte), ch < 16 → Served s.dev ch sl → Accepted s.dev ch sl 0x502 0 → sl.len = 28 → l = sl.payload →
      refPayloadOk s.dev l = true → Ends (.refSelect ch) s fun t =>
        AnsweredOk s.dev t ch sl (toLe 4 (selWord t)) ∧ rd t Reg.selCfg = le l 0 1 + 2 * le l 1 1 + 4 * le l 2 1 ∧
          (∀ r < 4, rd t (Reg.refCfg r) = le l (4 + 4 * r) 4) ∧ rd t (Reg.refPpsDelay 0) = le l 20 4 ∧
          rd t (Reg.refPpsDelay 1) = le l 24 4 ∧ t.host.vintage = nextVintage s.dev.host.vintage ∧
          OnlyParts [.chan, .cc, .time, .host] s.dev t)

/-! ## The safety plane (chapter 09) -/

/-- R545 to R547, Tables 12-14 and 12-15: a safety edit session opens with a copy of the committed configuration, its commands change
the copy alone, and it ends by abandoning or after 60 s without a safety command. The committed configuration stays throughout. -/
def Obligations.SafetySessionEditsACopy : Prop :=
  ∀ (s : State) (sl : Slot) (l : List Byte), l = sl.payload →
    (Served s.dev 15 sl → Accepted s.dev 15 sl 0x601 0 → sl.len = 0 → s.dev.safe.edit = none → Ends (.safetyEditOpen 15) s fun t =>
      AnsweredOk s.dev t 15 sl (safeIds s.dev) ∧ t.safe = { s.dev.safe with edit := some { cfg := s.dev.safe.cfg, last := s.dev.now } } ∧
        safeFlag t 15 = true ∧ safeFlag t 16 = false ∧ OnlyParts [.chan, .cc, .safe] s.dev t ∧ OnlyRegsBeside 15 [Reg.safeSts] s.dev t) ∧
    (∀ e n, s.dev.safe.edit = some e → Served s.dev 15 sl → Accepted s.dev 15 sl 0x602 0 → le l 1 1 = 0 → n = le l 2 2 →
      (le l 0 1 = 0 → 1 ≤ n → n ≤ 255 → sl.len = 4 + 64 * n → (∀ x ∈ chunks n 64 (l.drop 4), streamOk x = true) →
        Ends (.safetyStreamSet 15) s fun t =>
          AnsweredOk s.dev t 15 sl [] ∧ t.safe = { s.dev.safe with edit := some { cfg := { e.cfg with
            streams := ((chunks n 64 (l.drop 4)).map parseStream).foldl setOrDrop e.cfg.streams }, last := s.dev.now } } ∧
            OnlyParts [.chan, .cc, .safe] s.dev t ∧ OnlyRegsBeside 15 [Reg.safeSts] s.dev t) ∧
      (le l 0 1 = 1 → n = 0 → sl.len = 516 → Ends (.safetyStreamSet 15) s fun t =>
        AnsweredOk s.dev t 15 sl [] ∧
          t.safe = { s.dev.safe with edit := some { cfg := { e.cfg with vids := le l 4 512 }, last := s.dev.now } } ∧
          OnlyParts [.chan, .cc, .safe] s.dev t ∧ OnlyRegsBeside 15 [Reg.safeSts] s.dev t) ∧
      (le l 0 1 = 2 → n = 0 → sl.len = 12 → Ends (.safetyStreamSet 15) s fun t =>
        AnsweredOk s.dev t 15 sl [] ∧ t.safe = { s.dev.safe with
          edit := some { cfg := { e.cfg with stopCfg := le l 4 4, degradeCfg := le l 8 4 }, last := s.dev.now } } ∧
          OnlyParts [.chan, .cc, .safe] s.dev t ∧ OnlyRegsBeside 15 [Reg.safeSts] s.dev t)) ∧
    (∀ e n, s.dev.safe.edit = some e → Served s.dev 15 sl → Accepted s.dev 15 sl 0x603 0 → n = le l 0 1 → 1 ≤ n → n ≤ 60 →
      sl.len = 4 + 272 * n → le l 1 3 = 0 → (∀ x ∈ chunks n 272 (l.drop 4), teleOk x = true) → Ends (.telegramLoad 15) s fun t =>
        AnsweredOk s.dev t 15 sl [] ∧ t.safe = { s.dev.safe with edit := some { cfg := { e.cfg with
          teles := ((chunks n 272 (l.drop 4)).map parseTele).foldl setOrDrop e.cfg.teles }, last := s.dev.now } } ∧
          OnlyParts [.chan, .cc, .safe] s.dev t ∧ OnlyRegsBeside 15 [Reg.safeSts] s.dev t) ∧
    (∀ e, s.dev.safe.edit = some e → Served s.dev 15 sl → Accepted s.dev 15 sl 0x604 2 → sl.len = 0 →
      Ends (.safetyCommitAbandon 15) s fun t =>
        AnsweredOk s.dev t 15 sl [] ∧ t.safe = { s.dev.safe with edit := none } ∧ safeFlag t 15 = false ∧ safeFlag t 16 = false ∧
          OnlyParts [.chan, .cc, .safe] s.dev t ∧ OnlyRegsBeside 15 [Reg.safeSts] s.dev t) ∧
    (∀ e, s.dev.safe.edit = some e → Ends .safetyEditTimeout s fun t =>
      t.safe = { s.dev.safe with edit := none } ∧ safeFlag t 15 = false ∧ e.last + 60 * ps_s ≤ t.now ∧
        OnlyParts [.now, .time, .safe] s.dev t)

/-- R25, R526, R548 to R552: step one checks the copy and answers its digest; step two within 10 s, with the same digest, no stop and no
thermal trip, and MRAM written without a difference, makes it the committed configuration, loads it into a bank of each guard and of
the hardwired path, moves both vintages and fixes T_sw at least 100 µs and less than 100 ms ahead; a new `MODE` judges channel B anew.
From T_sw on a guard decides by the new bank, for frames that arrived before it by the old one. -/
def Obligations.SafetyCommitsInTwoSteps : Prop :=
  ∀ (s : State) (e : Edit) (sl : Slot),
    (s.dev.safe.edit = some e → Served s.dev 15 sl → Accepted s.dev 15 sl 0x604 0 → sl.len = 0 → safeCheck s.dev e.cfg = none →
      Ends (.safetyCommit 15) s fun t =>
        AnsweredOk s.dev t 15 sl (toLe 8 (safeDigest e.cfg)) ∧ safeFlag t 16 = true ∧
          t.safe = { s.dev.safe with edit := some { cfg := e.cfg, last := s.dev.now, armed := some (safeDigest e.cfg, s.dev.now) } } ∧
          OnlyParts [.chan, .cc, .safe] s.dev t ∧ OnlyRegsBeside 15 [Reg.safeSts] s.dev t) ∧
    (∀ u past c, s.dev.safe.edit = some e → Served s.dev 15 sl → Accepted s.dev 15 sl 0x604 1 → sl.len = 8 →
      e.armed = some (le sl.payload 0 8, u) → s.dev.now ≤ u + 10 * ps_s → safeFlag s.dev 10 = false → safeFlag s.dev 21 = false →
      past = !(s.dev.safe.loaded && s.dev.safe.tsw.any fun w => decide (extTime s.dev < w)) → c = fixBases e.cfg (extTime s.dev) →
      Ends (.safetyCommitConfirm 15 true) s fun t =>
        (∃ w, t.safe.tsw = some w ∧ extTime s.dev + 100000 ≤ w ∧ w < extTime s.dev + 100000000 ∧
          AnsweredOk s.dev t 15 sl (safeIds t ++ toLe 4 w)) ∧
          t.safe.cfg = c ∧ (∀ g < 2, (guardOf t g).banks = (guardOf s.dev g).banks.load past c) ∧ t.safe.hk = s.dev.safe.hk.load past c ∧
          (∀ x ≤ extTime s.dev, past = true → ∀ g < 2, guardCfg t g x = (guardOf s.dev g).banks.new) ∧
          t.safe.loaded = true ∧ t.safe.edit = none ∧
          (safeDigest c ≠ s.dev.safe.startDigest → cfgOf t 46 0 = toLe 8 (safeDigest c)) ∧
          rd t Reg.safeVintage = (rd s.dev Reg.safeVintage + 1) % two32 ∧ t.host.vintage = nextVintage s.dev.host.vintage ∧
          (bit (stopCfg s.dev) 0 = bit e.cfg.stopCfg 0 → OnlyParts [.chan, .cc, .safe, .host, .tel] s.dev t ∧
            OnlyRegsBeside 15 [Reg.safeSts, Reg.safeVintage, Reg.safeStopCfg, Reg.safeDegradeCfg, Reg.bbLost] s.dev t) ∧
          (bit (stopCfg s.dev) 0 ≠ bit e.cfg.stopCfg 0 → guardsStarted s.dev = true →
            (stopSeen t true = !stopSeen s.dev true) ∧ (stopSeen s.dev true = false → safeFlag t 10 = true))) ∧
    (∀ w, s.dev.safe.tsw = some w → s.dev.safe.loaded = true → w ≤ extTime s.dev → Ends .safetyBankSwitch s fun t =>
      t.safe.loaded = false ∧ (∀ g, (guardOf t g).banks = (guardOf s.dev g).banks) ∧ t.safe.hk = s.dev.safe.hk ∧
        (∀ g x, w ≤ x → guardCfg t g x = (guardOf s.dev g).banks.new) ∧ t.safe.cfg = s.dev.safe.cfg ∧
        t.safe.tsw = s.dev.safe.tsw)

/-- R502, R510 to R516, R520: `CLAIM_SET` gives a guard that may have it a new claim; with `PROOF` a test that passes, the other
guard claiming, returns the default claim and clears the causes; a forced claim becomes 0 and its cause stays, and with both claims 0
`SAFE_STATE_N` is low; the degraded limit forces the survivor; a proof test reloads the guard's tables from the image, runs with the
claim at 0 and its record outlives it by 24 h. That `CLAIM_SET` clears the causes, that a passed test with the other claim 0 leaves the
claim, and that a cause on a forced guard is latched, are the model's choices (log entry 52). -/
def Obligations.ClaimsFollowCausesAndTests : Prop :=
  ∀ (s : State) (sl : Slot) (g : Nat), g < 2 →
    (∀ v, Served s.dev 15 sl → Accepted s.dev 15 sl 0x605 0 → sl.len = 4 → claimArgs sl = true → proofBit sl = false →
      g = le sl.payload 0 1 → v = le sl.payload 1 1 → v ≠ 0 → v ≠ claim s.dev (1 - g) → v ≠ defClaim s.dev (1 - g) →
      testing s.dev g = false → guardsStarted s.dev = true →
      (fld s.dev (Reg.guardSts g) 0 9 = 0 ∨ flag s.dev (Reg.guardSts g) 11 = true) → Ends (.claimSet 15) s fun t =>
        AnsweredOk s.dev t 15 sl (claimRsp t) ∧ claim t g = v ∧ claim t (1 - g) = claim s.dev (1 - g) ∧ safeFlag t 8 = false ∧
          fld t (Reg.guardSts g) 0 9 = 0 ∧ rd t (Reg.guardSts (1 - g)) = rd s.dev (Reg.guardSts (1 - g))) ∧
    (Served s.dev 15 sl → Accepted s.dev 15 sl 0x605 0 → sl.len = 4 → proofBit sl = true → le sl.payload 2 1 < 2 →
      le sl.payload 3 1 = 0 → g = le sl.payload 0 1 → testing s.dev 0 = false → testing s.dev 1 = false → proofCount s.dev < 3 →
      claim s.dev (1 - g) ≠ 0 → Ends (.claimSetProof 15 true) s fun t =>
        AnsweredOk s.dev t 15 sl (claimRsp t) ∧ claim t g = defClaim s.dev g ∧ flag t (Reg.guardSts g) 11 = true ∧
          fld t (Reg.guardSts g) 0 11 = 0 ∧ (guardOf t g).banks.new = s.dev.safe.cfg ∧
          t.safe.proofs = (s.dev.now + 86400 * ps_s) :: s.dev.safe.proofs) ∧
    (∀ c < 9, alive s.dev = true → Ends (.claimForce g c) s fun t =>
      claim t g = 0 ∧ flag t (Reg.guardSts g) c = true ∧ flag t (Reg.guardSts g) 11 = false ∧
        (claim s.dev (1 - g) = 0 → safeFlag t 8 = true ∧ safeStateN t = false)) ∧
    (∀ u, degradeEnd s.dev = some u → g = (if claim s.dev 0 ≠ 0 then 0 else 1) → Ends .degradeLimitExpiry s fun t =>
      claim t g = 0 ∧ flag t (Reg.guardSts g) 8 = true ∧ u ≤ t.now) ∧
    (∀ u, proofAt (guardOf s.dev g) = some u → s.dev.boot.fwRunning = true → testing s.dev g = false → proofCount s.dev < 3 →
      Ends (.proofTestStart g) s fun t =>
        flag t (Reg.guardSts g) 10 = true ∧ claim t g = 0 ∧ u ≤ t.now ∧ (guardOf t g).banks.new = s.dev.safe.cfg ∧
          t.safe.proofs = (t.now + 86400 * ps_s) :: s.dev.safe.proofs) ∧
    (testing s.dev g = true →
      (claim s.dev (1 - g) ≠ 0 → Ends (.proofTestDone g true) s fun t =>
        claim t g = defClaim s.dev g ∧ flag t (Reg.guardSts g) 11 = true ∧ fld t (Reg.guardSts g) 0 11 = 0) ∧
      (claim s.dev (1 - g) = 0 → Ends (.proofTestDone g true) s fun t =>
        claim t g = claim s.dev g ∧ flag t (Reg.guardSts g) 11 = true ∧ fld t (Reg.guardSts g) 0 9 = 0 ∧
          flag t (Reg.guardSts g) 10 = false) ∧
      (Ends (.proofTestDone g false) s fun t =>
        flag t (Reg.guardSts g) 10 = false ∧ claim t g = claim s.dev g ∧
          (guardOf t g).failedAt = some s.dev.now))

/-- R523 to R532, R536, R540: a channel held at stop for the filter time shows and, if none is active, begins a stop; the count of
discrepancy ends in a fault; an acknowledge, by command or by a pulse of 10 ms to 5 s, ends a stop that nothing holds; an input
stuck low is shown until it has been high for 10 ms; a lost heartbeat shows; a telegram that falls due is offered on its port. -/
def Obligations.StopsBeginEndAndRepeat : Prop :=
  ∀ s : State,
    (∀ (b level : Bool) (h : Nat), s.dev.safe.armedHk = true → tpFilter s.dev ≤ h →
      (levelStop s.dev b level = true → stopSeen s.dev b = false → Ends (.safeStopChange b level h) s fun t =>
        stopSeen t b = true ∧ stopSeen t (!b) = stopSeen s.dev (!b) ∧ safeFlag t 10 = true ∧
          (safeFlag s.dev 10 = false → rd t Reg.stopEvc = (rd s.dev Reg.stopEvc + 1) % two32)) ∧
      (levelStop s.dev b level = false → stopSeen s.dev b = true →
        (∀ f dir u, s.dev.safe.disc = some (f, dir, u, false) → (s.dev.now - u) / (10 * ps_us) < discTicks s.dev) →
        Ends (.safeStopChange b level h) s fun t =>
        stopSeen t b = false ∧ safeFlag t 10 = safeFlag s.dev 10 ∧ OnlyParts [.pins, .safe] s.dev t ∧
          OnlyRegs [Reg.safeSts] s.dev t)) ∧
    (∀ f dir u, s.dev.safe.disc = some (f, dir, u, false) → Ends .discrepancyFault s fun t =>
      safeFlag t 13 = true ∧ rd t Reg.discEvc = (rd s.dev Reg.discEvc + 1) % two32 ∧ 4 ∈ t.tel.trigDue ∧
        u + discTicks s.dev * 10 * ps_us ≤ t.now ∧ OnlyParts [.now, .time, .safe, .tel, .host] s.dev t) ∧
    (∀ sl, Served s.dev 15 sl → Accepted s.dev 15 sl 0x606 0 → sl.len = 0 →
      (safeFlag s.dev 10 = true → safeFlag s.dev 11 = false → safeFlag s.dev 12 = false → safeFlag s.dev 13 = false →
        Ends (.stopAck 15) s fun t => AnsweredOk s.dev t 15 sl [] ∧ safeFlag t 10 = false ∧
          OnlyRegsBeside 15 [Reg.safeSts, Reg.bbLost] s.dev t) ∧
      (safeFlag s.dev 10 = false ∨ safeFlag s.dev 11 = true ∨ safeFlag s.dev 12 = true ∨ safeFlag s.dev 13 = true →
        Ends (.stopAck 15) s fun t => Answered s.dev t 15 sl 10 0xFFFF [] ∧
          rd t Reg.stopAckIgnored = (rd s.dev Reg.stopAckIgnored + 1) % two32 ∧
          OnlyRegsBeside 15 [Reg.safeSts, Reg.stopAckIgnored] s.dev t)) ∧
    (s.dev.pins.stopAckN = true → Ends .stopAckNFall s fun t =>
      t.pins.stopAckN = false ∧ t.safe.ackFallAt = some s.dev.now ∧ OnlyParts [.pins, .safe] s.dev t ∧
        (∀ i < 32, i ≠ 14 → safeFlag t i = safeFlag s.dev i) ∧ (safeFlag t 14 = true → safeFlag s.dev 14 = true) ∧
        OnlyRegs [Reg.safeSts] s.dev t) ∧
    (∀ u, s.dev.pins.stopAckN = false → s.dev.safe.ackFallAt = some u → u + 10 * ps_ms ≤ s.dev.now → s.dev.now ≤ u + 5 * ps_s →
      safeFlag s.dev 10 = true → safeFlag s.dev 11 = false → safeFlag s.dev 12 = false → safeFlag s.dev 13 = false →
      Ends .stopAckNEdge s fun t =>
        t.pins.stopAckN = true ∧ safeFlag t 10 = false ∧ OnlyRegs [Reg.safeSts, Reg.bbLost] s.dev t) ∧
    (∀ u, s.dev.safe.ackFallAt = some u → Ends .ackStuck s fun t => safeFlag t 14 = true ∧ u + 5 * ps_s < t.now) ∧
    (∀ u, s.dev.safe.ackRiseAt = some u → safeFlag s.dev 14 = true → Ends .ackStuckClear s fun t =>
      safeFlag t 14 = false ∧ u + 10 * ps_ms ≤ t.now) ∧
    (∀ e < 3, safeFlag s.dev (18 + e) = true → Ends (.emitterHeartbeatLoss e) s fun t =>
      safeFlag t (18 + e) = false ∧ OnlyParts [.host] s.dev t ∧ OnlyRegs [Reg.safeSts, Reg.fwEvc, Reg.ntfLost] s.dev t) ∧
    (∀ j u tl e, (j, u) ∈ s.dev.safe.teleDue → (∀ x ∈ s.dev.safe.teleDue, u ≤ x.2) → e ∈ emitters s.dev →
      tfind (telesNow s.dev e) j = some tl → tl.kind &&& activeKinds s.dev ≠ 0 →
      (∀ k ∈ emitters s.dev, ∀ i x, tfind (telesNow s.dev k) i = some x → sealGood i x = true) → portDead s.dev tl.port = false →
      (∀ x, tfind s.dev.safe.teleAt j = some x → x + stopRepeat s.dev / 2 ≤ s.dev.now) → Ends .telegramRepeat s fun t =>
        j ∈ (egrOf t tl.port).tele ∧ u ≤ t.now)

/-! ## Reception and pauses (chapters 02, 03, 05) -/

/-- R66 to R69, R75, R242, R244, R822, R823: on a port that receives, an SMD-V mPacket is answered with SMD-R; a complete frame of TC0
to TC6 that no stream filter names, cut after `MAX_LEN` + 1 bytes, is kept with what the parser finds, under the next number, in free
cells of its tile; a port that is not admitted counts the frame and keeps nothing; without a link a port counts the errors of its PCS
alone. Registers outside the port's own and the tile's `PARSE_FAIL_CNT` stay. -/
def Obligations.FramesAreReceived : Prop :=
  ∀ (s : State) (p : Nat) (l : List Byte) (pre : Bool) (e : LineErrs), p < 512 →
    (∀ err n v, receives s.dev p = false → portCounts s.dev p = true → flag s.dev (psts p) 1 = true →
      Ends (.frameReceive p l pre err n v e) s fun t =>
        rd t (Reg.port p + Reg.rxPcsErr) = (rd s.dev (Reg.port p + Reg.rxPcsErr) + e.pcs) % two32 ∧ OnlyParts [] s.dev t ∧
          OnlyRegs ([Reg.rxPcsErr, Reg.rxFecCorr, Reg.rxFecUncorr, Reg.pHalfEvc].map (Reg.port p + ·)) s.dev t) ∧
    (∀ err n, receives s.dev p = true → Ends (.frameReceive p l pre err n 1 e) s fun t =>
      (egrOf t p).ctl = (egrOf s.dev p).ctl ++ [.respond] ∧ (∀ q, q ≠ p → egrOf t q = egrOf s.dev q) ∧
        OnlyParts [.egr] s.dev t ∧
        OnlyRegs ([Reg.rxPcsErr, Reg.rxFecCorr, Reg.rxFecUncorr, Reg.pHalfEvc].map (Reg.port p + ·)) s.dev t) ∧
    (∀ v m x, receives s.dev p = true → v ≠ 1 → m = cutLen s.dev p l → x = newFrame s.dev p m.1 (!m.2 && fcsGood m.1) pre →
      macControl l = 0 → tileMarks s.dev x.tile x x.vid = false →
      (admitted s.dev p false = true → gafDrops s.dev p m.1 = false → s.dev.boot.phase = .full →
        filterFor s.dev p (be m.1 0 6) x.vid = none → s.dev.tel.mirrors = [] → Ends (.frameReceive p l pre false 0 v e) s fun t =>
          (∃ ch, frameOf t s.dev.buf.nextFrame = some { x with chain := ch } ∧
            (∀ c ∈ ch, c < tileCells ∧ c ∉ ownedCells s.dev x.tile ∧ c ∉ strayCells s.dev x.tile) ∧
            ((ownedCells s.dev x.tile ++ strayCells s.dev x.tile).length + cellsOf x.len ≤ tileCells →
              ch.length = cellsOf x.len ∧ ch.Nodup)) ∧
            t.buf.nextFrame = s.dev.buf.nextFrame + 1 ∧
            (∀ f, f ≠ s.dev.buf.nextFrame → frameOf t f = frameOf s.dev f) ∧ t.buf.copies = s.dev.buf.copies ∧
            OnlyParts [.buf] s.dev t ∧
            ∀ a, a ≠ Reg.irqMsgCnt → ¬(Reg.port p ≤ a ∧ a < Reg.port p + 0x1000) →
              a ≠ Reg.tile (tileOf p) + Reg.parseFailCnt x.parse.fail → rd t a = rd s.dev a) ∧
      (admitted s.dev p false = false → portCounts s.dev p = true → Ends (.frameReceive p l pre false 0 v e) s fun t =>
        rd t (Reg.port p + Reg.rxDisabledDrop) = (rd s.dev (Reg.port p + Reg.rxDisabledDrop) + 1) % two32 ∧
          OnlyParts [] s.dev t ∧
          ∀ a, a ≠ Reg.irqMsgCnt → ¬(Reg.port p ≤ a ∧ a < Reg.port p + 0x1000) → rd t a = rd s.dev a))

/-- R68, R69, R265, R268, R269, R823, Table 05-5: a PFC frame with a good FCS sets the pauses it names and counts in `RX_PFC`; a PAUSE
frame counts and pauses nothing, as does either where it is longer than `MAX_LEN` or its port is not admitted; a pause ends when its
time has run out; a pair in XOFF sends its PFC frame again each 32,768 quanta. -/
def Obligations.PausesAreTakenAndSent : Prop :=
  ∀ (s : State) (p : Nat), p < 512 →
    (∀ l, receives s.dev p = true → macControl l ≠ 0 → portCounts s.dev p = true →
      (admitted s.dev p false = true → fld s.dev (Reg.port p + Reg.pMode) 16 14 < l.length → Ends (.pauseFrameReceive p l) s fun t =>
        rd t (Reg.port p + Reg.rxOversize) = (rd s.dev (Reg.port p + Reg.rxOversize) + 1) % two32 ∧ OnlyParts [] s.dev t) ∧
      (admitted s.dev p false = false → Ends (.pauseFrameReceive p l) s fun t =>
        rd t (Reg.port p + Reg.rxDisabledDrop) = (rd s.dev (Reg.port p + Reg.rxDisabledDrop) + 1) % two32 ∧ OnlyParts [] s.dev t)) ∧
    (∀ l, receives s.dev p = true → fcsGood l = true → portCounts s.dev p = true → admitted s.dev p false = true →
      l.length ≤ fld s.dev (Reg.port p + Reg.pMode) 16 14 →
      (macControl l = 2 → Ends (.pauseFrameReceive p l) s fun t =>
        (egrOf t p).paused = (List.range 7).foldl (pauseTimes l s.dev.now (quantum s.dev p)) (egrOf s.dev p).paused ∧
          rd t (Reg.port p + Reg.rxPfc) = (rd s.dev (Reg.port p + Reg.rxPfc) + 1) % two32 ∧ OnlyParts [.egr] s.dev t ∧
          (∀ q, q ≠ p → egrOf t q = egrOf s.dev q) ∧
          ∀ a, a ≠ Reg.irqMsgCnt → ¬(Reg.port p ≤ a ∧ a < Reg.port p + 0x1000) → rd t a = rd s.dev a) ∧
      (macControl l = 1 → Ends (.pauseFrameReceive p l) s fun t =>
        rd t (Reg.port p + Reg.rxPause) = (rd s.dev (Reg.port p + Reg.rxPause) + 1) % two32 ∧ OnlyParts [] s.dev t ∧
          ∀ a, a ≠ Reg.irqMsgCnt → ¬(Reg.port p ≤ a ∧ a < Reg.port p + 0x1000) → rd t a = rd s.dev a)) ∧
    (∀ c u, c < 8 → tfind (egrOf s.dev p).paused c = some u → Ends (.pauseExpiry p c) s fun t =>
      tfind (egrOf t p).paused c = none ∧ u ≤ t.now ∧ (∀ k, k ≠ c → tfind (egrOf t p).paused k = tfind (egrOf s.dev p).paused k) ∧
        (∀ q, q ≠ p → egrOf t q = egrOf s.dev q) ∧ OnlyParts [.now, .time, .egr] s.dev t) ∧
    (∀ c u, c < 8 → tfind s.dev.buf.xoff (8 * p + c) = some u → Ends (.xoffRepeat p c) s fun t =>
      (egrOf t p).ctl = (egrOf s.dev p).ctl ++ [.pfc (1 <<< c) 0xFFFF] ∧
        tfind t.buf.xoff (8 * p + c) = some (u + 32768 * quantum s.dev p) ∧ u ≤ t.now ∧
        (∀ q, q ≠ p → egrOf t q = egrOf s.dev q) ∧ t.buf.frames = s.dev.buf.frames ∧ t.buf.copies = s.dev.buf.copies ∧
        OnlyParts [.now, .time, .buf, .egr] s.dev t)

/-- R180 to R188, R244, R249, R251, R252: with no rule search enabled, a unicast frame whose source is allowed and whose destination the
table of its complex names as another, live port, outside any LAG, becomes one copy for that port in the frame's own cells, or is
dropped and counted by what refused it; where its VOQ's reservation is not used up it is admitted. A frame whose tail follows with a
good FCS stays; one with a bad FCS makes no further copy. -/
def Obligations.UnicastFramesAreBridged : Prop :=
  ∀ (s : State) (f : Nat) (x : Frame), frameOf s.dev f = some x → x.inPort < 512 →
    (∀ e k slot, k = cplxOf x.inPort → slot < 12 → x.keyed = false → x.dead = false → x.tailIn = false → x.cls < 7 → x.inject = none →
      (∀ n < 16, flag s.dev (Reg.cplx k + Reg.ruleProfCfg n) 4 = false) → s.dev.tel.mirrors = [] →
      tileCause s.dev x = none → vlanRefused s.dev k x = false → isGroup (be x.bytes 6 6) = false →
      macGet (macTab s.dev k) (vlanOf s.dev k x.vid).fid (be x.bytes 6 6) = none →
      macGet (macTab s.dev k) (vlanOf s.dev k x.vid).fid (be x.bytes 0 6) = some e → e.router = false →
      e.discardDa = false → e.isMcast = false → e.isLag = false → e.dest ≠ x.inPort → e.dest < 512 → lagOf s.dev k x.inPort = none →
      portDead s.dev e.dest = false → copiesOf s.dev f = [] → Ends (.keySearch [(f, slot)]) s fun t =>
        ∃ y, frameOf t f = some y ∧ y.keyed = true ∧ y.bytes = x.bytes ∧
          (y.dead = false → ∃ c, copyOf t s.dev.buf.nextCopy = some c ∧ c.frame = f ∧ c.tile = x.tile ∧ c.port = e.dest ∧
            c.cls = x.cls ∧ c.cells = cellsOf x.len ∧ c.rewrite = none ∧ c.mirror = none ∧ (x.chain ≠ [] → c.chain = x.chain)) ∧
          (voqPart s.dev x.tile (8 * e.dest + x.cls) .reservation < bits (classCfg s.dev x.tile x.cls) 4 8 → y.dead = false) ∧
          (y.dead = true → t.buf.copies = s.dev.buf.copies ∧ ∃ r ∈ [Reg.dropThresh, Reg.dropTenantCap, Reg.dropHeadroom],
            rd t (Reg.tile x.tile + r) = (rd s.dev (Reg.tile x.tile + r) + 1) % two32)) ∧
    (x.tailIn = false → x.fcsOk = true → x.learn = none → x.keyed = false → x.dead = false → Ends (.frameTail f) s fun t =>
      frameOf t f = some { x with tailIn := true } ∧ t.buf.copies = s.dev.buf.copies ∧
        (∀ g, g ≠ f → frameOf t g = frameOf s.dev g) ∧ OnlyParts [.buf] s.dev t ∧ OnlyRegs [] s.dev t) ∧
    (x.tailIn = false → x.fcsOk = false → Ends (.frameTail f) s fun t =>
      ∀ y, frameOf t f = some y → y.dead = true ∧ y.tailIn = true)

/-! ## Trap queues and the DMA rings (chapters 03, 11) -/

/-- R161, R165, R666 to R669: the oldest frame of a trap queue goes to firmware where no ring takes the queue; else to the ring's next
descriptor, which is written back with the frame's metadata (Table 11-6); where none is posted it waits 1 ms and counts in
`TRAPR_NOBUF`. A failed access stops the ring with its cause (R664). -/
def Obligations.TrappedFramesReachFirmwareOrARing : Prop :=
  ∀ (s : State) (q : Nat) (x : TrapFrame) (r : List TrapFrame), q < 8 → trapQueue s.dev q = x :: r → s.dev.boot.fwRunning = true →
    (trapRing s.dev q = none → Ends (.trapHandle q) s fun t =>
      trapQueue t q = r ∧ (∀ j, j ≠ q → trapQueue t j = trapQueue s.dev j) ∧ OnlyParts [.host, .cc] s.dev t ∧
        OnlyRegs [Reg.coopBadFree, Reg.coopBadFreeLast] s.dev t) ∧
    (∀ e c desc, trapRing s.dev q = some e → c = rd s.dev (Reg.ring false e + Reg.rEvc) →
      (12 ≤ desc.length → dmaUp s.dev = true → descAt s.dev false e c = true →
        (sub32 (rd s.dev (Reg.ring false e + Reg.rPost)) c ≤ 2 ^ fld s.dev (Reg.ring false e + Reg.rCfg) 0 5 →
          Ends (.trapRingDeliver q desc 0) s fun t =>
          tfind (tget [] t.host.done e) (c % 2 ^ fld s.dev (Reg.ring false e + Reg.rCfg) 0 5) = some (trapDone q x desc) ∧
            rd t (Reg.ring false e + Reg.rEvc) = (c + 1) % two32 ∧ trapQueue t q = r ∧
            (∀ j, j ≠ q → trapQueue t j = trapQueue s.dev j) ∧ OnlyParts [.host, .cc] s.dev t ∧
            OnlyRegs [Reg.ring false e + Reg.rEvc, Reg.coopBadFree, Reg.coopBadFreeLast] s.dev t) ∧
        (∀ err, 1 ≤ err → err ≤ 2 → Ends (.trapRingDeliver q desc err) s fun t =>
          flag t (Reg.ring false e + Reg.rSts) 1 = true ∧ fld t (Reg.ring false e + Reg.rSts) 8 8 = err ∧ OnlyParts [] s.dev t ∧
            OnlyRegs [Reg.ring false e + Reg.rSts] s.dev t)) ∧
      (descAt s.dev false e c = false → Ends (.trapRingNobuf q) s fun t =>
        trapQueue t q = r ∧ x.since + ps_ms ≤ t.now ∧
          rd t (Reg.ring false e + Reg.rBad) = (rd s.dev (Reg.ring false e + Reg.rBad) + 1) % two32 ∧
          (∀ j, j ≠ q → trapQueue t j = trapQueue s.dev j) ∧ OnlyParts [.now, .time, .host, .cc] s.dev t))

/-- R661 to R665, Tables 11-11 and 11-12: enabling a ring sets its counts to 0; `LOG2` holds while it is enabled; a post stands in `POST`,
and one beyond the ring stops it with cause 3. That enabling clears `ERR` is the model's choice (log entry 59). -/
def Obligations.RingsAreEnabledAndPosted : Prop :=
  ∀ (s : State) (inj : Bool) (e v r old : Nat), e < 8 → v < two32 → barUp s.dev = true → r = Reg.ring inj e →
    old = rd s.dev (r + Reg.rCfg) →
    (∀ w, w = v &&& (if inj then 0x3F else 0xFF3F) → ringOn old = false → ringOn w = true → Ends (.ringEnable inj e v) s fun t =>
      rd t (r + Reg.rCfg) = w ∧ rd t (r + Reg.rPost) = 0 ∧ rd t (r + Reg.rEvc) = 0 ∧ rd t (r + Reg.rAck) = 0 ∧
        flag t (r + Reg.rSts) 1 = false ∧ OnlyParts [] s.dev t ∧
        OnlyRegs [r + Reg.rCfg, r + Reg.rPost, r + Reg.rEvc, r + Reg.rAck, r + Reg.rSts] s.dev t) ∧
    (ringOn old = true → bit v 5 = false → Ends (.ringEnable inj e v) s fun t =>
      fld t (r + Reg.rCfg) 0 5 = fld s.dev (r + Reg.rCfg) 0 5 ∧ flag t (r + Reg.rCfg) 5 = false ∧
        (inj = true → tfind t.host.inject e = none) ∧ OnlyParts [.host, .buf] s.dev t ∧ OnlyRegs [r + Reg.rCfg] s.dev t) ∧
    (ringOn old = true → flag s.dev (r + Reg.rSts) 1 = false →
      (2 ^ fld s.dev (r + Reg.rCfg) 0 5 < sub32 v (rd s.dev (r + Reg.rEvc)) → Ends (.ringPost inj e v) s fun t =>
        rd t (r + Reg.rPost) = v ∧ flag t (r + Reg.rSts) 1 = true ∧ fld t (r + Reg.rSts) 8 8 = 3 ∧ OnlyParts [] s.dev t ∧
          OnlyRegs [r + Reg.rPost, r + Reg.rSts] s.dev t) ∧
      (sub32 v (rd s.dev (r + Reg.rEvc)) ≤ 2 ^ fld s.dev (r + Reg.rCfg) 0 5 → Ends (.ringPost inj e v) s fun t =>
        rd t (r + Reg.rPost) = v ∧ OnlyParts [] s.dev t ∧ OnlyRegs [r + Reg.rPost] s.dev t)) ∧
    (ringOn old = false → Ends (.ringPost inj e v) s fun t =>
      rd t (r + Reg.rPost) = v ∧ OnlyParts [] s.dev t ∧ OnlyRegs [r + Reg.rPost] s.dev t)

/-- R670 to R675, Tables 11-7 and 11-8: a fetched descriptor is listed, with its status at once where the rules refuse it; else its
frame enters the device, directly as one copy for its port or through lookup, or completes with status 5: it enters where its VOQ's
reservation is not used up, and for lookup where no stream filter names it; to a port that is down it completes with status 5. The next
descriptor in order whose status is known is written back and counted, and a count that has passed `POST` stops the ring (R664); so does
a failed read (R665). -/
def Obligations.InjectedFramesEnterAndComplete : Prop :=
  ∀ (s : State) (e : Nat), e < 8 → dmaUp s.dev = true →
    (∀ c desc frame x st, c = injectNext s.dev e → descAt s.dev true e c = true → 16 ≤ desc.length → frame.length = injectLen desc →
      x = injFrame s.dev e c desc frame → st = injRefusal s.dev desc x →
      (coopAlloc s.dev (56 + e) (ceilDiv frame.length 256)).1 = 0 →
      (st ≠ 0 → Ends (.injectDescriptor e desc frame 0) s fun t =>
        tfind (tget [] t.host.inject e) c = some { desc := padTo 16 desc, res := some (st, 0) } ∧
          OnlyParts [.host, .cc] s.dev t) ∧
      (st = 0 → Ends (.injectDescriptor e desc frame 0) s fun t =>
        (tfind (tget [] t.host.inject e) c = some { desc := padTo 16 desc, res := some (5, 0) } ∧ t.buf.copies = s.dev.buf.copies) ∨
        (tfind (tget [] t.host.inject e) c = some { desc := padTo 16 desc, res := none } ∧
          (∃ y, frameOf t s.dev.buf.nextFrame = some y ∧ y.bytes = frame ++ fcsOf frame ∧ y.inject = some (e, c, injMode desc) ∧
            y.departIntent = le desc 12 4 ∧ y.keyed = !injMode desc) ∧
          (injMode desc = false → ∃ k, copyOf t s.dev.buf.nextCopy = some k ∧ k.frame = s.dev.buf.nextFrame ∧
            k.port = injPort desc ∧ k.cls = injCls desc ∧ k.tile = tileOf (injPort desc) ∧ k.cells = cellsOf x.len))) ∧
      (st = 0 → s.dev.boot.phase ≠ .quiesced →
        (injMode desc = false → portDead s.dev (injPort desc) = true → Ends (.injectDescriptor e desc frame 0) s fun t =>
          tfind (tget [] t.host.inject e) c = some { desc := padTo 16 desc, res := some (5, 0) } ∧ t.buf.copies = s.dev.buf.copies ∧
            rd t (Reg.tile (tileOf (injPort desc)) + Reg.dropLinkDown) =
              (rd s.dev (Reg.tile (tileOf (injPort desc)) + Reg.dropLinkDown) + 1) % two32) ∧
        (injMode desc = false → portDead s.dev (injPort desc) = false →
          voqPart s.dev (tileOf (injPort desc)) (8 * injPort desc + injCls desc) .reservation <
            bits (classCfg s.dev (tileOf (injPort desc)) (injCls desc)) 4 8 → Ends (.injectDescriptor e desc frame 0) s fun t =>
          tfind (tget [] t.host.inject e) c = some { desc := padTo 16 desc, res := none } ∧
            (frameOf t s.dev.buf.nextFrame).isSome = true ∧ (copyOf t s.dev.buf.nextCopy).isSome = true) ∧
        (injMode desc = true → filterFor s.dev (injPort desc) (be frame 0 6) x.vid = none →
          Ends (.injectDescriptor e desc frame 0) s fun t =>
          tfind (tget [] t.host.inject e) c = some { desc := padTo 16 desc, res := none } ∧
            ∃ y, frameOf t s.dev.buf.nextFrame = some y ∧ y.keyed = false ∧ y.dead = false))) ∧
    (∀ c desc frame err, c = injectNext s.dev e → descAt s.dev true e c = true → 16 ≤ desc.length → 1 ≤ err → err ≤ 2 →
      (coopAlloc s.dev (56 + e) (ceilDiv (injectLen desc) 256)).1 = 0 → Ends (.injectDescriptor e desc frame err) s fun t =>
        flag t (Reg.ring true e + Reg.rSts) 1 = true ∧ fld t (Reg.ring true e + Reg.rSts) 8 8 = err ∧
          t.buf.frames = s.dev.buf.frames ∧ OnlyParts [.cc] s.dev t) ∧
    (∀ c desc st stamp k, c = rd s.dev (Reg.ring true e + Reg.rEvc) →
      tfind (tget [] s.dev.host.inject e) c = some { desc, res := some (st, stamp) } →
      ringOn (rd s.dev (Reg.ring true e + Reg.rCfg)) = true → flag s.dev (Reg.ring true e + Reg.rSts) 1 = false →
      k = (if st = 0 ∧ bit (le desc 8 4) 15 = true then stamp else 0) → Ends (.injectComplete e) s fun t =>
        tfind (tget [] t.host.done (e + 8)) (c % 2 ^ fld s.dev (Reg.ring true e + Reg.rCfg) 0 5) =
            some { desc := desc ++ toLe 4 k ++ zeros 8 ++ toLe 4 (st + 2 ^ 31), data := [] } ∧
          tfind (tget [] t.host.inject e) c = none ∧ rd t (Reg.ring true e + Reg.rEvc) = (c + 1) % two32 ∧
          (st ≠ 0 → rd t (Reg.ring true e + Reg.rBad) = (rd s.dev (Reg.ring true e + Reg.rBad) + 1) % two32) ∧
          (∀ g, g = sub32 (rd s.dev (Reg.ring true e + Reg.rPost)) ((c + 1) % two32) →
            (g ≤ 2 ^ fld s.dev (Reg.ring true e + Reg.rCfg) 0 5 → flag t (Reg.ring true e + Reg.rSts) 1 = false) ∧
            (2 ^ fld s.dev (Reg.ring true e + Reg.rCfg) 0 5 < g →
              flag t (Reg.ring true e + Reg.rSts) 1 = true ∧ fld t (Reg.ring true e + Reg.rSts) 8 8 = 3)) ∧
          OnlyParts [.host] s.dev t ∧
          OnlyRegs [Reg.ring true e + Reg.rEvc, Reg.ring true e + Reg.rBad, Reg.ring true e + Reg.rSts] s.dev t)

/-! ## Host accesses, interrupts and power states of the function (chapter 11) -/

/-- R630, R631, R636 to R641: an aligned access with all byte enables writes a Table 11-4 register through its mask, writes interrupt
enables under the upper half of its word, masks a vector in BAR2, and reads what the device shows; any other access is a bus error that
performs no part of it and is recorded, in AER too where it is a write; a read is completed as an Unsupported Request, and one that is
answered with its data. A configuration request that sets the MSI-X enable or the function mask acts so, and one that reads a word whose
every bit is known returns it: where the words of configuration space lie is the model's choice (log entry 111). -/
def Obligations.HostAccessesActOrAreRecorded : Prop :=
  (∀ (s : State) (bar off len be v req ecc : Nat) (write : Bool) (acc : Access) (a : Nat), acc = ⟨bar, off, len, be, write, v, req, ecc⟩ →
    acc.wf = true → a = off / 4 * 4 → barUp s.dev = true → bar ≠ 3 →
    (4 < len ∨ 4 < off % 4 + len ∨ (write = true ∧ be ≠ 15) ∨ mapped bar a = false → Ends (.registerWrite acc) s fun t =>
      rd t Reg.buserrEvc = (rd s.dev Reg.buserrEvc + 1) % two32 ∧
        rd t Reg.buserrLast = off % 2 ^ 26 + 2 ^ 26 * bar + 2 ^ 28 * b2n write ∧ rd t Reg.buserrReq = req ∧
        (write = true → t.host.pcie.aerUr = true ∧
          t.host.pcie.nonfatal = s.dev.host.pcie.nonfatal + b2n s.dev.host.pcie.urReport ∧ t.host.pcie.cpl = s.dev.host.pcie.cpl) ∧
        (write = false → t.host.pcie = { s.dev.host.pcie with cpl := 1 } ∧ t.host.rdata = s.dev.host.rdata) ∧
        OnlyParts [.host] s.dev t ∧ OnlyRegs [Reg.buserrEvc, Reg.buserrLast, Reg.buserrReq] s.dev t) ∧
    (off % 4 + len ≤ 4 → mapped bar a = true →
      (∀ m, bar = 0 → write = true → be = 15 → Reg.hostMask a = some m → baseHeld s.dev a = false →
        ¬(0x1000 ≤ a ∧ a < 0x1400 ∧ (a % 0x40 = Reg.rCfg ∨ a % 0x40 = Reg.rPost)) →
        ¬(0x40_0000 ≤ a ∧ a < 0x40_1000 ∧ (a % 0x100 = Reg.mCfg ∨ a % 0x100 = Reg.mPost)) → Ends (.registerWrite acc) s fun t =>
          rd t a = v &&& m ∧ OnlyParts [] s.dev t ∧ OnlyRegs [a] s.dev t) ∧
      (∀ i < 36, bar = 0 → write = true → be = 15 → a = Reg.irqEn i → Ends (.registerWrite acc) s fun t =>
        rd t a = (rd s.dev a &&& (65535 - v / 65536)) ||| (v &&& v / 65536) ∧ OnlyParts [] s.dev t ∧ OnlyRegs [a] s.dev t) ∧
      (∀ w, bar = 0 → write = false → a < 0x262_0000 → readBar0 s.dev a = some w → Ends (.registerWrite acc) s fun t =>
        t.host.rdata = w ∧ t.host.pcie.cpl = 0 ∧ OnlyParts [.host] s.dev t ∧ OnlyRegs [] s.dev t) ∧
      (bar = 2 → write = true → be = 15 → a < 0x400 → a % 16 = 12 → bit v 0 = true → Ends (.registerWrite acc) s fun t =>
        a / 16 ∈ t.host.masked ∧ OnlyParts [.host] s.dev t ∧ OnlyRegs [] s.dev t) ∧
      (bar = 2 → write = false → Ends (.registerWrite acc) s fun t =>
        t.host.rdata = readMsix s.dev a ∧ t.host.pcie.cpl = 0 ∧ OnlyParts [.host] s.dev t ∧ OnlyRegs [] s.dev t) ∧
      (bar = 0 → write = false → 0x262_0000 ≤ a → a < 0x262_0800 → Ends (.registerWrite acc) s fun t =>
        t.host.pcie = { s.dev.host.pcie with cpl := 0 }))) ∧
  ∀ (s : State) (acc : Access), acc.bar = 3 → acc.wf = true → alive s.dev = true →
    (acc.write = true → acc.off / 4 * 4 = cfgMsix → bit acc.be 3 = true → Ends (.registerWrite acc) s fun t =>
      t.host.pcie = { s.dev.host.pcie with fnMask := bit acc.value 30, msixOn := bit acc.value 31 } ∧
        (∀ v ∈ s.dev.host.pba, canSend t v = true → v ∈ t.host.msgs ∧ v ∉ t.host.pba) ∧ OnlyParts [.host] s.dev t ∧
        OnlyRegs [] s.dev t) ∧
    (acc.write = false → (cfgWord (acc.off / 4 * 4)).free = 0 → Ends (.registerWrite acc) s fun t =>
      t.host.rdata = cfgHeld s.dev (acc.off / 4 * 4) ∧ t.host.pcie = { s.dev.host.pcie with cpl := 0 } ∧ OnlyParts [.host] s.dev t ∧
        OnlyRegs [] s.dev t)

/-- R655, R656: arming a vector whose summary is 1 sends its message at once, or sets its pending bit where it may not be sent; one
whose summary is 0 stays armed; a number from 36 to 63 is ignored. Unmasking sends a pending message. -/
def Obligations.ArmingAndUnmaskingSendMessages : Prop :=
  ∀ (s : State) (v : Nat), barUp s.dev = true → v < 64 →
    (∀ w, w < two32 → w % 64 = v →
      (v < 36 → irqSummary s.dev v = true → Ends (.irqArm w) s fun t =>
        armed t v = false ∧ (canSend s.dev v = true → v ∈ t.host.msgs) ∧ (canSend s.dev v = false → v ∈ t.host.pba) ∧
          OnlyParts [] s.dev t ∧ OnlyRegs [] s.dev t) ∧
      (v < 36 → irqSummary s.dev v = false → Ends (.irqArm w) s fun t =>
        armed t v = true ∧ v ∉ t.host.msgs ∧ OnlyParts [] s.dev t ∧ OnlyRegs [] s.dev t) ∧
      (36 ≤ v → Ends (.irqArm w) s fun t => OnlyParts [] s.dev t ∧ OnlyRegs [] s.dev t)) ∧
    (Ends (.msixUnmask v) s fun t =>
      v ∉ t.host.masked ∧ (∀ w, w ≠ v → (w ∈ t.host.masked ↔ w ∈ s.dev.host.masked)) ∧
        (v ∈ s.dev.host.pba → canSend t v = true → v ∈ t.host.msgs ∧ v ∉ t.host.pba) ∧
        (canSend t v = false → (v ∈ s.dev.host.pba → v ∈ t.host.pba)) ∧
        OnlyParts [.host] s.dev t ∧ OnlyRegs [] s.dev t)

/-- R632, R633, R703, Table 11-2: a reset of the host interface disables the rings, the interrupt enables and bus mastering, masks every
vector and clears its own acknowledges; the channels stay. Turning bus mastering on, or returning from D3hot with it on, sends what
is pending where MSI-X lets it and writes a held response. -/
def Obligations.HostInterfaceResetsAndPowerStates : Prop :=
  ∀ s : State, alive s.dev = true →
    (Ends .hostInterfaceReset s fun t =>
      (∀ inj, ∀ e < 8, flag t (Reg.ring inj e + Reg.rCfg) 5 = false) ∧ (∀ v < 36, rd t (Reg.irqEn v) = 0 ∧ armed t v = true) ∧
        rd t Reg.sysScratch = 0 ∧ rd t Reg.parAck = 0 ∧ rd t Reg.buserrAck = 0 ∧ rd t Reg.fwAck = 0 ∧ t.host.masked = List.range 64 ∧
        t.host.pba = [] ∧ t.host.msix = [] ∧ t.host.msgs = [] ∧ t.host.busMaster = false ∧ t.host.d3 = false ∧
        t.host.pcie.msixOn = false ∧ t.host.pcie.fnMask = false ∧ t.host.pcie.urReport = false ∧
        OnlyParts [.host, .buf] s.dev t ∧
        OnlyRegs ([Reg.sysScratch, Reg.parAck, Reg.buserrAck, Reg.fwAck] ++ (List.range 36).map Reg.irqEn ++
          (List.range 8).map (fun e => Reg.ring false e + Reg.rCfg) ++ (List.range 8).map (fun e => Reg.ring true e + Reg.rCfg)) s.dev t) ∧
    (Ends .busMasterDisable s fun t => t.host.busMaster = false ∧ OnlyParts [.host] s.dev t ∧ OnlyRegs [] s.dev t) ∧
    (Ends (.pciePowerStateChange true) s fun t => t.host.d3 = true ∧ OnlyParts [.host] s.dev t ∧ OnlyRegs [] s.dev t) ∧
    ((∀ ch < 16, (chanOf s.dev ch).held = []) →
      (s.dev.host.d3 = false → Ends .busMasterEnable s fun t =>
        t.host.busMaster = true ∧ (∀ v ∈ s.dev.host.pba, canSend t v = true → v ∈ t.host.msgs ∧ v ∉ t.host.pba) ∧
          (∀ ch, chanOf t ch = chanOf s.dev ch) ∧ OnlyParts [.host, .chan] s.dev t ∧ OnlyRegs [] s.dev t) ∧
      (s.dev.host.busMaster = true → Ends (.pciePowerStateChange false) s fun t =>
        t.host.d3 = false ∧ (∀ v ∈ s.dev.host.pba, canSend t v = true → v ∈ t.host.msgs ∧ v ∉ t.host.pba) ∧
          (∀ ch, chanOf t ch = chanOf s.dev ch) ∧ OnlyParts [.host, .chan] s.dev t ∧ OnlyRegs [] s.dev t)) ∧
    (∀ ch r, ch < 16 → (∀ k < 16, k ≠ ch → (chanOf s.dev k).held = []) → (chanOf s.dev ch).held = [(r, true)] → chanErr s.dev ch = false →
      s.dev.host.d3 = false → Ends .busMasterEnable s fun t =>
        t.host.busMaster = true ∧ (chanOf t ch).held = [] ∧ tfind (chanOf t ch).ring (mreg s.dev ch Reg.mRspEvc % 64) = some r ∧
          mreg t ch Reg.mRspEvc = (mreg s.dev ch Reg.mRspEvc + 1) % two32 ∧ OnlyParts [.host, .chan] s.dev t ∧
          OnlyRegs [Reg.chan ch + Reg.mRspEvc, Reg.chan ch + Reg.mErrCnt] s.dev t)

/-! ## The mailbox itself (chapter 12) -/

/-- R34, R679 to R687, R704: a doorbell sets `MBX_POST` and raises the channel's event, which a stopped core's crossing holds; a post
beyond 64 commands unacknowledged stops the channel with cause 3. The engine takes the next posted slot into the channel, or stops it
with cause 1; an unknown opcode completes with E_UNSUP. Enabling sets the counts to 0, at once or when the last command has completed;
disabling discards what is to come. When the thread that carries out a command faults, the command completes with E_TIMEOUT, the rules
that it has written stay, and the vintage moves if it changed anything: what such an end leaves is the model's choice (log entry 114), and
so is that enabling clears `ERR` (log entry 63). -/
def Obligations.ChannelsTakeAndLoseCommands : Prop :=
  (∀ (s : State) (ch v : Nat), ch < 16 → v < two32 →
      (barUp s.dev = true → chanEn s.dev ch = true → chanErr s.dev ch = false →
        (∀ r n, sub32 v (mreg s.dev ch Reg.mRspAck) ≤ 64 → r = rd s.dev (Reg.ccEvtRoute ch) → n = bits r 0 5 →
          Ends (.mbxPost ch v) s fun t =>
          mreg t ch Reg.mPost = v ∧ chanErr t ch = false ∧
            (bit r 8 = true → if (coreOf s.dev (n / 8)).stopped
              then bit (tget 0 (coreOf t (n / 8)).posts n) (24 + bits r 5 3) = true ∧ (coreOf t (n / 8)).wakeAt.isSome = true
              else flag t (Reg.thr n + Reg.tEvtPend) (24 + bits r 5 3) = true) ∧
            OnlyParts [.cc] s.dev t ∧ ((coreOf s.dev (n / 8)).stopped = false → OnlyParts [] s.dev t) ∧
            OnlyRegs ((Reg.chan ch + Reg.mPost) :: (List.range 32).map fun n => Reg.thr n + Reg.tEvtPend) s.dev t) ∧
        (64 < sub32 v (mreg s.dev ch Reg.mRspAck) → Ends (.mbxPost ch v) s fun t =>
          mreg t ch Reg.mPost = v ∧ chanErr t ch = true ∧ fld t (Reg.chan ch + Reg.mSts) 8 8 = 3 ∧ OnlyParts [.cc] s.dev t)) ∧
      (∀ g slot payload pOk rOk sl, g = sub32 (mreg s.dev ch Reg.mPost) (mreg s.dev ch Reg.mTaken) → sl = parseSlot slot payload →
        slot.length = 32 → s.dev.boot.fwRunning = true → chanEn s.dev ch = true → chanErr s.dev ch = false →
        s.dev.host.busMaster = true → s.dev.host.d3 = false → 1 ≤ g → g ≤ 64 →
        (Ends (.commandFetch ch slot payload false pOk rOk) s fun t =>
          chanErr t ch = true ∧ fld t (Reg.chan ch + Reg.mSts) 8 8 = 1 ∧ OnlyParts [] s.dev t ∧
            OnlyRegs [Reg.chan ch + Reg.mSts] s.dev t) ∧
        ((chanOf s.dev ch).inflight = [] →
          (opcodes.contains sl.opcode = true → Ends (.commandFetch ch slot payload true pOk rOk) s fun t =>
            mreg t ch Reg.mTaken = (mreg s.dev ch Reg.mTaken + 1) % two32 ∧
              (∃ x, (chanOf t ch).inflight = [x] ∧ x.opcode = sl.opcode ∧ x.flags = sl.flags ∧ x.len = sl.len ∧ x.tag = sl.tag ∧
                x.expVint = sl.expVint ∧ x.rspLen = sl.rspLen ∧ x.payload = (if pOk then sl.payload else zeros sl.len) ∧
                x.payloadAddr = le slot 16 8 ∧ x.rspAddr = le slot 24 8 ∧ x.payloadOk = pOk ∧ x.rspOk = rOk) ∧
              OnlyParts [.chan, .cc] s.dev t) ∧
          (opcodes.contains sl.opcode = false → (chanOf s.dev ch).discard = 0 → (chanOf s.dev ch).held = [] →
            Ends (.commandFetch ch slot payload true pOk true) s fun t =>
              Answered s.dev t ch sl eUnsup 0xFFFF [] ∧ mreg t ch Reg.mTaken = (mreg s.dev ch Reg.mTaken + 1) % two32 ∧
                OnlyParts [.chan, .cc] s.dev t))) ∧
      (barUp s.dev = true →
        (bit v 0 = true → flag s.dev (Reg.chan ch + Reg.mCfg) 0 = false →
          ((chanOf s.dev ch).inflight = [] → Ends (.mbxEnable ch v) s fun t =>
            chanEn t ch = true ∧ chanErr t ch = false ∧ (∀ o ∈ [Reg.mPost, Reg.mTaken, Reg.mRspEvc, Reg.mRspAck], mreg t ch o = 0) ∧
              OnlyParts [.chan] s.dev t ∧
              OnlyRegs ([Reg.mCfg, Reg.mPost, Reg.mTaken, Reg.mRspEvc, Reg.mRspAck, Reg.mSts].map fun o => Reg.chan ch + o) s.dev t) ∧
          ((chanOf s.dev ch).inflight ≠ [] → Ends (.mbxEnable ch v) s fun t =>
            chanEn t ch = false ∧ (chanOf t ch).enPending = true ∧ (chanOf t ch).inflight = (chanOf s.dev ch).inflight ∧
              OnlyParts [.chan] s.dev t ∧ OnlyRegs [Reg.chan ch + Reg.mCfg] s.dev t)) ∧
        (bit v 0 = false → flag s.dev (Reg.chan ch + Reg.mCfg) 0 = true → Ends (.mbxEnable ch v) s fun t =>
          chanEn t ch = false ∧ (chanOf t ch).discard = (chanOf s.dev ch).inflight.length ∧ (chanOf t ch).held = [] ∧
            OnlyParts [.chan] s.dev t ∧ OnlyRegs [Reg.chan ch + Reg.mCfg] s.dev t))) ∧
  (∀ (s : State) (ch : Nat) (sl : Slot), ch < 16 → Served s.dev ch sl →
      (Ends (.commandThreadFault ch false) s fun t =>
        Answered s.dev t ch sl eTimeout 0xFFFF [] ∧
          t.host.vintage = (if rulesWritten s.dev ch sl = 0 then s.dev.host.vintage else nextVintage s.dev.host.vintage) ∧
          (holdsLock s.dev ch = false → t.host.cfg = s.dev.host.cfg) ∧ (holdsLock s.dev ch = true → t.fwd.ruleJob = none) ∧
          (∀ k, ruleTab t k = ruleTab s.dev k) ∧
          OnlyParts [.chan, .cc, .fwd, .tel, .host] s.dev t ∧ OnlyRegsBeside ch [] s.dev t) ∧
      (sl.len = 0 → Accepted s.dev ch sl 0x001 0 → Ends (.commandThreadFault ch true) s fun t =>
        Answered s.dev t ch sl eTimeout 0xFFFF [] ∧ t.host.vintage = s.dev.host.vintage ∧ t.host.cfg = s.dev.host.cfg ∧
          OnlyParts [.chan, .cc] s.dev t ∧ OnlyRegsBeside ch [] s.dev t))

/-! ## Threads (chapter 10) -/

/-- R572, R575 to R579, R583: `TRET` restores the frame at sp; `TWAIT` ends at once when a masked event is pending and waits
otherwise; a waiting thread goes on when an event or its timer target comes; `TYIELD` lets a READY thread run; `TPOST` posts bits to
a thread, or to the crossing of a stopped core, whose wake it requests (R34). That they advance the pc by 4 is the model's choice (log
entry 42). A thread whose sample is due may take its trap at the end of the instruction instead (R622): `Executes` leaves that out. -/
def Obligations.ThreadingInstructionsAct : Prop :=
  ∀ (s : State) (n c : Nat), n < 32 → c = coreNum n →
    (Executes s.dev n →
      (∀ (sp : Nat) (w : Nat → Nat), sp = xr s.dev n 2 → (∀ i, w i = le (spmRead s.dev c (sp + 4 * i) 4) 0 4) → (thrOf s.dev n).depth ≠ 0 →
        frameOk s.dev n sp sp = true → Ends (.tret n none 0) s fun t =>
          (thrOf t n).pc = BitVec.ofNat 32 (w 0) ∧ (thrOf t n).depth = bits (w 3) 0 2 ∧ (thrOf t n).ie = bit (w 3) 2 ∧
            xr t n 1 = w 4 ∧ xr t n 5 = w 5 ∧ xr t n 10 = w 6 ∧ xr t n 11 = w 7 ∧ xr t n 2 = sp + 32 ∧
            (thrOf t n).state = .running ∧ coreOf t c = coreOf s.dev c ∧ OnlyCore c [] s.dev t ∧ OnlyParts [.cc] s.dev t ∧
            rd t (Reg.perf n 1) = (rd s.dev (Reg.perf n 1) + 1) % two32 ∧ OnlyRegs [Reg.perf n 1] s.dev t) ∧
      (∀ r s1 s2 b, r < 32 → s1 < 32 → s2 < 32 → b = treg s.dev n Reg.tEvtPend &&& xr s.dev n s2 →
        (b ≠ 0 → Ends (.twait n r s1 s2) s fun t =>
          (r ≠ 0 → xr t n r = b) ∧ treg t n Reg.tEvtPend = treg s.dev n Reg.tEvtPend - b ∧ treg t n Reg.tEvtMask = xr s.dev n s2 ∧
            (thrOf t n).pc = (thrOf s.dev n).pc + 4 ∧ (thrOf t n).state = .running ∧ OnlyCore c [] s.dev t ∧
            OnlyParts [.cc] s.dev t) ∧
        (b = 0 → s1 = 0 → Ends (.twait n r s1 s2) s fun t =>
          (thrOf t n).state = .waiting ∧ (thrOf t n).timed = false ∧ (thrOf t n).pc = (thrOf s.dev n).pc ∧
            treg t n Reg.tEvtMask = xr s.dev n s2 ∧ OnlyCore c [] s.dev t ∧ OnlyParts [.cc] s.dev t) ∧
        (b = 0 → s1 ≠ 0 → diff32 (ccCycle s.dev) (xr s.dev n s1) < 0 → Ends (.twait n r s1 s2) s fun t =>
          (thrOf t n).state = .waiting ∧ (thrOf t n).timed = true ∧ (thrOf t n).pc = (thrOf s.dev n).pc ∧
            treg t n Reg.tEvtMask = xr s.dev n s2 ∧ treg t n Reg.tTcmp = xr s.dev n s1 ∧ OnlyCore c [] s.dev t ∧ OnlyParts [.cc] s.dev t) ∧
        (b = 0 → s1 ≠ 0 → 0 ≤ diff32 (ccCycle s.dev) (xr s.dev n s1) → Ends (.twait n r s1 s2) s fun t =>
          (thrOf t n).state = .running ∧ (r ≠ 0 → xr t n r = 0) ∧ (thrOf t n).pc = (thrOf s.dev n).pc + 4 ∧
            treg t n Reg.tTcmp = xr s.dev n s1 ∧ OnlyCore c [] s.dev t ∧ OnlyParts [.cc] s.dev t)) ∧
      ((∀ h < 8, isState s.dev (8 * c + h) .ready = false) → Ends (.tyield n) s fun t =>
        (thrOf t n).pc = (thrOf s.dev n).pc + 4 ∧ (thrOf t n).state = .running ∧ (∀ m, m ≠ n → thrOf t m = thrOf s.dev m) ∧
          OnlyCore c [] s.dev t ∧ OnlyParts [.cc] s.dev t ∧ OnlyRegs [Reg.perf n 1] s.dev t) ∧
      (∀ h, h < 8 → isState s.dev (8 * c + h) .ready = true → Ends (.tyield n) s fun t =>
        (thrOf t n).pc = (thrOf s.dev n).pc + 4 ∧ (thrOf t n).state = .ready ∧ OnlyCore c [] s.dev t ∧ OnlyParts [.cc] s.dev t) ∧
      (∀ r1 r2, r1 < two32 → r2 < two32 → (isGuest n = true → flag s.dev (Reg.rgnPost (n - 28)) (r1 % 32) = true) →
        ((coreOf s.dev (r1 % 32 / 8)).stopped = false → Ends (.tpost n r1 r2) s fun t =>
          treg t (r1 % 32) Reg.tEvtPend = treg s.dev (r1 % 32) Reg.tEvtPend ||| r2 ∧ (thrOf t n).pc = (thrOf s.dev n).pc + 4 ∧
            (∀ m, m ≠ n → thrOf t m = thrOf s.dev m) ∧ OnlyParts [.cc] s.dev t ∧
            OnlyRegs [Reg.thr (r1 % 32) + Reg.tEvtPend, Reg.perf n 1] s.dev t) ∧
        ((coreOf s.dev (r1 % 32 / 8)).stopped = true → Ends (.tpost n r1 r2) s fun t =>
          tget 0 (coreOf t (r1 % 32 / 8)).posts (r1 % 32) = tget 0 (coreOf s.dev (r1 % 32 / 8)).posts (r1 % 32) ||| r2 ∧
            (coreOf t (r1 % 32 / 8)).wakeAt.isSome = true ∧ (thrOf t n).pc = (thrOf s.dev n).pc + 4 ∧
            (∀ m, m ≠ n → thrOf t m = thrOf s.dev m) ∧ OnlyParts [.cc] s.dev t ∧ OnlyRegs [Reg.perf n 1] s.dev t))) ∧
    ((thrOf s.dev n).state = .waiting → (thrOf s.dev n).sampleDue = false →
      (pendMasked s.dev n ≠ 0 → Ends (.twaitWake n) s fun t =>
        Going t n ∧ ((thrOf s.dev n).rd ≠ 0 → xr t n (thrOf s.dev n).rd = pendMasked s.dev n) ∧ pendMasked t n = 0 ∧
          (thrOf t n).pc = (thrOf s.dev n).pc + 4 ∧ OnlyCore c [] s.dev t ∧ OnlyParts [.cc] s.dev t) ∧
      (pendMasked s.dev n = 0 → (thrOf s.dev n).timed = true → Ends (.twaitWake n) s fun t =>
        Going t n ∧ ((thrOf s.dev n).rd ≠ 0 → xr t n (thrOf s.dev n).rd = 0) ∧ (thrOf t n).pc = (thrOf s.dev n).pc + 4 ∧
          s.dev.now ≤ t.now ∧ OnlyParts [.now, .time, .cc] s.dev t))

/-- R567, R580 to R587, R590, R594, R597, R621 to R623, Tables 10-5 to 10-7: a trap pushes the frame and continues at `TVEC`, so does an
access to an address that Table 10-1 does not map; at depth 3 the
thread is FAULTED with its pc, cause and sp kept; a sample is counted down, and taken by the same frame, after six further instructions
at the latest; a guest that runs 100,000 cycles is FAULTED. The nest limit's going before the other conditions (log entry 40) and the order
of what stops an access (log entry 113) are the model's choices. -/
def Obligations.TrapsPushFramesOrFault : Prop :=
  ∀ (s : State) (n c sp : Nat), n < 32 → c = coreNum n → sp = xr s.dev n 2 →
    (isState s.dev n .running = true →
      (∀ code tval, code ≤ 8 → tval < two32 → (thrOf s.dev n).depth < 3 → 32 ≤ sp → frameOk s.dev n sp (sp - 32) = true →
        treg s.dev n Reg.tTvec ≠ 0 → Ends (.trap n code tval none) s fun t =>
          (thrOf t n).pc = BitVec.ofNat 32 (treg s.dev n Reg.tTvec) ∧ (thrOf t n).depth = (thrOf s.dev n).depth + 1 ∧
            (thrOf t n).ie = false ∧ xr t n 2 = sp - 32 ∧ xr t n 10 = code ∧ xr t n 11 = codeTval code tval ∧
            spmRead t c (sp - 32) 32 = ([(thrOf s.dev n).pc.toNat, code, codeTval code tval,
              (thrOf s.dev n).depth + 4 * b2n (thrOf s.dev n).ie, xr s.dev n 1, xr s.dev n 5, xr s.dev n 10, xr s.dev n 11] : List Nat).flatMap (toLe 4) ∧
            (thrOf t n).state = .running ∧ OnlyCore c [] s.dev t ∧ OnlyParts [.cc] s.dev t) ∧
      (∀ code tval, code ≤ 8 → tval < two32 → n ≠ 0 → (thrOf s.dev n).depth = 3 → Ends (.trap n code tval none) s fun t =>
        (thrOf t n).state = .faulted ∧ treg t n Reg.tFltPc = (thrOf s.dev n).pc.toNat ∧ treg t n Reg.tFltCause = 20 + 256 * code ∧
          treg t n Reg.tFltSp = sp ∧ rd t Reg.ccFaultEvc = (rd s.dev Reg.ccFaultEvc + 1) % two32 ∧
          ((coreOf s.dev 0).stopped = false → flag t (Reg.thr 0 + Reg.tEvtPend) 31 = true)) ∧
      (∀ x code tval, code < 32 → tval < two32 → x.wf = true → guestMay s.dev n x.addr x.size (accRgn x.kind) = true → x.addr % x.size = 0 →
        thrTarget c x.addr = none → (thrOf s.dev n).depth < 3 → 32 ≤ sp → frameOk s.dev n sp (sp - 32) = true →
        treg s.dev n Reg.tTvec ≠ 0 → (x.kind = .fetch → x.addr % 2 = 0) → Ends (.trap n code tval none (some x)) s fun t =>
          (thrOf t n).pc = BitVec.ofNat 32 (treg s.dev n Reg.tTvec) ∧ xr t n 10 = accDenied x.kind ∧ xr t n 11 = x.addr ∧
            OnlyCore c [] s.dev t ∧ OnlyParts [.cc] s.dev t) ∧
      (∀ addr, isGuest n = true → addr < two32 → Ends (.trap n 16 addr none) s fun t =>
        (thrOf t n).state = .faulted ∧ treg t n Reg.tFltCause = 16 ∧ rd t (Reg.rgnDenied (n - 28)) = addr) ∧
      (∀ skid, (thrOf s.dev n).ie = true → (thrOf s.dev n).depth < 3 → 32 ≤ sp → frameOk s.dev n sp (sp - 32) = true →
        treg s.dev n Reg.tTvec ≠ 0 →
        ((thrOf s.dev n).sampleHeld = true → Ends (.sampleTrap n skid none) s fun t =>
          (thrOf t n).pc = BitVec.ofNat 32 (treg s.dev n Reg.tTvec) ∧ xr t n 10 = 32 + 2 ^ 30 + 2 ^ 31 ∧ xr t n 11 = 7 ∧
            xr t n 2 = sp - 32 ∧ (thrOf t n).ie = false ∧ OnlyCore c [] s.dev t ∧ OnlyParts [.cc] s.dev t) ∧
        ((thrOf s.dev n).sampleHeld = false → (thrOf s.dev n).sampleDue = true → skid ≤ 6 → (thrOf s.dev n).skid ≤ 6 →
          Ends (.sampleTrap n skid none) s fun t =>
          (thrOf t n).pc = BitVec.ofNat 32 (treg s.dev n Reg.tTvec) ∧ xr t n 10 = 32 + 2 ^ 31 ∧ xr t n 11 = max skid (thrOf s.dev n).skid ∧
            xr t n 2 = sp - 32 ∧ (thrOf t n).ie = false ∧ OnlyCore c [] s.dev t ∧ OnlyParts [.cc] s.dev t) ∧
        (∀ k, (thrOf s.dev n).sampleDue = true → 6 ≤ (thrOf s.dev n).skid + k → Ends (.sampleCountdown n k 1) s fun t =>
          (thrOf t n).pc = BitVec.ofNat 32 (treg s.dev n Reg.tTvec) ∧ xr t n 10 = 32 + 2 ^ 31 ∧ xr t n 11 = 6 ∧
            xr t n 2 = sp - 32 ∧ (thrOf t n).ie = false ∧ OnlyCore c [] s.dev t ∧ OnlyParts [.cc] s.dev t)) ∧
      (∀ cycles, isGuest n = true → 100000 ≤ cycles → Ends (.guestRunLimit n cycles) s fun t =>
        (thrOf t n).state = .faulted ∧ treg t n Reg.tFltCause = 21 ∧ (thrOf s.dev n).runAt + 100000 * 1000 ≤ t.now)) ∧
    (∀ k g p left e, g = treg s.dev n Reg.tSampleCfg → bit g 4 = true → e = bits g 0 4 → p = bits g 8 24 → p ≠ 0 → 1 ≤ k →
      left = (if (thrOf s.dev n).sampleLeft = 0 then p else (thrOf s.dev n).sampleLeft) → e ∈ [1, 3, 4] →
      (e = 1 → (thrOf s.dev n).sampleDue = false ∧ k < left + 6) → Ends (.sampleCountdown n k e) s fun t =>
        rd t (Reg.perf n e) = (rd s.dev (Reg.perf n e) + k) % two32 ∧
          (k < left → (thrOf t n).sampleLeft = left - k ∧ (thrOf t n).sampleDue = (thrOf s.dev n).sampleDue) ∧
          (left ≤ k → (thrOf t n).sampleLeft = p - (k - left) % p ∧
            ((thrOf s.dev n).ie = true → (thrOf t n).sampleDue = true ∧ (e = 1 → (thrOf t n).skid = k - left)) ∧
              ((thrOf s.dev n).ie = false → (thrOf t n).sampleHeld = true)) ∧
          (∀ m, m ≠ n → thrOf t m = thrOf s.dev m) ∧ OnlyParts [.cc] s.dev t ∧ OnlyRegs [Reg.perf n e] s.dev t)

/-- R570, R571, R573, R588, Table 10-3: a long access stalls a thread and its end makes it READY, or OFF if a stop waits; the
cellarmaster starts, stops and restarts threads, those of a stopped core once it has woken (R34); the same store by another thread
is its store access fault, or a guest's fault where no region permits it (R594). -/
def Obligations.ThreadsStallStartAndStop : Prop :=
  ∀ (s : State) (n c : Nat), n < 32 → c = coreNum n →
    (isState s.dev n .running = true →
      (Ends (.longStall n) s fun t =>
        (thrOf t n).state = .stalled ∧ (thrOf t n).pc = (thrOf s.dev n).pc ∧ OnlyCore c [] s.dev t ∧ OnlyParts [.cc] s.dev t) ∧
      (∀ o v b, (thrOf s.dev n).sampleDue = false → (coreOf s.dev c).retained = false → o + 4 ≤ spmSize → o % 4 = 0 → v < two32 →
        guestMay s.dev n (0x1000_0000 + 0x40_0000 * c + o) 4 1 = true →
        Ends (.longStall n (some ⟨.store, 0x1000_0000 + 0x40_0000 * c + o, 4, 0, false, v, false, 0⟩)) s fun t =>
          (thrOf t n).state = .stalled ∧ (thrOf t n).pc = (thrOf s.dev n).pc + 4 ∧
            leVal (spmRead t c o 4) = v ∧
            (b < o ∨ o + 4 ≤ b → tget 0 (coreOf t c).spm b = tget 0 (coreOf s.dev c).spm b) ∧ OnlyCore c [] s.dev t)) ∧
    (isState s.dev n .stalled = true →
      ((thrOf s.dev n).stopping = false → Ends (.stallEnd n) s fun t =>
        Going t n ∧ (thrOf t n).pc = (thrOf s.dev n).pc ∧ OnlyCore c [] s.dev t ∧ OnlyParts [.cc] s.dev t) ∧
      ((thrOf s.dev n).stopping = true → Ends (.stallEnd n) s fun t =>
        (thrOf t n).state = .off ∧ OnlyCore c [] s.dev t ∧ OnlyParts [.cc] s.dev t)) ∧
    (Executes s.dev 0 → (coreOf s.dev c).stopped = false →
      (isState s.dev n .off = true → Ends (.thrCmdStart 0 n) s fun t =>
        Going t n ∧ (thrOf t n).pc = BitVec.ofNat 32 (treg s.dev n Reg.tRestartVec) ∧ xr t n 2 = treg s.dev n Reg.tStkHi ∧
          (thrOf t n).depth = 0 ∧ (thrOf t n).ie = true ∧ Issued s.dev t 0 ∧ OnlyCores [0, c] [] s.dev t ∧ OnlyParts [.cc] s.dev t) ∧
      (n ≠ 0 → isState s.dev n .off = false → isState s.dev n .stalled = false → Ends (.thrCmdStop 0 n) s fun t =>
        (thrOf t n).state = .off ∧ Issued s.dev t 0 ∧ OnlyCores [0, c] [] s.dev t ∧ OnlyParts [.cc] s.dev t) ∧
      (n = 0 ∨ isState s.dev n .stalled = true → Ends (.thrCmdStop 0 n) s fun t =>
        (thrOf t n).state = .stalled ∧ (thrOf t n).stopping = true ∧ Issued s.dev t 0 ∧ OnlyCores [0, c] [] s.dev t ∧
          OnlyParts [.cc] s.dev t) ∧
      (isState s.dev n .faulted = true → Ends (.thrCmdRestart 0 n) s fun t =>
        Going t n ∧ (thrOf t n).pc = BitVec.ofNat 32 (treg s.dev n Reg.tRestartVec) ∧ xr t n 2 = treg s.dev n Reg.tStkHi ∧
          (thrOf t n).restarts = min 255 ((thrOf s.dev n).restarts + 1) ∧ Issued s.dev t 0 ∧ OnlyCores [0, c] [] s.dev t ∧
          OnlyParts [.cc] s.dev t)) ∧
    (∀ i x, (i, x) ∈ [(Instr.thrCmdStart 0 n, ThrCmd.start), (Instr.thrCmdStop 0 n, ThrCmd.stop), (Instr.thrCmdRestart 0 n, ThrCmd.restart)] →
      Executes s.dev 0 → (coreOf s.dev c).stopped = true → Ends i s fun t =>
        (coreOf t c).cmds = (coreOf s.dev c).cmds ++ [(n, x)] ∧ (coreOf t c).wakeAt.isSome = true ∧
          Issued s.dev t 0 ∧ (coreNum n ≠ 0 → thrOf t n = thrOf s.dev n) ∧ OnlyCores [0, c] [] s.dev t ∧ OnlyParts [.cc] s.dev t) ∧
    (∀ w i a, i ∈ [Instr.thrCmdStart w n, Instr.thrCmdStop w n, Instr.thrCmdRestart w n] → w < 32 → w ≠ 0 →
      isState s.dev w .running = true → a = 0x4000_0000 + thrCmdAddr n →
      (guestMay s.dev w a 4 1 = true → (thrOf s.dev w).depth < 3 → 32 ≤ xr s.dev w 2 →
        frameOk s.dev w (xr s.dev w 2) (xr s.dev w 2 - 32) = true → treg s.dev w Reg.tTvec ≠ 0 → Ends i s fun t =>
          (thrOf t w).pc = BitVec.ofNat 32 (treg s.dev w Reg.tTvec) ∧ xr t w 10 = 7 ∧ xr t w 11 = a ∧
            (∀ m, m ≠ w → thrOf t m = thrOf s.dev m) ∧ OnlyParts [.cc] s.dev t) ∧
      (guestMay s.dev w a 4 1 = false → Ends i s fun t =>
        (thrOf t w).state = .faulted ∧ treg t w Reg.tFltCause = 16 ∧ rd t (Reg.rgnDenied (w - 28)) = a))

/-- R589 to R592, Table 10-8: thread 0's write of `CM_WDOG` restarts the watchdog, another thread's changes nothing; 1 s without one
faults thread 0, which hardware restarts; the cellarmaster restarts a firmware thread that faults, and leaves it FAULTED at the fourth
fault within 10 s. From when the 1 s runs, and that a hardware restart begins it anew, is the model's choice (log entry 44). -/
def Obligations.FaultedThreadsAreRestarted : Prop :=
  ∀ s : State,
    (Executes s.dev 0 → Ends (.cmWdog 0) s fun t =>
      t.cc.wdogAt = s.dev.now ∧ Issued s.dev t 0 ∧ OnlyCore 0 [] s.dev t ∧ OnlyParts [.cc] s.dev t) ∧
    (∀ w, 1 ≤ w → w < 28 → Executes s.dev w → Ends (.cmWdog w) s fun t =>
      t.cc.wdogAt = s.dev.cc.wdogAt ∧ Issued s.dev t w ∧ OnlyCore (coreNum w) [] s.dev t ∧ OnlyParts [.cc] s.dev t) ∧
    (s.dev.boot.fwRunning = true → isState s.dev 0 .faulted = false → isState s.dev 0 .off = false → (thrOf s.dev 0).restartAt = none →
      Ends .cellarmasterWatchdog s fun t =>
        s.dev.cc.wdogAt + ps_s ≤ t.now ∧ Going t 0 ∧ (thrOf t 0).pc = BitVec.ofNat 32 (treg s.dev 0 Reg.tRestartVec) ∧
          treg t 0 Reg.tFltCause = 22 ∧ rd t Reg.cmRestartCnt = (rd s.dev Reg.cmRestartCnt + 1) % two32 ∧ t.cc.wdogAt = t.now ∧
          OnlyParts [.now, .time, .cc, .tel] s.dev t) ∧
    (∀ n, 1 ≤ n → n < 28 → cmAlive s.dev = true → isState s.dev n .faulted = true → (thrOf s.dev n).left = false →
      (recentFaults s.dev n < 4 → (coreOf s.dev (coreNum n)).stopped = false → Ends (.firmwareThreadRestart n) s fun t =>
        Going t n ∧ (thrOf t n).pc = BitVec.ofNat 32 (treg s.dev n Reg.tRestartVec) ∧
          (thrOf t n).restarts = min 255 ((thrOf s.dev n).restarts + 1) ∧ OnlyParts [.cc, .tel, .host] s.dev t) ∧
      (4 ≤ recentFaults s.dev n → Ends (.firmwareThreadRestart n) s fun t =>
        (thrOf t n).state = .faulted ∧ (thrOf t n).left = true ∧ (∀ m, m ≠ n → thrOf t m = thrOf s.dev m) ∧
          OnlyParts [.cc, .tel, .host] s.dev t))

/-! ## Scratchpads, core clocks, the cooper and guests (chapter 10) -/

/-- R593, R594, R606, R607: a load through the bit-set window returns the word and sets its bit 0, a store ORs its data in; through the
bit-clear window a load clears the word and a store clears the bits of its data, and a load of less than a word is an access fault; a
direct load and store (carried by the row `TRAP`, log
entry 113) read and write the bytes. A guest's access that no region permits faults it. A
store that crosses a word boundary completes too, with the bytes it stores left free (the model's choice, log entry 92). -/
def Obligations.WindowsChangeScratchpadWords : Prop :=
  ∀ (s : State) (n c a size r x old : Nat), n < 32 → c = coreNum n → a < 524288 → r < 32 → x < two32 → (size = 1 ∨ size = 2 ∨ size = 4) →
    old = le (spmRead s.dev c a size) 0 size → Executes s.dev n →
    (guestMay s.dev n (0x20_0000 + a) size 0 = true → size = 4 → a % 4 = 0 → Ends (.spmBitsetAccess n a size true r x none) s fun t =>
      le (spmRead t c a size) 0 size = old ||| 1 ∧ (r ≠ 0 → xr t n r = old) ∧ OnlyCore c [] s.dev t ∧ OnlyParts [.cc] s.dev t) ∧
    (guestMay s.dev n (0x20_0000 + a) size 1 = true → a % 4 + size ≤ 4 → Ends (.spmBitsetAccess n a size false r x none) s fun t =>
      le (spmRead t c a size) 0 size = old ||| x % 256 ^ size ∧ (∀ i, xr t n i = xr s.dev n i) ∧
        (∀ b, b < a ∨ a + size ≤ b → tget 0 (coreOf t c).spm b = tget 0 (coreOf s.dev c).spm b) ∧
        OnlyCore c [] s.dev t ∧ OnlyParts [.cc] s.dev t) ∧
    (guestMay s.dev n (0x30_0000 + a) size 0 = true → size = 4 → a % 4 = 0 → Ends (.spmBitclearAccess n a size true r x none) s fun t =>
      le (spmRead t c a size) 0 size = 0 ∧ (r ≠ 0 → xr t n r = old) ∧ OnlyCore c [] s.dev t ∧ OnlyParts [.cc] s.dev t) ∧
    (guestMay s.dev n (0x30_0000 + a) size 1 = true → a % 4 + size ≤ 4 → Ends (.spmBitclearAccess n a size false r x none) s fun t =>
      le (spmRead t c a size) 0 size = old - (old &&& x % 256 ^ size) ∧ (∀ i, xr t n i = xr s.dev n i) ∧
        (∀ b, b < a ∨ a + size ≤ b → tget 0 (coreOf t c).spm b = tget 0 (coreOf s.dev c).spm b) ∧
        OnlyCore c [] s.dev t ∧ OnlyParts [.cc] s.dev t) ∧
    (∀ i w, (i, w) ∈ [(Instr.spmBitsetAccess n a size false r x none, 0x20_0000), (Instr.spmBitclearAccess n a size false r x none, 0x30_0000)] →
      4 < a % 4 + size → a + size ≤ 524288 → guestMay s.dev n (w + a) size 1 = true → Ends i s fun t =>
        (∀ j, xr t n j = xr s.dev n j) ∧ (∀ b, b < a ∨ a + size ≤ b → tget 0 (coreOf t c).spm b = tget 0 (coreOf s.dev c).spm b) ∧
          OnlyCore c [] s.dev t ∧ OnlyParts [.cc] s.dev t) ∧
    (∀ i w, (i, w) ∈ [(Instr.spmBitsetAccess n a size true r x none, 0x20_0000), (Instr.spmBitclearAccess n a size true r x none, 0x30_0000)] →
      size ≠ 4 → guestMay s.dev n (w + a) size 0 = true → (thrOf s.dev n).depth < 3 → 32 ≤ xr s.dev n 2 →
      frameOk s.dev n (xr s.dev n 2) (xr s.dev n 2 - 32) = true → treg s.dev n Reg.tTvec ≠ 0 → Ends i s fun t =>
        (thrOf t n).pc = BitVec.ofNat 32 (treg s.dev n Reg.tTvec) ∧ xr t n 10 = 5 ∧ xr t n 11 = w + a ∧ OnlyCore c [] s.dev t ∧
          OnlyParts [.cc] s.dev t) ∧
    (∀ code tval, code < 32 → tval < two32 → a % size = 0 → x < 256 ^ size →
      (guestMay s.dev n a size 1 = true → Ends (.trap n code tval none (some ⟨.store, a, size, r, false, x, false, 0⟩)) s fun t =>
        le (spmRead t c a size) 0 size = x ∧ (thrOf t n).state = .running ∧ (thrOf t n).pc = (thrOf s.dev n).pc + 4 ∧
          (∀ b, b < a ∨ a + size ≤ b → tget 0 (coreOf t c).spm b = tget 0 (coreOf s.dev c).spm b) ∧
          OnlyCore c [] s.dev t ∧ OnlyParts [.cc] s.dev t) ∧
      (guestMay s.dev n a size 0 = true → Ends (.trap n code tval none (some ⟨.load, a, size, r, false, x, false, 0⟩)) s fun t =>
        (r ≠ 0 → xr t n r = old) ∧ (thrOf t n).state = .running ∧ (thrOf t n).pc = (thrOf s.dev n).pc + 4 ∧
          (coreOf t c).spm = (coreOf s.dev c).spm ∧ OnlyCore c [] s.dev t ∧ OnlyParts [.cc] s.dev t)) ∧
    (guestMay s.dev n (0x20_0000 + a) size 1 = false → Ends (.spmBitsetAccess n a size false r x none) s fun t =>
      (thrOf t n).state = .faulted ∧ treg t n Reg.tFltCause = 16 ∧ rd t (Reg.rgnDenied (n - 28)) = 0x20_0000 + a)

/-- R34, R35, R39, R42, R574, R608 to R612, R625: the test comes round the 8,192 regions of a scratchpad and reports a failing word; a
core with nothing to run for 256 cycles stops unless an event waits, its scratchpad retains after 100 µs, and a wake starts what was
stopped, delivers what was held and is counted; a cellar controller likewise. A user page shows a counter where permitted, else 0,
counted. The model's choices: an `ISLAND_WAKE` that no request preceded is its own request, and what waited is delivered as the wake ends
(log entry 45); a user page read wakes its core only where the counter may be read (58). -/
def Obligations.CoresSleepWakeAndTest : Prop :=
  ∀ (s : State) (c : Nat), c < 4 → alive s.dev = true →
    ((coreOf s.dev c).retained = false →
      (Ends (.spmBackgroundTest c none) s fun t =>
        (coreOf t c).region = ((coreOf s.dev c).region + 1) % 8192 ∧ (coreOf s.dev c).testAt + ps_ms ≤ t.now ∧
          (coreOf t c).testAt = t.now ∧ OnlyParts [.now, .time, .cc] s.dev t) ∧
      (∀ i, i < 16 → (coreOf s.dev c).region < 8192 → Ends (.spmBackgroundTest c (some i)) s fun t =>
        (coreOf t c).region = ((coreOf s.dev c).region + 1) % 8192 ∧
          rd t (Reg.core c + Reg.spmTestLast) = 64 * (coreOf s.dev c).region + 4 * i ∧
          rd t (Reg.core c + Reg.spmTestEvc) = (rd s.dev (Reg.core c + Reg.spmTestEvc) + 1) % two32)) ∧
    ((coreOf s.dev c).stopped = false → coreBusy s.dev c = false → flag s.dev (Reg.core c + Reg.corePwr) 0 = true →
      ((∀ h < 8, isState s.dev (8 * c + h) .waiting = true →
          pendMasked s.dev (8 * c + h) = 0 ∧ (thrOf s.dev (8 * c + h)).timed = false) → Ends (.coreClockStop c) s fun t =>
        (coreOf t c).stopped = true ∧ (coreOf s.dev c).idleAt + 256 * 1000 ≤ t.now ∧ (coreOf t c).stoppedAt = t.now ∧
          (∀ n, (thrOf t n).state = (thrOf s.dev n).state) ∧ OnlyParts [.now, .time, .cc] s.dev t) ∧
      (∀ h < 8, isState s.dev (8 * c + h) .waiting = true → pendMasked s.dev (8 * c + h) ≠ 0 → Ends (.coreClockStop c) s fun t =>
        t.cc = s.dev.cc ∧ OnlyParts [.now, .time] s.dev t)) ∧
    ((coreOf s.dev c).stopped = true →
      ((coreOf s.dev c).retained = false → (coreOf s.dev c).wakeAt = none → flag s.dev (Reg.core c + Reg.corePwr) 1 = true →
        Ends (.spmRetentionEntry c) s fun t =>
        (coreOf t c).retained = true ∧ max (coreOf s.dev c).stoppedAt (coreOf s.dev c).portBAt + 100 * ps_us ≤ t.now ∧
          (coreOf t c).spm = (coreOf s.dev c).spm ∧ OnlyParts [.now, .time, .cc] s.dev t) ∧
      ((coreOf s.dev c).posts = [] → (coreOf s.dev c).cmds = [] → Ends (.islandWake c) s fun t =>
        (coreOf t c).stopped = false ∧ (coreOf t c).retained = false ∧ (coreOf t c).spm = (coreOf s.dev c).spm ∧
          rd t (Reg.core c + Reg.coreWakeCnt) = (rd s.dev (Reg.core c + Reg.coreWakeCnt) + 1) % two32 ∧
          OnlyParts [.now, .time, .cc] s.dev t) ∧
      (∀ n b, coreNum n = c → b < two32 → (coreOf s.dev c).posts = [(n, b)] → (coreOf s.dev c).cmds = [] → Ends (.islandWake c) s fun t =>
        (coreOf t c).stopped = false ∧ treg t n Reg.tEvtPend = treg s.dev n Reg.tEvtPend ||| b ∧ (coreOf t c).posts = []) ∧
      (∀ n, coreNum n = c → (coreOf s.dev c).posts = [] → (coreOf s.dev c).cmds = [(n, .start)] → isState s.dev n .off = true →
        Ends (.islandWake c) s fun t =>
          (coreOf t c).stopped = false ∧ Going t n ∧ (thrOf t n).pc = BitVec.ofNat 32 (treg s.dev n Reg.tRestartVec) ∧
            (coreOf t c).cmds = [])) ∧
    (c ∉ s.dev.buf.failed → c ∉ s.dev.buf.running → tget [] s.dev.buf.rackQ c = [] → Ends (.islandWake (4 + c)) s fun t =>
      c ∈ t.buf.running ∧ rd t Reg.cellarWakeCnt = (rd s.dev Reg.cellarWakeCnt + 1) % two32 ∧ t.buf.copies = s.dev.buf.copies ∧
        OnlyParts [.now, .time, .buf] s.dev t) ∧
    (∀ n e, n < 32 → e < 16 → barUp s.dev = true →
      (flag s.dev Reg.perfUserPerm n = true →
        ((coreOf s.dev (coreNum n)).stopped = false → Ends (.perfUserPageRead n e) s fun t =>
          t.host.rdata = readPerf s.dev n e ∧ OnlyCore (coreNum n) [] s.dev t ∧ OnlyParts [.cc, .host] s.dev t) ∧
        ((coreOf s.dev (coreNum n)).stopped = true → Ends (.perfUserPageRead n e) s fun t =>
          (coreOf t (coreNum n)).stopped = false ∧ t.host.rdata = rd t (Reg.perf n e))) ∧
      (flag s.dev Reg.perfUserPerm n = false → Ends (.perfUserPageRead n e) s fun t =>
        t.host.rdata = 0 ∧ rd t Reg.perfDenied = (rd s.dev Reg.perfDenied + 1) % two32 ∧ OnlyParts [.host] s.dev t ∧
          OnlyRegs [Reg.perfDenied] s.dev t))

/-- R614 to R619: a request of n × 256 bytes gets the lowest free buffer of its pool within the requester's quota, else an error word
that is counted; a thread's request beyond the port is its load access fault; of two requests in one cycle the lower requester is served
first; a request that its pool has no buffer for is counted and answered with E_POOL; a free gives the buffer back, or is counted with its
requester and offset. -/
def Obligations.CooperLendsBuffers : Prop :=
  ∀ (s : State) (req : Nat), req < 64 → (32 ≤ req ∧ alive s.dev = true ∨ req < 32 ∧ Executes s.dev req) →
    (∀ n, 28 ≤ req → req < 32 → guestMay s.dev req (0x2100_0000 + 4 * n) 4 0 = false → Ends (.cooperAlloc [(req, n)] []) s fun t =>
      (thrOf t req).state = .faulted ∧ treg t req Reg.tFltCause = 16 ∧ t.cc.held = s.dev.cc.held) ∧
    (∀ n, 1 ≤ n → n ≤ 64 → (req < 32 → guestMay s.dev req (0x2100_0000 + 4 * n) 4 0 = true) →
      (∀ o, coopUse s.dev req + poolSize (coopPool n) ≤ fld s.dev (Reg.coopQuota req) 0 15 * 1024 →
        firstFree (coopPool n) 0 ((s.dev.cc.held.filter fun e => decide (e.2.pool = coopPool n)).map (·.1)) = some o →
        ∀ r < 32, Ends (.cooperAlloc [(req, n)] [] [(req, r)]) s fun t =>
          t.cc.answer = o ∧ tfind t.cc.held o = some { req, pool := coopPool n } ∧
            (req < 32 → Issued s.dev t req ∧ (r ≠ 0 → xr t req r = o)) ∧
            (∀ b, b ≠ o → tfind t.cc.held b = tfind s.dev.cc.held b) ∧ OnlyParts [.cc] s.dev t) ∧
      (fld s.dev (Reg.coopQuota req) 0 15 * 1024 < coopUse s.dev req + poolSize (coopPool n) → Ends (.cooperAlloc [(req, n)] []) s fun t =>
        t.cc.answer = 2 ^ 31 + eQuota ∧ rd t Reg.coopQuotaFail = (rd s.dev Reg.coopQuotaFail + 1) % two32 ∧
          t.cc.held = s.dev.cc.held ∧ OnlyParts [.cc] s.dev t) ∧
      (coopUse s.dev req + poolSize (coopPool n) ≤ fld s.dev (Reg.coopQuota req) 0 15 * 1024 →
        firstFree (coopPool n) 0 ((s.dev.cc.held.filter fun e => decide (e.2.pool = coopPool n)).map (·.1)) = none →
        Ends (.cooperAlloc [(req, n)] []) s fun t =>
          t.cc.answer = 2 ^ 31 + ePool ∧
            rd t (Reg.coopPoolFail (coopPool n)) = (rd s.dev (Reg.coopPoolFail (coopPool n)) + 1) % two32 ∧
            t.cc.held = s.dev.cc.held ∧ OnlyParts [.cc] s.dev t)) ∧
    (∀ n, req < 32 → 128 ≤ n → n < 2 ^ 26 → guestMay s.dev req (0x2100_0000 + 4 * n) 4 0 = true → (thrOf s.dev req).depth < 3 →
      32 ≤ xr s.dev req 2 → frameOk s.dev req (xr s.dev req 2) (xr s.dev req 2 - 32) = true → treg s.dev req Reg.tTvec ≠ 0 →
      Ends (.cooperAlloc [(req, n)] []) s fun t =>
        (thrOf t req).pc = BitVec.ofNat 32 (treg s.dev req Reg.tTvec) ∧ xr t req 10 = 5 ∧ xr t req 11 = 0x2100_0000 + 4 * n ∧
          t.cc.held = s.dev.cc.held ∧ OnlyParts [.cc] s.dev t) ∧
    (∀ n, n = 0 ∨ 64 < n → (req < 32 → n < 128) → (req < 32 → guestMay s.dev req (0x2100_0000 + 4 * n) 4 0 = true) →
      Ends (.cooperAlloc [(req, n)] []) s fun t =>
      t.cc.answer = 2 ^ 31 + eArg ∧ t.cc.held = s.dev.cc.held ∧ OnlyParts [.cc] s.dev t) ∧
    (∀ m o b, m < 64 → req < m → alive s.dev = true → 32 ≤ req → s.dev.cc.held = [] → 64 ≤ fld s.dev (Reg.coopQuota req) 0 15 →
      64 ≤ fld s.dev (Reg.coopQuota m) 0 15 → o = poolBase (coopPool b) → 1 ≤ b → b ≤ 64 →
      Ends (.cooperAlloc [(m, b), (req, b)] []) s fun t =>
        tfind t.cc.answers req = some o ∧ tfind t.cc.answers m = some (o + poolSize (coopPool b))) ∧
    ((req < 32 → guestMay s.dev req 0x2100_1000 4 1 = true) → ∀ o b, tfind s.dev.cc.held o = some b → Ends (.cooperFree req o) s fun t =>
      tfind t.cc.held o = none ∧ (∀ k, k ≠ o → tfind t.cc.held k = tfind s.dev.cc.held k) ∧ OnlyParts [.cc] s.dev t) ∧
    ((req < 32 → guestMay s.dev req 0x2100_1000 4 1 = true) → ∀ o, tfind s.dev.cc.held o = none → Ends (.cooperFree req o) s fun t =>
      t.cc.held = s.dev.cc.held ∧ rd t Reg.coopBadFree = (rd s.dev Reg.coopBadFree + 1) % two32 ∧
        rd t Reg.coopBadFreeLast = o % 2 ^ 24 + req * 2 ^ 24 ∧ OnlyParts [.cc] s.dev t)

/-- R598 to R600, R710, Table 12-16: `GUEST_LOAD` writes an image into a free slot and answers the slot's CRC; `GUEST_START` sets the
slot's vectors, stack and regions and starts its thread; `GUEST_STOP` turns it OFF. -/
def Obligations.GuestSlotsLoadStartAndStop : Prop :=
  ∀ (s : State) (ch : Nat) (sl : Slot) (l : List Byte) (g : Nat), ch < 15 → Served s.dev ch sl → l = sl.payload → g = le l 0 1 → g ≤ 3 →
    (∀ off, off = le l 2 2 → Accepted s.dev ch sl 0x901 0 → 4 ≤ sl.len → le l 1 1 = 0 → off % 4 = 0 →
      off + (l.drop 4).length ≤ slotSize → slotFree s.dev g = true → (coreOf s.dev 3).retained = false → Ends (.guestLoad ch) s fun t =>
        AnsweredOk s.dev t ch sl (toLe 4 (slotCrc t g)) ∧ spmRead t 3 (slotBase g + off) (l.drop 4).length = l.drop 4 ∧
          (∀ b, b < slotBase g + off ∨ slotBase g + off + (l.drop 4).length ≤ b →
            tget 0 (coreOf t 3).spm b = tget 0 (coreOf s.dev 3).spm b) ∧
          t.host.vintage = nextVintage s.dev.host.vintage ∧ OnlyParts [.chan, .cc, .host] s.dev t ∧ OnlyRegsBeside ch [] s.dev t) ∧
    (Accepted s.dev ch sl 0x902 0 → sl.len = 88 →
      (stopBit sl = false → guestPayloadOk l = true → badRgn l = none → guestVecOk g l = true → slotFree s.dev g = true →
        (coreOf s.dev 3).stopped = false → Ends (.guestStart ch) s fun t =>
          AnsweredOk s.dev t ch sl [] ∧ Going t (28 + g) ∧ (thrOf t (28 + g)).pc = BitVec.ofNat 32 (le l 4 4) ∧
            xr t (28 + g) 2 = le l 16 4 ∧ treg t (28 + g) Reg.tTvec = le l 8 4 ∧ treg t (28 + g) Reg.tStkLo = le l 12 4 ∧
            rd t (Reg.rgnPost g) = le l 20 4 ∧ t.host.vintage = s.dev.host.vintage ∧ OnlyParts [.chan, .cc] s.dev t) ∧
      (stopBit sl = true → isState s.dev (28 + g) .off = false → isState s.dev (28 + g) .stalled = false →
        (coreOf s.dev 3).stopped = false → Ends (.guestStop ch) s fun t =>
        AnsweredOk s.dev t ch sl [] ∧ (thrOf t (28 + g)).state = .off ∧ t.host.vintage = s.dev.host.vintage ∧
          OnlyParts [.chan, .cc] s.dev t))

/-! ## The cellar (chapter 05) -/

/-- R34, R37, R38, R276 to R279, R282 to R284, R296, R297, Table 05-5: a full rack of a spilled VOQ goes to the lowest free rack of the
next stack that has one, or waits there for a stopped controller to wake, or counts in `CELLAR_FULL`; a head that runs low asks for its
oldest rack; the rack that comes back gives its frames to the head, or drops and counts a frame that met an error, and an emptied
segment ends the spill; a stack with no racks and none on the way stops. -/
def Obligations.CellarRacksGoAndComeBack : Prop :=
  ∀ (s : State) (t v : Nat), t < 16 → v < 4096 →
    (∀ d sg, d = layOut s.dev t v → sg = segOf d t v → rackReady s.dev t v = true →
      inTurn s.dev t v (tget 0 s.dev.buf.rackVoq t) (rackReady s.dev t) = true →
      tileInTurn s.dev t s.dev.buf.rackTile (rackReady s.dev) = true →
      (∀ st k h r c, nextStack d t = some st → k = lowestRack (racksUsed d st) (racksUsed d st).length 0 →
        h = !d.buf.running.contains st → r ∈ sg.recs → r.start + r.len ≤ sg.written + 4096 → copyOf d r.copy = some c →
        c.tile = t → c.voq = v → c.loc = .staging → Ends (.rackWrite t v []) s fun e =>
          (segOf e t v).written = sg.written + 4096 ∧
            (∀ firsts, firsts = sg.recs.filter (fun x => decide (x.start / 4096 = sg.written / 4096)) →
              (segOf e t v).racks = sg.racks ++ [{
                stack := st, rack := k, seq := sg.written / 4096
                firstRec := firsts.head?.map (·.start % 4096), recCount := firsts.length, held := h }]) ∧
            tget [] e.buf.usedRacks st = tget [] d.buf.usedRacks st ++ [k] ∧ tget 0 e.buf.rackTurn t = (st + 1) % 4 ∧
            e.buf.rackTile = t ∧
            (h = true → (tfind e.buf.stackWake st).isSome = true ∧
              tget [] e.buf.rackQ st = tget [] d.buf.rackQ st ++ [(segKey t v, sg.written / 4096)])) ∧
      (nextStack d t = none → Ends (.rackWrite t v []) s fun e =>
        rd e Reg.cellarFullCnt = (rd s.dev Reg.cellarFullCnt + 1) % two32 ∧ (segOf e t v).racks = sg.racks ∧
          (segOf e t v).written = sg.written)) ∧
    (∀ r, spilled s.dev t v = true → wantsRack s.dev t v = true →
      inTurn s.dev t v (tget 0 s.dev.buf.refillVoq t) (wantsRack s.dev t) = true →
      tileInTurn s.dev t s.dev.buf.refillTile (wantsRack s.dev) = true → nextRack s.dev t v = some r → Ends (.refillRequest t v) s fun e =>
        (segOf e t v).racks = ((segOf s.dev t v).racks.map fun x => if x.seq = r.seq then { x with asked := true } else x) ∧
          (r.stack ∈ e.buf.running ∨ (tfind e.buf.stackWake r.stack).isSome = true) ∧ tget 0 e.buf.refillVoq t = v ∧
          e.buf.refillTile = t ∧ e.buf.copies = s.dev.buf.copies ∧ OnlyParts [.buf] s.dev e ∧ OnlyRegs [] s.dev e) ∧
    (∀ r rk c bad, spilled s.dev t v = true → (segOf s.dev t v).recs = [r] → (segOf s.dev t v).racks = [rk] → rk.asked = true →
      rk.back = false → rk.held = false → r.start + r.len ≤ 4096 * (rk.seq + 1) → risingFrom 0 s.dev.buf.copies = true →
        copyOf s.dev r.copy = some c →
      c.tile = t → c.voq = v → c.loc = .cellar →
      (∀ e ∈ s.dev.buf.copies, e.2.tile = t ∧ e.2.voq = v ∧ e.2.loc = .cellar → e.1 = r.copy) →
      voqDepth s.dev t v + c.cells ≤ rd s.dev (Reg.tile t + Reg.spillCfg (v % 8)) % 65536 →
      (∀ x, frameOf s.dev c.frame = some x → lossless s.dev x.inPort c.cls = false) →
      (bad.contains c.frame = false → fcsGood (copyBytes s.dev c) = true → Ends (.refillDone t v bad) s fun e =>
        (∃ l, copyOf e r.copy = some { c with loc := .voq, ct := false, since := s.dev.trl.slot, chain := l }) ∧ spilled e t v = false ∧
          rk.rack ∉ tget [] e.buf.usedRacks rk.stack ∧ e.buf.frames = s.dev.buf.frames ∧ OnlyParts [.buf] s.dev e ∧
          OnlyRegs [] s.dev e) ∧
      (bad.contains c.frame = true → Ends (.refillDone t v bad) s fun e =>
        copyOf e r.copy = none ∧ spilled e t v = false ∧ rk.rack ∉ tget [] e.buf.usedRacks rk.stack ∧
          rd e (Reg.tile t + Reg.dropCellarInteg) = (rd s.dev (Reg.tile t + Reg.dropCellarInteg) + 1) % two32)) ∧
    (∀ st, st < 4 →
      (racksUsed s.dev st = [] → tget [] s.dev.buf.rackQ st = [] → Ends (.cellarStop st) s fun e =>
        e.buf.running = s.dev.buf.running.filter (· ≠ st) ∧ e.buf.copies = s.dev.buf.copies ∧ OnlyParts [.buf] s.dev e ∧
          OnlyRegs [] s.dev e) ∧
      (racksUsed s.dev st ≠ [] ∨ tget [] s.dev.buf.rackQ st ≠ [] → Ends (.cellarStop st) s fun e => OnlyParts [] s.dev e ∧
        OnlyRegs [] s.dev e))

/-! ## Guards and output stages (chapter 09) -/

/-- R485 to R492, Table 09-2: a guard that can decide gives a TC7 frame of a known stream its word, a frame of a known address and VID on
another port a word that sends it nowhere, and notes an unknown one; with a claim it sends the frame's copies at once, to the ports
that the other guard's word has not sent it to. The model's choices (log entry 56): that the word of the second case names no egress, and
that a copy crosses on the first word that names its port. -/
def Obligations.GuardsDecideFrames : Prop :=
  ∀ (s : State) (g f : Nat) (x : Frame) (c : SafeCfg), g < 2 → frameOf s.dev f = some x → x.cls = 7 → x.keyed = false → x.dead = false →
    x.tailIn = true → guardDecides s.dev g = true → guardDecides s.dev (1 - g) = true → decided s.dev g f = false →
    decided s.dev (1 - g) f = false → c = guardCfg s.dev g x.arrivalExt →
    (∀ n st, c.streams.find? (fun e => decide (e.2.inPort = x.inPort ∧ e.2.da = be x.bytes 0 6 ∧ e.2.vid = x.vid)) = some (n, st) →
      x.len ≤ st.maxLen → windowOf x.arrivalExt st.baseExt st.cycle st.opn st.cls st.tol = 0 → 1 ≤ st.budget → st.rtag = false →
      tfind (guardOf s.dev g).windows n = none → Ends (.guardDecide g f) s fun t =>
        tfind (guardOf t g).words f = some (decWord s.dev g n st x true) ∧ tfind (guardOf t g).wordAt f = some s.dev.now ∧
          guardOf t (1 - g) = guardOf s.dev (1 - g) ∧
          rd t (Reg.guard g + Reg.gFrames) = (rd s.dev (Reg.guard g + Reg.gFrames) + 1) % two32 ∧
          (∀ p, p < 512 → claim s.dev g ≠ 0 → st.egress = [some p] → portDead s.dev p = false → x.sentTo = [] →
            ∃ k, copyOf t s.dev.buf.nextCopy = some k ∧ k.frame = f ∧ k.port = p ∧ k.cls = 7 ∧ k.part = .tc7 ∧ k.cells = cellsOf x.len) ∧
          (∀ p, claim s.dev g ≠ 0 → st.egress = [some p] → x.sentTo = [p] → t.buf.copies = s.dev.buf.copies) ∧
          (claim s.dev g = 0 → t.buf.copies = s.dev.buf.copies)) ∧
    (∀ n st, c.streams.find? (fun e => decide (e.2.inPort = x.inPort ∧ e.2.da = be x.bytes 0 6 ∧ e.2.vid = x.vid)) = none →
      c.streams.find? (fun e => decide (e.2.da = be x.bytes 0 6 ∧ e.2.vid = x.vid)) = some (n, st) → Ends (.guardDecide g f) s fun t =>
        tfind (guardOf t g).words f = some { decWord s.dev g n st x false with egress := [] } ∧ t.buf.copies = s.dev.buf.copies ∧
          rd t (Reg.guard g + Reg.gMasq) = (rd s.dev (Reg.guard g + Reg.gMasq) + 1) % two32 ∧
          OnlyRegs [Reg.guard g + Reg.gFrames, Reg.guard g + Reg.gMasq, Reg.bbLost] s.dev t) ∧
    (c.streams.find? (fun e => decide (e.2.da = be x.bytes 0 6 ∧ e.2.vid = x.vid)) = none → Ends (.guardDecide g f) s fun t =>
      f ∈ (guardOf t g).unknown ∧ t.buf.copies = s.dev.buf.copies ∧ (∀ k, frameOf t k = frameOf s.dev k) ∧
        rd t (Reg.guard g + Reg.gUnknown) = (rd s.dev (Reg.guard g + Reg.gUnknown) + 1) % two32 ∧ OnlyParts [.safe, .buf] s.dev t ∧
        OnlyRegs [Reg.guard g + Reg.gFrames, Reg.guard g + Reg.gUnknown] s.dev t)

/-- R493 to R497, R504, Table 09-3: an output stage accepts a frame on two equal words, or on the one whose guard has a claim, whichever
that is; it drops and counts one that it sent last of its stream, and drops and counts a frame on unlike words, on a word that is
missing 100 ns after the frame and the other word or that has come later than that, in safe state, and on a tie, which forces both
claims. -/
def Obligations.OutputStagesArbitrate : Prop :=
  ∀ (s : State) (id a b o : Nat) (c : Copy) (x : Frame), atStage s.dev id = some (c, x) → a = claim s.dev 0 → b = claim s.dev 1 →
    c.port < 512 → o = Reg.outStage (tileOf c.port) →
    (∀ w, wordInTime s.dev 0 c = some w → wordInTime s.dev 1 c = some w → a ≠ 0 → b ≠ 0 → a ≠ b →
      w.ports.contains c.port = true → w.forward = true → w.queue = 7 → w.digest = frameDigest w.stream x →
      sentLast s.dev c.port w.stream x = false → Ends (.outputStageAccept id) s fun t =>
        copyOf t id = some { c with accepted := some (w, w) } ∧ (∀ k, k ≠ id → copyOf t k = copyOf s.dev k) ∧
          t.buf.frames = s.dev.buf.frames ∧ OnlyParts [.buf] s.dev t ∧ OnlyRegs [] s.dev t) ∧
    (∀ g w, g < 2 → claim s.dev g ≠ 0 → claim s.dev (1 - g) = 0 → wordInTime s.dev g c = some w → w.ports.contains c.port = true →
      w.forward = true → w.queue = 7 → w.digest = frameDigest w.stream x →
      (sentLast s.dev c.port w.stream x = false → Ends (.outputStageAccept id) s fun t =>
        copyOf t id = some { c with accepted := some (w, w) } ∧ OnlyParts [.buf] s.dev t ∧ OnlyRegs [] s.dev t) ∧
      (sentLast s.dev c.port w.stream x = true → Ends (.outputStageAccept id) s fun t =>
        copyOf t id = none ∧ rd t (o + Reg.osDupDrop) = (rd s.dev (o + Reg.osDupDrop) + 1) % two32)) ∧
    (∀ v w g, g < 2 → wordAt s.dev g c.frame c.port = some v → wordAt s.dev (1 - g) c.frame c.port = some w → a ≠ 0 → b ≠ 0 → a ≠ b →
      max c.landedAt (tget 0 (guardOf s.dev (1 - g)).wordAt c.frame) + 100000 < tget 0 (guardOf s.dev g).wordAt c.frame →
      Ends (.outputStageAccept id) s fun t =>
        copyOf t id = none ∧ rd t (o + Reg.osDecMissing) = (rd s.dev (o + Reg.osDecMissing) + 1) % two32 ∧ claim t 0 = a ∧ claim t 1 = b) ∧
    (∀ v w, wordInTime s.dev 0 c = some v → wordInTime s.dev 1 c = some w → v ≠ w → a ≠ 0 → b ≠ 0 → a ≠ b →
      Ends (.outputStageAccept id) s fun t =>
        copyOf t id = none ∧ rd t (o + Reg.osMismatch) = (rd s.dev (o + Reg.osMismatch) + 1) % two32 ∧ claim t 0 = a ∧ claim t 1 = b) ∧
    (a = 0 → b = 0 → Ends (.outputStageAccept id) s fun t =>
      copyOf t id = none ∧ rd t (o + Reg.osSafestateDrop) = (rd s.dev (o + Reg.osSafestateDrop) + 1) % two32) ∧
    (a = b → a ≠ 0 → Ends (.outputStageAccept id) s fun t =>
      copyOf t id = none ∧ rd t (o + Reg.osTieDrop) = (rd s.dev (o + Reg.osTieDrop) + 1) % two32 ∧ claim t 0 = 0 ∧ claim t 1 = 0 ∧
        flag t (Reg.guardSts 0) 7 = true ∧ flag t (Reg.guardSts 1) 7 = true) ∧
    (∀ g w, g < 2 → wordAt s.dev g c.frame c.port = none → wordAt s.dev (1 - g) c.frame c.port = some w → claim s.dev g ≠ 0 →
      claim s.dev (1 - g) ≠ 0 → a ≠ b → Ends (.decisionMissing id g) s fun t =>
        copyOf t id = none ∧ rd t (o + Reg.osDecMissing) = (rd s.dev (o + Reg.osDecMissing) + 1) % two32 ∧
          max c.landedAt (tget 0 (guardOf s.dev (1 - g)).wordAt c.frame) + 100000 ≤ t.now ∧ claim t 0 = a ∧ claim t 1 = b)

/-! ## Trellis and egress (chapters 06, 07) -/

/-- R310 to R316, R337, R340: a slot counts, leaves the matches of four slots to come, and sends for each grant of its own match what
waits: a TC7 copy of at most one bunch that is alone in the device crosses whole in the bunch of its pair. A bunch that lands gives its
cells to its copies, a corrected error in one of them is counted, in a piece whose copy is gone too (R245, R313), and a TC7 piece that
the pool of its tile has no room for is dropped with its frame and counted (R256); a parity error on the sideband discards it and is
counted. -/
def Obligations.SlotsSendBunchesThatLand : Prop :=
  ∀ s : State,
    (∀ errs, alive s.dev = true → s.dev.trl.matching.length ≤ 5 → InPlace s.dev → Ends (.trellisSlot errs) s fun t =>
      t.trl.slot = s.dev.trl.slot + 1 ∧ rd t Reg.trSlots = (rd s.dev Reg.trSlots + 1) % two32 ∧ t.trl.matching.length = 4) ∧
    (∀ id c x g b, alive s.dev = true → s.dev.trl.matching.head? = some [g] → s.dev.trl.matching.length ≤ 5 →
      s.dev.buf.copies = [(id, c)] → c.port < 512 → c.cls = 7 → c.part = .tc7 →
      c.loc = .voq → c.sent = 0 → c.lifeline = false → portDead s.dev c.port = false → frameOf s.dev c.frame = some x → x.tailIn = true →
      x.fcsOk = true → g.src < 128 → g.src / 8 = c.tile → g.dst / 8 = tileOf c.port → 1 ≤ c.cells →
      fitCells 32 0 c.cells (heldLen s.dev c) 0 0 0 = (c.cells, c.cells, b) → Ends (.trellisSlot []) s fun t =>
        t.trl.flight = s.dev.trl.flight ++ [{ src := g.src, dst := g.dst, pieces :=
            [{ copy := id, frame := c.frame, mirror := c.mirror.isSome, first := 0, cells := c.cells, bytes := b }] }] ∧
          copyOf t id = some { c with sent := c.cells, loc := .crossing, chain := c.chain.drop c.cells }) ∧
    (∀ u k, u < 16 → s.dev.trl.flight.find? (fun q => decide (q.dst / 8 = u)) = some k →
      (∀ q c errs, k.pieces = [q] → copyOf s.dev q.copy = some c → (c.part = .tc7 → tc7Use s.dev u + q.cells ≤ 2048) →
        (∀ e ∈ errs, e.copy ≠ q.copy) → Ends (.bunchLand u false errs) s fun t =>
          (∃ l, copyOf t q.copy = some { c with
            landed := c.landed + q.cells, land := c.land ++ l, landedAt := s.dev.now
            loc := if c.loc = .crossing ∧ c.landed + q.cells = c.cells then .landed else c.loc }) ∧
            t.trl.flight = s.dev.trl.flight.erase k ∧ rd t (Reg.trDstBunch u) = (rd s.dev (Reg.trDstBunch u) + 1) % two32 ∧
            t.buf.frames = s.dev.buf.frames ∧ OnlyParts [.trl, .buf] s.dev t ∧ OnlyRegs [Reg.trDstBunch u] s.dev t) ∧
      (∀ q e, k.pieces = [q] → (∀ c, copyOf s.dev q.copy = some c → c.part = .tc7 → tc7Use s.dev u + q.cells ≤ 2048) → e.copy = q.copy →
        q.first ≤ e.cell → e.cell < q.first + q.cells → e.link = false → e.bad = false → Ends (.bunchLand u false [e]) s fun t =>
          rd t (Reg.tile u + Reg.cellEccCorr) = (rd s.dev (Reg.tile u + Reg.cellEccCorr) + 1) % two32 ∧
            t.buf.frames = s.dev.buf.frames ∧ OnlyRegs [Reg.trDstBunch u, Reg.tile u + Reg.cellEccCorr] s.dev t) ∧
      (∀ q c errs, k.pieces = [q] → copyOf s.dev q.copy = some c → c.part = .tc7 → 2048 < tc7Use s.dev u + q.cells →
        Ends (.bunchLand u false errs) s fun t =>
          copyOf t q.copy = none ∧ rd t (Reg.tile u + Reg.dropTc7Pool) = (rd s.dev (Reg.tile u + Reg.dropTc7Pool) + 1) % two32 ∧
            t.trl.flight = s.dev.trl.flight.erase k) ∧
      (∀ errs, InPlace s.dev → Ends (.bunchLand u true errs) s fun t =>
        t.trl.flight = s.dev.trl.flight.erase k ∧ rd t Reg.trHdrErr = (rd s.dev Reg.trHdrErr + 1) % two32 ∧
          rd t Reg.trHdrEvc = (rd s.dev Reg.trHdrEvc + 1) % two32 ∧
          ∀ q ∈ k.pieces, ∀ c, copyOf t q.copy = some c → c.corked = true))

/-- R69, R341 to R343, R345 to R349, R352, R357, R538, R834, R836: a copy that can start joins the queue of its class; at a boundary of a
port the lowest telegram leaves first, then a TC7 frame, then control frames, then TC6, on the MAC that it is for, then of the classes of
TC0 to TC5 that may send the one with the smallest finish tag, the higher class of equal ones, on the preemptable MAC where MAC merge is
active; a TC7 frame that waits preempts a preemptable frame that can be cut; a frame that ends leaves with its bytes and counts, a PAUSE
frame as such alone; a preempted frame goes on where its rest fits before its gate closes. -/
def Obligations.BoundariesSendWhatComesFirst : Prop :=
  ∀ (s : State) (p : Nat), p < 512 →
    (∀ id c, copyOf s.dev id = some c → c.port = p → canJoin s.dev c = true → firstLeft s.dev id c = true → portDead s.dev p = false →
      (egrOf s.dev p).preempt = none → Ends (.egressQueueJoin id) s fun t =>
        queueOf t p c.cls = queueOf s.dev p c.cls ++ [id] ∧ copyOf t id = some { c with loc := .queued } ∧
          (∀ k, k ≠ c.cls → queueOf t p k = queueOf s.dev p k) ∧ (∀ q, q ≠ p → egrOf t q = egrOf s.dev q) ∧
          OnlyParts [.buf, .egr] s.dev t ∧ OnlyRegs [] s.dev t) ∧
    (∀ e, e = egrOf s.dev p → portDead s.dev p = false → e.express = none → e.preempt = none → NoGateDue s.dev p →
      (∀ errs j tl, j ∈ e.tele → (∀ k ∈ e.tele, j ≤ k) → teleSent s.dev j = some tl → Ends (.frameBoundary p false errs) s fun t =>
        (egrOf t p).out = tl.bytes.take tl.len ++ fcsOf (tl.bytes.take tl.len) ∧ (egrOf t p).lead = wireLead false 0 0 ∧
          (egrOf t p).tele = e.tele.filter (· ≠ j) ∧
          tfind t.safe.teleAt j = some s.dev.now ∧
          rd t (Reg.outStage (tileOf p) + Reg.osTelegrams) = (rd s.dev (Reg.outStage (tileOf p) + Reg.osTelegrams) + 1) % two32) ∧
      (∀ id cp x r, e.tele = [] → queueOf s.dev p 7 = id :: r → copyOf s.dev id = some cp → cp.cls = 7 → cp.mirror = none →
        frameOf s.dev cp.frame = some x → headDiscard s.dev p id cp x = none → x.parse.ptpOff = none → x.inject = none →
        Ends (.frameBoundary p false []) s fun t =>
          (egrOf t p).express = some id ∧ (egrOf t p).ctl = e.ctl ∧ queueOf t p 7 = r ∧ (∀ k < 7, queueOf t p k = queueOf s.dev p k) ∧
            (∃ k, copyOf t id = some k ∧ k.loc = .sending ∧ k.bytes = some (txBytes s.dev x cp) ∧ k.frame = cp.frame) ∧
            rd t (Reg.outStage (tileOf p) + Reg.osFwd) = (rd s.dev (Reg.outStage (tileOf p) + Reg.osFwd) + 1) % two32) ∧
      (e.tele = [] → queueOf s.dev p 7 = [] →
        (∀ errs, e.ctl = [.respond] → Ends (.frameBoundary p false errs) s fun t =>
          (egrOf t p).ctl = [] ∧ (egrOf t p).express = none ∧ (∀ k, queueOf t p k = queueOf s.dev p k) ∧ OnlyParts [.egr] s.dev t ∧
            OnlyRegs [] s.dev t) ∧
        (∀ errs k q, e.ctl = [.pfc k q] → portCounts s.dev p = true → Ends (.frameBoundary p false errs) s fun t =>
          (egrOf t p).ctl = [] ∧ (egrOf t p).express = none ∧ (∀ k, queueOf t p k = queueOf s.dev p k) ∧
            (∃ sa, (egrOf t p).out = pfcFrame sa k q) ∧
            rd t (Reg.port p + Reg.txPfc) = (rd s.dev (Reg.port p + Reg.txPfc) + 1) % two32)) ∧
      (∀ b c id cp x r, e.tele = [] → e.ctl = [] → queueOf s.dev p 7 = [] →
        (c = 6 ∧ preemptable s.dev p 6 = b ∨
          c < 6 ∧ b = mmActive s.dev p ∧ eligible s.dev p 6 = false ∧
            (∀ k < 6, ∀ h, tfind e.head k = some h → (queueOf s.dev p k).head? = some h) ∧
            ∀ k < 6, k ≠ c → eligible s.dev p k = true →
              if c < k then signed 48 (tget 0 e.fin c + 2 ^ 48 - tget 0 e.fin k) < 0
              else ¬signed 48 (tget 0 e.fin k + 2 ^ 48 - tget 0 e.fin c) < 0) → queueOf s.dev p c = id :: r →
        eligible s.dev p c = true → copyOf s.dev id = some cp → cp.cls = c → cp.mirror = none →
        frameOf s.dev cp.frame = some x → headDiscard s.dev p id cp x = none → x.parse.ptpOff = none → x.inject = none →
        s.dev.tel.mirrors = [] → Ends (.frameBoundary p b []) s fun t =>
          (if b then (egrOf t p).preempt else (egrOf t p).express) = some id ∧ queueOf t p c = r ∧
            (∀ k, k ≠ c → queueOf t p k = queueOf s.dev p k) ∧
            (∃ k, copyOf t id = some k ∧ k.loc = .sending ∧ k.bytes = some (txBytes s.dev x cp) ∧ k.frame = cp.frame) ∧
            (c < 6 → tfind e.head c = some id → vtime t p = tget 0 e.fin c % 2 ^ 48))) ∧
    (∀ e i c0 id cp x r, e = egrOf s.dev p → portDead s.dev p = false → e.express = none → e.preempt = some i → NoGateDue s.dev p →
      e.tele = [] → mmActive s.dev p = true → copyOf s.dev i = some c0 → c0.loc = .sending → i ≠ id →
      64 + minFrag s.dev p + c0.fragBytes ≤ (copyBytes s.dev c0).length → queueOf s.dev p 7 = id :: r → copyOf s.dev id = some cp →
      cp.cls = 7 → cp.mirror = none → frameOf s.dev cp.frame = some x → headDiscard s.dev p id cp x = none → x.parse.ptpOff = none →
      x.inject = none → portCounts s.dev p = true → Ends (.frameBoundary p false []) s fun t =>
        (egrOf t p).express = some id ∧ (egrOf t p).preempt = some i ∧ queueOf t p 7 = r ∧
          (∃ k, copyOf t i = some k ∧ k.loc = .preempted ∧ k.frags = c0.frags + 1 ∧
            c0.fragBytes + minFrag s.dev p ≤ k.fragBytes + 4 ∧ k.fragBytes + 64 ≤ (copyBytes s.dev c0).length) ∧
          rd t (Reg.port p + Reg.txMmPreempt) = (rd s.dev (Reg.port p + Reg.txMmPreempt) + 1) % two32) ∧
    (∀ e id c, e = egrOf s.dev p → e.express = some id → portDead s.dev p = false → NoGateDue s.dev p → e.tele = [] → e.ctl = [] →
      (∀ k < 8, queueOf s.dev p k = []) → (∀ k ∈ s.dev.buf.copies, k.2.lifeline = false) → copyOf s.dev id = some c → c.port = p →
      c.loc = .sending → c.corked = false → c.holes = [] → canEnd s.dev c = true → portCounts s.dev p = true →
      Ends (.frameBoundary p false []) s fun t =>
        (egrOf t p).out = (copyBytes s.dev c).drop c.fragBytes ∧ (egrOf t p).lead = wireLead false 0 0 ∧ (egrOf t p).express = none ∧
          copyOf t id = none ∧
          (macControl (copyBytes s.dev c) = 0 →
            rd t (Reg.port p + Reg.txFramesOk) = (rd s.dev (Reg.port p + Reg.txFramesOk) + 1) % two32) ∧
          (macControl (copyBytes s.dev c) = 1 → rd t (Reg.port p + Reg.txPause) = (rd s.dev (Reg.port p + Reg.txPause) + 1) % two32 ∧
            rd t (Reg.port p + Reg.txFramesOk) = rd s.dev (Reg.port p + Reg.txFramesOk))) ∧
    (∀ e id c, e = egrOf s.dev p → e.express = none → e.preempt = some id → portDead s.dev p = false → NoGateDue s.dev p →
      expressWaits s.dev p = false → copyOf s.dev id = some c → c.loc = .preempted → restFits s.dev p c = true →
      (mmActive s.dev p && flag s.dev (stsAddr p) 8) = false → Ends (.frameBoundary p true []) s fun t =>
        copyOf t id = some { c with loc := .sending } ∧ flag t (stsAddr p) 12 = false ∧ (egrOf t p).preempt = some id ∧
          (∀ q, q ≠ p → egrOf t q = egrOf s.dev q) ∧ OnlyParts [.buf, .egr] s.dev t)

/-! ## Parity and audits (chapters 05, 11) -/

/-- R646 to R653: a configuration register whose parity is wrong is counted once and recorded in its island's queue; the oldest record
of an island arrives in `SYS_PAR_HIST` and `SYS_PAR_LAST`; firmware rewrites a recorded register that the host does not write, which
ends the fault and changes no value. The model's choices: that a fault leaves the value and ends with the next write (log entry 61), and
the island of a register (62). -/
def Obligations.ParityFaultsAreRecordedAndMended : Prop :=
  ∀ (s : State) (a : Nat), a < 0x4000000 → (Reg.kind a = some .cfg ∨ Reg.kind a = some .mcfg) →
    (alive s.dev = true → a ∉ s.dev.host.parBad →
      (Ends (.parityScrub a) s fun t => rd t Reg.parEvc = (rd s.dev Reg.parEvc + 1) % two32 ∧ a ∈ t.host.parBad) ∧
      (∀ i q, ¬(0x30_0000 ≤ a ∧ a < 0x40_0000) → i = (parIsland s.dev a).1 → q = tget [] s.dev.host.parQ i →
        (q.length < 4 → Ends (.parityScrub a) s fun t =>
          tget [] t.host.parQ i = q ++ [a] ∧ OnlyParts [.host] s.dev t ∧ OnlyRegs [Reg.parEvc] s.dev t) ∧
        (4 ≤ q.length → Ends (.parityScrub a) s fun t =>
          rd t Reg.parLost = (rd s.dev Reg.parLost + 1) % two32 ∧ OnlyParts [] s.dev t ∧ OnlyRegs [Reg.parEvc, Reg.parLost] s.dev t))) ∧
    (∀ i b q w, i < 43 → tget [] s.dev.host.parQ i = b :: q → w = b % 2 ^ 26 + 2 ^ 26 * b2n (Reg.hostWritten b) →
      Ends (.parityRecord i) s fun t =>
        tget [] t.host.parQ i = q ∧ rd t Reg.parLast = w ∧ rd t (Reg.parHist (rd s.dev Reg.parRec % 16)) = w ∧
          rd t Reg.parRec = (rd s.dev Reg.parRec + 1) % two32 ∧ OnlyParts [.host] s.dev t ∧
          OnlyRegs [Reg.parLast, Reg.parRec, Reg.parHist (rd s.dev Reg.parRec % 16)] s.dev t) ∧
    (s.dev.boot.fwRunning = true → a ∈ s.dev.host.parBad → Reg.hostWritten a = false → (∃ i < 16, rd s.dev (Reg.parHist i) = a) →
      Ends (.parityRewrite a) s fun t =>
        a ∉ t.host.parBad ∧ rd t a = rd s.dev a ∧ t.host.vintage = s.dev.host.vintage ∧ OnlyParts [.tel, .host] s.dev t ∧
          OnlyRegs [Reg.bbLost, Reg.fwEvc, Reg.ntfLost] s.dev t)

/-- R298 to R307: an over-age pass discards and counts a copy that waits at the head of its queue for longer than its class may, and
leaves a younger one; the audits, each a period after its last pass, return what two passes in a row found unowned, count it, keep
what is cross-linked off the free list and condemn its owners. -/
def Obligations.AuditPassesReclaimAndDiscard : Prop :=
  ∀ s : State, alive s.dev = true →
    (∀ id c, s.dev.boot.releasedAt + (s.dev.buf.overPass + 1) * (10 * ps_ms) ≤ s.dev.now → s.dev.buf.copies = [(id, c)] →
      (waitKey c).isSome = true → c.tile < 16 →
      (overAge s.dev c.tile c = true → Ends .overagePass s fun t =>
        copyOf t id = none ∧ t.buf.overPass = s.dev.buf.overPass + 1 ∧
          rd t (Reg.tile c.tile + Reg.dropOverage) = (rd s.dev (Reg.tile c.tile + Reg.dropOverage) + 1) % two32) ∧
      (overAge s.dev c.tile c = false → Ends .overagePass s fun t =>
        copyOf t id = some c ∧ t.buf.overPass = s.dev.buf.overPass + 1 ∧ OnlyParts [.buf, .egr] s.dev t ∧ OnlyRegs [] s.dev t)) ∧
    (∀ n l x found gone links, n < 16 → (∀ c ∈ l, c < 49152) → (∀ e ∈ x, e.1 < 49152) → InPlace s.dev →
      found = unowned (ownedCells s.dev n) (crossLinked s.dev s.dev.buf.crossCells n) (tget [] s.dev.buf.lost n ++ l) →
      gone = found.filter (tget [] s.dev.buf.leesCells n).contains → links = linksFound s.dev (joinLinks x []) →
        Ends (.leesCellPass n l x) s fun t =>
        rd t (Reg.tile n + Reg.leesCellReclaim) = (rd s.dev (Reg.tile n + Reg.leesCellReclaim) + gone.length + links.length) % two32 ∧
          rd t (Reg.tile n + Reg.leesCellEvc) = (rd s.dev (Reg.tile n + Reg.leesCellEvc) + gone.length + links.length) % two32 ∧
          tget [] t.buf.leesCells n = found.filter (fun c => !gone.contains c) ∧
          tget [] t.buf.lost n = found.filter (fun c => !gone.contains c) ∧
          tget [] t.buf.crossCells n = linksFound s.dev (tget [] s.dev.buf.crossCells n) ++ links ∧
          (∀ e ∈ links, ∀ f ∈ e.2, ∀ y, frameOf t f = some y → y.dead = true) ∧
          (∀ a, tfind s.dev.buf.leesCellAt n = some a → a + 10 * ps_ms ≤ t.now) ∧ tfind t.buf.leesCellAt n = some t.now ∧
          (links = [] → t.buf.frames = s.dev.buf.frames ∧ t.buf.copies = s.dev.buf.copies)) ∧
    (∀ n l x found gone links, n < 4 → (∀ c ∈ l, c < 4161536) → (∀ e ∈ x, e.1 < 4161536) → n ∈ s.dev.buf.running → InPlace s.dev →
      found = unowned (ownedRacks s.dev n) (crossLinked s.dev s.dev.buf.crossRacks n) (tget [] s.dev.buf.usedRacks n ++ l) →
      gone = found.filter (tget [] s.dev.buf.leesRacks n).contains → links = linksFound s.dev (joinLinks x []) →
        Ends (.leesRackPass n l x) s fun t =>
        rd t Reg.leesRackReclaim = (rd s.dev Reg.leesRackReclaim + gone.length + links.length) % two32 ∧
          tget [] t.buf.leesRacks n = found.filter (fun c => !gone.contains c) ∧
          (∀ a, tfind s.dev.buf.leesRackAt n = some a → a + ps_s ≤ t.now) ∧
          (∀ e ∈ links, ∀ f ∈ e.2, ∀ y, frameOf t f = some y → y.dead = true) ∧
          (links = [] → ∀ r, r ∈ gone → r ∉ tget [] t.buf.usedRacks n))

/-! ## Telemetry and the black box (chapter 13) -/

/-- R32, R711 to R719, R721, R724, R725, R738: a request starts a snapshot or marks one pending, or merges with one requested within
the crossing time; the counters of one tick reach the bank with
number and time, and a waiting `SNAPSHOT` answers them; totals follow; the tasting rings are emptied into the log; the sketch's banks
exchange roles with the window, the new one empty. The model's choices: the counters of all islands are taken at one instant (log entry
67), and the crossing time within which requests merge is 3.8 ns (106). -/
def Obligations.SnapshotsTotalsAndLogsFollow : Prop :=
  ∀ s : State,
    (s.dev.boot.fwRunning = true →
      (snapMerges s.dev = false → Ends .snapCmd s fun t =>
        flag t Reg.snapSts (b2n (snapBusy s.dev)) = true ∧ OnlyParts [] s.dev t ∧ OnlyRegs [Reg.snapSts] s.dev t) ∧
      (snapMerges s.dev = true → Ends .snapCmd s fun t => OnlyParts [] s.dev t ∧ OnlyRegs [] s.dev t)) ∧
    (∀ ch sl, ch < 16 → Served s.dev ch sl → Accepted s.dev ch sl 0x701 0 → sl.len = 0 → tfind s.dev.tel.snapWait ch = none →
      Ends (.snapshot ch) s fun t =>
        (snapMerges s.dev = false → flag t Reg.snapSts (b2n (snapBusy s.dev)) = true) ∧ tfind t.tel.snapWait ch = some (snapNumber s.dev) ∧
          (chanOf t ch).inflight = [sl] ∧ OnlyParts [.tel] s.dev t ∧ OnlyRegs [Reg.snapSts] s.dev t) ∧
    (snapBusy s.dev = true → s.dev.tel.shot = none → Ends .snapshotTick s fun t =>
      ∃ b w, t.tel.shot = some (b, w, extTime s.dev) ∧ OnlyParts [.tel, .cc] s.dev t ∧
        ∀ a, Reg.snapped a = true → ¬(0x264_0000 ≤ a ∧ a < 0x265_0000) → tfind b a = tfind s.dev.regs a) ∧
    (∀ b w u n, s.dev.tel.shot = some (b, w, u) → n = (rd s.dev Reg.snapSeq + 1) % two32 →
      (s.dev.tel.snapWait = [] → Ends .snapshotDone s fun t =>
        t.tel.bank = b ∧ t.tel.bankWraps = w ∧ t.tel.shot = none ∧ rd t Reg.snapSeq = n ∧ rd t Reg.snapTimeLo = u % two32 ∧
          rd t Reg.snapTimeHi = u / two32 % two32 ∧ snapBusy t = flag s.dev Reg.snapSts 1 ∧ OnlyParts [.tel] s.dev t ∧
          OnlyRegs [Reg.snapSeq, Reg.snapTimeLo, Reg.snapTimeHi, Reg.snapSts] s.dev t) ∧
      (∀ ch sl, ch < 16 → Served s.dev ch sl → s.dev.tel.snapWait = [(ch, n)] → Ends .snapshotDone s fun t =>
        AnsweredOk s.dev t ch sl (toLe 4 n ++ toLe 4 (u % two32) ++ toLe 4 (u / two32 % two32)) ∧ t.tel.bank = b ∧ t.tel.snapWait = [])) ∧
    (s.dev.boot.fwRunning = true → rd s.dev Reg.totalsSnap ≠ rd s.dev Reg.snapSeq → Ends .totalsPublish s fun t =>
      rd t Reg.totalsSnap = rd s.dev Reg.snapSeq ∧ rd t Reg.totalsSeq = (rd s.dev Reg.totalsSeq + 2) % two32 ∧
        (∀ e ∈ s.dev.tel.bank, tget 0 t.tel.totals (cntKey e.1) = totalOf s.dev (cntKey e.1)) ∧ OnlyParts [.tel] s.dev t ∧
        OnlyRegs [Reg.totalsSnap, Reg.totalsSeq] s.dev t) ∧
    (s.dev.boot.fwRunning = true → Ends .tasteLogDrain s fun t =>
      (∀ n < 16, rd t (Reg.tile n + Reg.tasteAck) = rd s.dev (Reg.tile n + Reg.tasteEvc)) ∧
        (∀ n e, n < 16 → e = rd s.dev (Reg.tile n + Reg.tasteAck) → sub32 (rd s.dev (Reg.tile n + Reg.tasteEvc)) e = 1 →
          (∀ m < 16, m ≠ n → rd s.dev (Reg.tile m + Reg.tasteEvc) = rd s.dev (Reg.tile m + Reg.tasteAck)) →
          rd t Reg.tasteLogW = (rd s.dev Reg.tasteLogW + 1) % two32 ∧
            tfind t.tel.tasteLog (rd s.dev Reg.tasteLogW % 4096) = some (rd s.dev (Reg.tile n + Reg.tasteRing (e % 1024)) +
              two32 * rd s.dev (Reg.tile n + Reg.tasteRing (e % 1024) + 4), n, e)) ∧
        OnlyParts [.tel] s.dev t ∧
        OnlyRegs (Reg.tasteLogW :: (List.range 16).map fun n => Reg.tile n + Reg.tasteAck) s.dev t) ∧
    (alive s.dev = true → bits (tsuNs s.dev) 27 5 ≠ s.dev.fwd.hhWindow → Ends .hhSwap s fun t =>
      (t.fwd.hhBank = !s.dev.fwd.hhBank) ∧ t.fwd.hhWindow = bits (tsuNs s.dev) 27 5 ∧
        (∀ k < 4, tget [] t.fwd.sketch (2 * k + b2n t.fwd.hhBank) = [] ∧
          rd t (Reg.cplx k + Reg.hhSwapEvc) = (rd s.dev (Reg.cplx k + Reg.hhSwapEvc) + 1) % two32 ∧
          rd t (Reg.cplx k + Reg.hhTotalLo) = tget 0 s.dev.fwd.hhTotal (2 * k + b2n s.dev.fwd.hhBank) % two32) ∧
        OnlyParts [.fwd] s.dev t)

/-- R726 to R729, R741 to R747: `MIRROR_SET` gives a session its settings for the frames that come; `BLACKBOX_READ` answers a run of
records; a record that arrives gets the next number and its place in the ring; a trigger writes its record and begins a copy, or is
held during one; a copy that is done stands in its slot, and what was held begins the next. -/
def Obligations.MirrorsAndTheBlackBoxRecord : Prop :=
  ∀ s : State,
    (∀ ch sl l, ch < 16 → Served s.dev ch sl → Accepted s.dev ch sl 0x702 0 → l = sl.payload → sl.len = 112 → mirrorOk s.dev l = true →
      Ends (.mirrorSet ch) s fun t =>
        AnsweredOk s.dev t ch sl [] ∧ (tget [] t.tel.mirrors (le l 0 1)).head? = some (s.dev.buf.nextFrame, l) ∧
          (∀ k, k ≠ le l 0 1 → tget [] t.tel.mirrors k = tget [] s.dev.tel.mirrors k) ∧ cfgOf t 44 (le l 0 1) = l ∧
          t.host.vintage = nextVintage s.dev.host.vintage ∧ OnlyParts [.chan, .cc, .host, .tel] s.dev t ∧ OnlyRegsBeside ch [] s.dev t) ∧
    (∀ ch sl q n rs gone src, ch < 16 → Served s.dev ch sl → Accepted s.dev ch sl 0x703 0 → sl.len = 12 → q = le sl.payload 4 4 →
      n = le sl.payload 8 2 → le sl.payload 0 1 ≤ 1 → le sl.payload 1 3 = 0 → 1 ≤ n → n ≤ 511 → le sl.payload 10 2 = 0 →
      src = (if le sl.payload 0 1 = 0 then ringRec s.dev else mramRec s.dev) →
      ((ringRec s.dev q).isSome = true ∨ (mramRec s.dev q).isSome = true) → rs = recRun src q n →
      gone = (decide (1 < q) && (src (q - 1)).isNone) → Ends (.blackboxRead ch) s fun t =>
        AnsweredOk s.dev t ch sl (toLe 4 ((q + rs.length) % two32) ++ toLe 2 rs.length ++ toLe 1 (b2n gone) ++ zeros 9 ++
          rs.flatMap BbRec.bytes) ∧ OnlyParts [.chan, .cc] s.dev t ∧ OnlyRegsBeside ch [] s.dev t) ∧
    (∀ i c a n, i < 43 → hkOn s.dev = true → n = (s.dev.tel.seq + 1) % two32 →
      (∀ q, tget [] s.dev.tel.bbQ i = (c, a) :: q → Ends (.blackboxRecord i none) s fun t =>
        t.tel.seq = n ∧ tget [] t.tel.bbQ i = q ∧ tfind t.tel.ring (n % 4096) =
          some { seq := n, ns := tsuNs s.dev, cal := s.dev.time.calSec, island := i, code := c, args := padTo 16 a } ∧
          OnlyParts [.tel] s.dev t ∧ OnlyRegs [] s.dev t) ∧
      (tget [] s.dev.tel.bbQ i = [] → 1 ≤ c → c < 128 → Ends (.blackboxRecord i (some (c, a))) s fun t =>
        t.tel.seq = n ∧ tfind t.tel.ring (n % 4096) =
          some { seq := n, ns := tsuNs s.dev, cal := s.dev.time.calSec, island := i, code := c, args := padTo 16 a } ∧
          OnlyParts [.tel] s.dev t ∧ OnlyRegs [] s.dev t)) ∧
    (∀ k n, k < 8 → hkOn s.dev = true → k ∈ s.dev.tel.trigDue → n = (s.dev.tel.seq + 1) % two32 →
      (s.dev.tel.copy = none → Ends (.mramCopyTrigger k) s fun t =>
        t.tel.copy = some (k, n) ∧ t.tel.trigDue = s.dev.tel.trigDue.erase k ∧ t.tel.seq = n ∧ tfind t.tel.slots (copySlot s.dev) = none ∧
          OnlyParts [.tel] s.dev t ∧ OnlyRegs [] s.dev t) ∧
      (∀ u m, s.dev.tel.copy = some (u, m) →
        (k ≠ 1 ∨ u = 1 → Ends (.mramCopyTrigger k) s fun t =>
          t.tel.copy = some (u, m) ∧ t.tel.heldTrig = s.dev.tel.heldTrig ++ [(k, n)] ∧ t.tel.seq = n ∧ OnlyParts [.tel] s.dev t) ∧
        (k = 1 → u ≠ 1 → Ends (.mramCopyTrigger k) s fun t => t.tel.copy = some (1, n) ∧ t.tel.seq = n ∧ OnlyParts [.tel] s.dev t))) ∧
    (∀ k m, s.dev.tel.copy = some (k, m) →
      (s.dev.tel.heldTrig = [] → Ends .mramCopyDone s fun t =>
        t.tel.copy = none ∧ tfind t.tel.slots (copySlot s.dev) = some (copyImage s.dev k m) ∧
          rd t Reg.bbCopyEvc = (rd s.dev Reg.bbCopyEvc + 1) % two32 ∧ OnlyParts [.tel, .host] s.dev t ∧
          OnlyRegs [Reg.bbCopyEvc, Reg.fwEvc, Reg.ntfLost] s.dev t) ∧
      (∀ h q, s.dev.tel.heldTrig.getLast? = some (h, q) → Ends .mramCopyDone s fun t =>
        t.tel.copy = some (h, q) ∧ t.tel.heldTrig = [] ∧
          tfind t.tel.slots (copySlot s.dev) = some (copyImage s.dev k m)))

/-! ## Health and beacons (chapter 14) -/

/-- R768 to R779, R832, Tables 14-6, 14-9 to 14-11: sensors show their readings and the governor its steps, up to QUIESCED at 108 °C;
wear adds up each second; a margin plan sets the core voltage within its limits, in steps of 5 mV 10 ms apart, with the clock targets,
and answers what it found; beacons leave each 100 ms, one whose VOQ has reservation left for certain, and those received set the state
of their port; the lifeline bridge forgets what it has not seen for 300 s. -/
def Obligations.HealthAndPeersAreWatched : Prop :=
  ∀ s : State,
    (∀ l : List Nat, hkOn s.dev = true → l.length = 37 → (∀ x ∈ l, x ≤ 150) → s.dev.health.steps = [] → s.dev.health.excluded = [] →
      Ends (.thermalReading (l.map some)) s fun t =>
        s.dev.health.readAt + ps_ms ≤ t.now ∧ (∀ i x, l[i]? = some x → rd t (Reg.thermSensor i) = 256 + x) ∧
          fld t Reg.thermSts 0 8 = l.foldl max 0 ∧ rd t Reg.thermPeak = max (l.foldl max 0) (rd s.dev Reg.thermPeak) ∧
          (l.foldl max 0 < 95 → t.health.steps = [] ∧ rd t Reg.thermEvc = rd s.dev Reg.thermEvc) ∧
          (95 ≤ l.foldl max 0 → l.foldl max 0 < 100 → t.health.steps = [95] ∧ flag t Reg.thermSts 8 = true ∧
            rd t Reg.thermEvc = (rd s.dev Reg.thermEvc + 1) % two32) ∧
          (alive s.dev = true → 108 ≤ l.foldl max 0 → 108 ∈ t.health.steps ∧ t.boot.phase = .quiesced ∧ flag t Reg.hkFault 0 = true ∧
            safeFlag t 21 = true ∧ 5 ∈ t.tel.trigDue)) ∧
    (hkOn s.dev = true → Ends .wearIntegrate s fun t =>
      s.dev.health.wearAt + ps_s ≤ t.now ∧ t.health.wearAt = t.now ∧
        (∃ r < 2, t.health.wear = s.dev.health.wear + wearRate (fld s.dev Reg.thermSts 0 8) + r) ∧
        rd t Reg.ageWear = t.health.wear / (360 * two32) % two32 ∧ OnlyParts [.now, .time, .health] s.dev t) ∧
    (∀ ch sl p sets, ch < 16 → Served s.dev ch sl → Accepted s.dev ch sl 0x801 0 → sl.len = 4 → le sl.payload 0 1 ≤ 1 →
      le sl.payload 1 3 = 0 → p.wf = true → sets = (bit (le sl.payload 0 1) 0 && !p.clean) → Ends (.marginPlanRun ch p) s fun t =>
        (∃ r, r.length = 32 ∧ le r 0 2 = coreMv t ∧ le r 2 2 = coreMv s.dev ∧ AnsweredOk s.dev t ch sl r) ∧
          coreMv t = (if sets then max 650 (min 800 p.vddAfter) else coreMv s.dev) ∧
          (∀ n < 16, tileClk t n = if sets then p.tileClk.getD n nominalClk else tileClk s.dev n) ∧
          (sets = false → t.health.laneEq = s.dev.health.laneEq) ∧
          (sets = true → s.dev.now + (ceilDiv (max (coreMv t) (coreMv s.dev) - min (coreMv t) (coreMv s.dev)) 5 - 1) * (10 * ps_ms) ≤ t.now) ∧
          rd t (Reg.ageRo p.worstPair) = p.worstRo ∧
          rd t Reg.agePlanSeq = (rd s.dev Reg.agePlanSeq + 1) % two32 ∧ rd t Reg.ageLife = p.life ∧
          t.host.vintage = s.dev.host.vintage) ∧
    (∀ p, p.wf = true → s.dev.boot.fwRunning = true → s.dev.boot.phase = .full → Ends (.marginPlanDaily p) s fun t =>
      s.dev.health.planAt + 86400 * ps_s ≤ t.health.planAt ∧ t.health.planAt ≤ t.now ∧ rd t Reg.ageLife = p.life ∧
        rd t Reg.agePlanSeq = (rd s.dev Reg.agePlanSeq + 1) % two32 ∧
        coreMv t = (if p.clean then coreMv s.dev else max 650 (min 800 p.vddAfter))) ∧
    (∀ p l, p < 512 → s.dev.boot.fwRunning = true → s.dev.boot.phase = .full → beaconsOn s.dev = true → portDead s.dev p = false →
      l = beaconBytes s.dev p → Ends (.beaconSend p) s fun t =>
        beaconDue s.dev p ≤ t.now ∧ tfind t.health.beaconAt p = some (beaconDue s.dev p) ∧
          tget 0 s.dev.health.beaconAt p < beaconDue s.dev p ∧
          (∀ u, tfind s.dev.health.beaconAt p = some u → s.dev.now ≤ u → beaconDue s.dev p ≤ u + 100 * ps_ms) ∧
          (t.buf.copies = s.dev.buf.copies ∨ ∃ c y, copyOf t s.dev.buf.nextCopy = some c ∧ c.frame = s.dev.buf.nextFrame ∧ c.port = p ∧
            c.cls = 6 ∧ frameOf t s.dev.buf.nextFrame = some y ∧ y.bytes = l ++ fcsOf l) ∧
          (voqPart s.dev (tileOf p) (8 * p + 6) .reservation < bits (classCfg s.dev (tileOf p) 6) 4 8 →
            ∃ c y, copyOf t s.dev.buf.nextCopy = some c ∧ c.frame = s.dev.buf.nextFrame ∧ c.port = p ∧ c.cls = 6 ∧ c.part = .reservation ∧
              frameOf t s.dev.buf.nextFrame = some y ∧ y.bytes = l ++ fcsOf l)) ∧
    (∀ q x r l p, q < 8 → trapQueue s.dev q = x :: r → l = x.frame.bytes → p = x.frame.inPort → p < 512 → s.dev.boot.fwRunning = true →
      trapRing s.dev q = none → x.cause = 5 → Ends (.beaconReceive q) s fun t =>
        trapQueue t q = r ∧ peerState t p = peerCode t p ∧
          (be l 14 1 = 1 → ∃ k, tfind t.health.peers p = some k ∧ k.serial = be l 18 8 ∧
            k.group = be l 26 4 ∧ k.vintage = be l 30 4 ∧ k.digest = be l 34 8 ∧ k.since = s.dev.now) ∧
          (be l 14 1 ≠ 1 → (tfind t.health.peers p).map (·.since) = (tfind s.dev.health.peers p).map (·.since))) ∧
    (s.dev.boot.fwRunning = true → Ends .peerStateUpdate s fun t =>
      s.dev.health.peerAt + 100 * ps_ms ≤ t.now ∧ t.health.peerAt = t.now ∧
        ∀ p < 512, peerState t p = peerCode t p) ∧
    (s.dev.health.bridge ≠ [] → Ends .lifelineBridgeAgeing s fun t =>
      t.health.bridge = s.dev.health.bridge.filter (fun b => decide (t.now < b.seen + 300 * ps_s)) ∧
        (∃ b ∈ s.dev.health.bridge, b ∉ t.health.bridge ∧ ∀ c ∈ s.dev.health.bridge, b.seen ≤ c.seen) ∧
        OnlyParts [.now, .time, .health] s.dev t)

/-! ## Supplies, resets and bring-up (chapters 14, 15) -/

/-- R466, R476, R742, R753 to R758, R782 to R784, R792, R796, R798: `VSTBY` starts the calendar afresh; each start of the supplies and
each fall of `RESET_N` puts every register but `SAFE_VINTAGE` at its reset value and keeps the safety configuration and the MRAM copies; a
departure (of `VDD_CORE` one of more than 25 mV from the setpoint last confirmed, or the third failed readback) keeps the housekeeping
block's own registers and pulls `FAULT_N` low; a release begins lifeline mode with every lane die unaligned (R414) and the image's safety
VID map in the tiles, and the monitors release the device 10 ms after the last rail is valid; a fall of `PWR_FAIL_N` triggers a copy.
The model's choices: which commands carry the events of the supplies and the monitors and what a supply's return restores (log entries 6,
75, 76), and when a readback confirms a setpoint and which rails count as valid (118). -/
def Obligations.SuppliesAndResetsActAsStated : Prop :=
  ∀ s : State,
    (s.dev.pins.vstby = false → Ends .vstbyApplied s fun t =>
      t.pins.vstby = true ∧ t.time.calNotSet = true ∧ t.time.calSec = 0 ∧ t.time.stbyEpoch = 0 ∧
        t.boot.phase = (if s.dev.boot.phase = .off then .standby else s.dev.boot.phase) ∧ OnlyParts [.pins, .time, .boot] s.dev t ∧
        OnlyRegs [] s.dev t) ∧
    (s.dev.pins.vstby = true → Ends .vstbyLoss s fun t =>
      t.pins.vstby = false ∧ t.time.calNotSet = true ∧ t.time.stbyEpoch = 0 ∧
        t.boot.phase = (if s.dev.boot.phase = .standby then .off else s.dev.boot.phase) ∧ OnlyParts [.pins, .time, .boot] s.dev t ∧
        OnlyRegs [] s.dev t) ∧
    (s.dev.boot.phase = .standby → Ends .vddHkUp s fun t =>
      t.boot.phase = .reset ∧ t.time.stbyEpoch = (s.dev.time.stbyEpoch + 1) % two32 ∧ t.tel.seq = mramSeq s.dev ∧ t.tel.ring = [] ∧
        t.tel.slots = s.dev.tel.slots ∧ t.safe.cfg = s.dev.safe.cfg ∧ t.safe.proofs = s.dev.safe.proofs ∧
        rd t Reg.safeVintage = rd s.dev Reg.safeVintage ∧ t.boot.monitor = true ∧ t.boot.monitorAt = s.dev.now ∧
        t.boot.invalid = laterRails ∧
        flag t Reg.hkFault 3 = true ∧ ∀ a, a ≠ Reg.safeVintage → a ≠ Reg.hkFault → rd t a = Reg.reset a) ∧
    (hkOn s.dev = true → s.dev.pins.pwrFailN = false → fallUnserved s.dev = false → Ends .standbyEntry s fun t =>
      t.boot.phase = (if s.dev.pins.vstby then .standby else .off) ∧ t.tel.slots = s.dev.tel.slots ∧ t.safe.cfg = s.dev.safe.cfg ∧
        t.time.calSec = s.dev.time.calSec ∧ ∀ a, a ≠ Reg.safeVintage → rd t a = Reg.reset a) ∧
    (hkOn s.dev = true → s.dev.pins.resetN = true → Ends .resetNFall s fun t =>
      t.pins.resetN = false ∧ t.boot.phase = .reset ∧ t.boot.fwRunning = false ∧ t.host.cfg = [] ∧ t.host.vintage = 1 ∧ t.buf = {} ∧
        t.safe.cfg = s.dev.safe.cfg ∧ t.tel.slots = s.dev.tel.slots ∧ t.tel.ring = s.dev.tel.ring ∧ t.tel.seq = s.dev.tel.seq ∧
        rd t Reg.safeVintage = rd s.dev Reg.safeVintage ∧ ∀ a, a ≠ Reg.safeVintage → a ≠ Reg.hkFault → rd t a = Reg.reset a) ∧
    (hkOn s.dev = true → s.dev.pins.resetN = false → s.dev.boot.monitor = false → Ends .resetRelease s fun t =>
      t.pins.resetN = true ∧ t.boot.phase = .lifeline ∧ t.boot.releasedAt = s.dev.now ∧ alive t = true ∧ t.safe.cfg = s.dev.safe.cfg ∧
        t.safe.proofs = s.dev.safe.proofs ∧ (∀ n < 16, (tget (0, 0) t.safe.tileVids n).2 = s.dev.safe.cfg.vids) ∧
        (∀ k < 8, unaligned t k = true) ∧ t.buf = s.dev.buf ∧ rd t Reg.hkBootMs = 0 ∧ OnlyRegs [Reg.tsuSts, Reg.hkBootMs] s.dev t) ∧
    (∀ clock n mv fails e, (clock = true ∧ n < 43 ∧ n ≠ 38 ∧ n ≠ 39 ∨ clock = false ∧ n < 11) → mv < 0x10000 → hkOn s.dev = true →
      e = noteReadback s.dev clock n mv fails →
      (departs e clock n mv fails = false → Ends (.monitorDeparture clock n mv fails) s fun t =>
        t.health = e.health ∧ (n = 0 → t.health.avsFails = if fails then s.dev.health.avsFails + 1 else 0) ∧
          t.boot = { s.dev.boot with
            invalid := s.dev.boot.invalid.filter (· ≠ n)
            monitorAt := if s.dev.boot.invalid ≠ [] ∧ s.dev.boot.invalid.filter (· ≠ n) = [] then s.dev.now else s.dev.boot.monitorAt } ∧
          OnlyParts [.health, .boot] s.dev t ∧ OnlyRegs [] s.dev t) ∧
      (departs e clock n mv fails = true → Ends (.monitorDeparture clock n mv fails) s fun t =>
        t.boot.phase = .reset ∧ t.boot.monitor = true ∧ t.boot.monitorAt = s.dev.now ∧ rd t Reg.hkFault = 8 ∧ faultN t = false ∧
          7 ∈ t.tel.trigDue ∧ t.safe.cfg = s.dev.safe.cfg ∧ (clock = false → n ∈ t.boot.invalid) ∧ t.health.tileClk = [] ∧
          t.health.laneEq = [] ∧ (s.dev.safe.loaded = false → t.safe.hk = s.dev.safe.hk) ∧
          t.tel.slots = s.dev.tel.slots ∧ t.host.vintage = 1 ∧
          (∀ a, Reg.isHk a = true → a ≠ Reg.hkFault → a ≠ Reg.thermSts → a ≠ Reg.bbLost → rd t a = rd s.dev a) ∧
          (∀ a, Reg.isHk a = false → a ≠ Reg.safeVintage → rd t a = Reg.reset a))) ∧
    (∀ mv, departs (noteReadback s.dev false 0 mv true) false 0 mv true = decide (2 ≤ s.dev.health.avsFails)) ∧
    (∀ mv, departs (noteReadback s.dev false 0 mv false) false 0 mv false =
      (decide (mv + 25 < coreMv s.dev ∨ coreMv s.dev + 25 < mv) &&
        decide (mv + 25 < s.dev.health.avsSet ∨ s.dev.health.avsSet + 25 < mv))) ∧
    (s.dev.boot.monitor = true → s.dev.pins.resetN = true → s.dev.boot.invalid = [] → Ends .monitorRelease s fun t =>
      s.dev.boot.monitorAt + 10 * ps_ms ≤ t.now ∧ t.boot.monitor = false ∧ t.boot.phase = .lifeline ∧ flag t Reg.hkFault 3 = false) ∧
    (hkOn s.dev = true → s.dev.pins.pwrFailN = true → Ends .pwrFailFall s fun t =>
      t.pins.pwrFailN = false ∧ 1 ∈ t.tel.trigDue ∧ OnlyParts [.pins, .tel] s.dev t ∧ OnlyRegs [] s.dev t) ∧
    (hkOn s.dev = true → Ends .pwrFailRise s fun t => t.pins.pwrFailN = true ∧ OnlyParts [.pins] s.dev t ∧ OnlyRegs [] s.dev t)

/-- R60, R541, R542, R569, R759 to R765: in lifeline mode ports 0 to 7 take mode B, the hardwired stop path is armed by 80 ms, image A or
else B starts firmware with its threads, the start configuration is committed or refused as a whole, the guards start with the
committed settings and default claims once their self-tests have passed, and full service follows, with the stacks that trained, when
every enabled port has finished its training (R763). The model's choices: the claim 0 of a guard with a latched cause or one that is hot
(log entry 52), and the base times that the start fixes (83). -/
def Obligations.BringUpReachesFullService : Prop :=
  ∀ s : State,
    (s.dev.boot.phase = .lifeline → s.dev.boot.lifeline = false → Ends .lifelineStart s fun t =>
      (∀ p < 8, fld t (Reg.port p + Reg.pMode) 0 10 = lifelineMode) ∧ t.boot.lifeline = true ∧ OnlyParts [.boot] s.dev t ∧
        OnlyRegs ((List.range 8).map fun p => Reg.port p + Reg.pMode) s.dev t) ∧
    (alive s.dev = true → s.dev.safe.armedHk = false → Ends .stopPathArm s fun t =>
      s.dev.boot.releasedAt + 80 * ps_ms ≤ t.now ∧ t.safe.armedHk = true ∧ t.safe.hk.new = s.dev.safe.cfg ∧ safeFlag t 20 = true ∧
        t.boot = s.dev.boot) ∧
    (∀ a b, s.dev.boot.phase = .lifeline → s.dev.boot.fwRunning = false → flag s.dev Reg.hkFault 1 = false →
      (a = true ∨ b = true → (∀ c < 4, (coreOf s.dev c).stopped = false) → (∀ n, 1 ≤ n → n < 28 → isState s.dev n .off = true) →
        Ends (.bootImageLoad a b) s fun t =>
        t.boot = { s.dev.boot with fwRunning := true, imageB := !a } ∧ t.cc.wdogAt = s.dev.now ∧
          (∀ n, 1 ≤ n → n < 28 → Going t n ∧ (thrOf t n).depth = 0 ∧ (thrOf t n).ie = true) ∧
          t.safe = { s.dev.safe with startDigest := safeDigest s.dev.safe.cfg } ∧ OnlyParts [.boot, .cc, .health, .safe] s.dev t) ∧
      (a = false → b = false → Ends (.bootImageLoad a b) s fun t =>
        t.boot = s.dev.boot ∧ flag t Reg.hkFault 1 = true ∧ OnlyParts [.tel] s.dev t ∧
          OnlyRegs [Reg.hkFault, Reg.bbLost] s.dev t)) ∧
    (s.dev.boot.phase = .lifeline → s.dev.boot.fwRunning = true → s.dev.boot.startDone = false → s.dev.fwd.ruleJob = none →
      (Ends (.startConfigCommit none) s fun t =>
        t.boot = { s.dev.boot with startDone := true } ∧ OnlyParts [.boot] s.dev t ∧ OnlyRegs [] s.dev t) ∧
      (∀ l n, parseRecs startShape l.length l 0 = .error n → Ends (.startConfigCommit (some l)) s fun t =>
        t.boot = { s.dev.boot with startDone := true } ∧ t.host.cfg = s.dev.host.cfg ∧ t.host.vintage = s.dev.host.vintage ∧
          OnlyParts [.boot, .tel, .host] s.dev t) ∧
      (∀ l rs e, parseRecs startShape l.length l 0 = .ok rs → (∀ r ∈ rs, r.ty ≠ 46) → startApply s.dev rs = .ok e →
        s.dev.host.msgs = [] → Ends (.startConfigCommit (some l)) s fun t =>
          t.boot.startDone = true ∧ t.boot.startCfg = true ∧ t.host.cfg = e.host.cfg ∧
            t.host.vintage = nextVintage e.host.vintage)) ∧
    (selfTestsPassed s.dev = false → Ends .guardsStart s fun t =>
      guardsStarted t = guardsStarted s.dev ∧ OnlyParts [] s.dev t ∧ OnlyRegs [] s.dev t) ∧
    (guardsStarted s.dev = false → s.dev.boot.fwRunning = true → selfTestsPassed s.dev = true →
      (∀ j x, tfind s.dev.safe.cfg.teles j = some x → sealGood j x = true) → Ends .guardsStart s fun t =>
      guardsStarted t = true ∧ rd t Reg.safeStopCfg = s.dev.safe.cfg.stopCfg % two32 ∧
        rd t Reg.safeDegradeCfg = s.dev.safe.cfg.degradeCfg % two32 ∧
        (∀ g < 2, claim t g = if fld s.dev (Reg.guardSts g) 4 2 = 0 ∧
          (guardOf s.dev g).hot = false then bits (s.dev.safe.cfg.degradeCfg % two32) (18 + 4 * g) 4 else 0) ∧
        t.safe.cfg = fixBases s.dev.safe.cfg (extTime s.dev) ∧ (∀ g < 2, (guardOf t g).banks.new = t.safe.cfg)) ∧
    (s.dev.boot.phase = .lifeline → owedPorts s.dev ≠ [] → ∀ f, Ends (.fullService f) s fun t =>
      OnlyParts [] s.dev t ∧ OnlyRegs [] s.dev t) ∧
    (∀ f, s.dev.boot.phase = .lifeline → s.dev.boot.fwRunning = true → s.dev.boot.startDone = true → owedPorts s.dev = [] →
      Ends (.fullService f) s fun t =>
      t.boot.phase = .full ∧ t.buf.failed = ones 4 f ∧ (∀ n < 4, n ∈ t.buf.running ↔ n ∉ ones 4 f) ∧ t.health.bridge = [] ∧
        t.health.planAt = s.dev.now ∧ rd t Reg.hkBootMs = (s.dev.now - s.dev.boot.releasedAt) / ps_ms % two32)

/-- Reset values that the manual gives (Tables 02-6, 09-12, 11-9, 12-1, R691): identification, modes of the ports, the safe state, no
command waiting, no memory in use. The standby epoch is 1: `VSTBY` and then `VDD_HK` have come up (R476). -/
def Obligations.ResetLeavesTheStatedValues : Prop :=
  State.reset.pending = [] ∧ rd State.reset.dev 0 = 0xB00512 ∧ State.reset.dev.host.vintage = 1 ∧ State.reset.dev.host.cfg = [] ∧
    safeFlag State.reset.dev 8 = true ∧ claim State.reset.dev 0 = 0 ∧ claim State.reset.dev 1 = 0 ∧
    (∀ p < 512, fld State.reset.dev (Reg.port p + Reg.pMode) 16 14 = 9216 ∧ fld State.reset.dev (Reg.port p + Reg.pMode) 0 4 = 0) ∧
    (∀ v < 36, armed State.reset.dev v = true ∧ rd State.reset.dev (Reg.irqEn v) = 0) ∧
    (∀ n, 1 ≤ n → n < 32 → (thrOf State.reset.dev n).state = .off) ∧ State.reset.dev.buf.copies = [] ∧ State.reset.dev.tel.ring = [] ∧
    State.reset.dev.time.stbyEpoch = 1 ∧ safeStateN State.reset.dev = false ∧ faultN State.reset.dev = true
end

