-- ==== Sys2Proof/Laws/Access.lean ====
section
/-! SUPPORT. A thread's access to its address map: what stops it, and the one shape of what it does (Tables 10-1 and 10-9). -/

namespace Sys2Proof.Machine

variable (d : Dev) (n : Nat) (x : ThrAccess)

/-- The region checker comes first (R593, R594). -/
theorem accessFault_denied (h : guestMay d n x.addr x.size (accRgn x.kind) = false) : accessFault d n x = some 16 := by
  simp [accessFault, h]

/-- An address that Table 10-1 does not map is never accessed (R567). -/
theorem accessFault_unmapped (h : thrTarget (coreNum n) x.addr = none) : accessFault d n x ≠ none := by
  unfold accessFault
  rw [h]
  dsimp only
  split_ifs <;> simp

/-- An access that nothing stops has a target that takes it. -/
theorem target_of_access (h : accessFault d n x = none) :
    ∃ t, thrTarget (coreNum n) x.addr = some t ∧ targetFault n x t = none ∧ x.addr % alignOf x (some t) = 0 := by
  cases ht : thrTarget (coreNum n) x.addr with
  | none => exact absurd h (accessFault_unmapped d n x ht)
  | some t =>
    simp only [accessFault, ht] at h
    split_ifs at h with _ ha
    exact ⟨t, rfl, h, not_not.mp ha⟩

/-- A guest's load of a counter that R624 forbids is a region violation, whatever its size and alignment. -/
theorem accessFault_counter (h : counterDenied d n x (thrTarget (coreNum n) x.addr) = true) : accessFault d n x = some 16 := by
  simp [accessFault, h]

/-- A thread that is not RUNNING accesses nothing; port B's own of the cycle happens. -/
theorem threadAccess_idle (other : Option SpmOther) (h : isState d n .running = false) :
    threadAccess n x other d = portBRead (portBWrite d (coreNum n) 0 0 other) (coreNum n) other := by
  simp [threadAccess, accessWrite, h]

/-- An access that is stopped takes its fault, and nothing of it is performed (R594). -/
theorem threadAccess_fault (other : Option SpmOther) {code : Nat} (h : isState d n .running = true)
    (hf : accessFault d n x = some code) : threadAccess n x other d = withFrame n other (takeFault n x code) d := by
  simp [threadAccess, accessWrite, withFrame, h, hf]

/-- An access that nothing stops reads after port B's write of the cycle, or writes before it, and port B reads what it wrote (R601,
R602). -/
theorem threadAccess_done (other : Option SpmOther) (h : isState d n .running = true) (hf : accessFault d n x = none) :
    ∃ t, thrTarget (coreNum n) x.addr = some t ∧ threadAccess n x other d =
      portBRead (if readsAfter x t then accessDo n x t (portBWrite d (coreNum n) 0 0 other)
      else portBWrite (accessDo n x t d) (coreNum n) (storedBytes x t).1 (storedBytes x t).2 other) (coreNum n) other := by
  obtain ⟨t, ht, -, -⟩ := target_of_access d n x hf
  exact ⟨t, ht, by simp [threadAccess, accessWrite, h, hf, ht]⟩

/-! ## Port B -/

@[simp] theorem portBWrite_none (c a k : Nat) : portBWrite d c a k none = d := rfl
@[simp] theorem portBWrite_read (c a k : Nat) (r : SpmRead) : portBWrite d c a k (some (.read r)) = d := rfl
@[simp] theorem portBRead_none (c : Nat) : portBRead d c none = d := rfl
@[simp] theorem portBRead_write (c : Nat) (b : SpmWrite) : portBRead d c (some (.write b)) = d := rfl

/-- An access with nothing at port B is the access. -/
@[simp] theorem withFrame_none (f : Dev → Dev) : withFrame n none f d = f d := rfl

/-- A read through port B leaves what port A does, and returns the bytes that stand after it (R601). -/
theorem withFrame_hostRead (f : Dev → Dev) (r : SpmRead) (h : r.dest = none) : withFrame n (some (.read r)) f d =
    readData (portB (f d) (coreNum n)) (leVal (spmRead (f d) (coreNum n) r.addr r.size)) := by
  simp [withFrame, withWrite, portBWrite, portBRead, h]

/-! ## Retiring -/

/-- An instruction that retires is counted; where no sample is due that is all it does (R621, R622). -/
theorem retireK_count (d : Dev) (n k : Nat) (h : (thrOf (perfAdd d n 1 k) n).sampleDue = false) : retireK d n k = perfAdd d n 1 k := by
  simp [retireK, h]

/-- After the sixth instruction since a sample fell due its trap is taken with skid 6 (R622). -/
theorem retireK_forced (d : Dev) (n k : Nat) (due : (thrOf (perfAdd d n 1 k) n).sampleDue = true)
    (ie : (thrOf (perfAdd d n 1 k) n).ie = true) (h : 6 ≤ (thrOf (perfAdd d n 1 k) n).skid) :
    retireK d n k = takeSample (perfAdd d n 1 k) n false 6 := by simp [retireK, due, ie, h]

end Sys2Proof.Machine
end

