-- ==== Sys2Proof/Laws/Tab.lean ====
section
/-! SUPPORT. Sparse tables: a read after a write, and the canonical form that every write keeps. -/

namespace Sys2Proof.Machine

variable {α : Type}

@[simp] theorem tfind_tins_self (t : Tab α) (k : Nat) (v : α) : tfind (tins t k v) k = some v := by
  induction t with
  | nil => simp [tins, tfind]
  | cons e r ih =>
    obtain ⟨a, w⟩ := e
    unfold tins
    by_cases h : k < a
    · simp [h, tfind]
    · by_cases h2 : k = a
      · simp [h2, tfind]
      · simp [h, h2, tfind, ih, Ne.symm h2]

theorem tfind_tins_ne (t : Tab α) {k j : Nat} (v : α) (h : j ≠ k) : tfind (tins t k v) j = tfind t j := by
  induction t with
  | nil => simp [tins, tfind, h.symm]
  | cons e r ih =>
    obtain ⟨a, w⟩ := e
    unfold tins
    by_cases h1 : k < a
    · simp [h1, tfind, h.symm]
    · by_cases h2 : k = a
      · subst h2
        simp [tfind, h.symm]
      · simp [h1, h2, tfind, ih]

@[simp] theorem tfind_tdel_self (t : Tab α) (k : Nat) : tfind (tdel t k) k = none := by
  induction t with
  | nil => rfl
  | cons e r ih =>
    obtain ⟨a, w⟩ := e
    unfold tdel
    by_cases h : a = k
    · simp [h, ih]
    · simp [h, tfind, ih]

theorem tfind_tdel_ne (t : Tab α) {k j : Nat} (h : j ≠ k) : tfind (tdel t k) j = tfind t j := by
  induction t with
  | nil => rfl
  | cons e r ih =>
    obtain ⟨a, w⟩ := e
    unfold tdel
    by_cases h1 : a = k
    · subst h1
      simp [tfind, ih, h.symm]
    · simp [h1, tfind, ih]

theorem tfind_tins (t : Tab α) (k j : Nat) (v : α) : tfind (tins t k v) j = if j = k then some v else tfind t j := by
  by_cases h : j = k
  · subst h; simp
  · simp [h, tfind_tins_ne t v h]

theorem tfind_tdel (t : Tab α) (k j : Nat) : tfind (tdel t k) j = if j = k then none else tfind t j := by
  by_cases h : j = k
  · subst h; simp
  · simp [h, tfind_tdel_ne t h]

variable [DecidableEq α]

@[simp] theorem tget_tput_self (dflt : α) (t : Tab α) (k : Nat) (v : α) : tget dflt (tput dflt t k v) k = v := by
  unfold tput
  split <;> simp_all [tget]

theorem tget_tput_ne (dflt : α) (t : Tab α) {k j : Nat} (v : α) (h : j ≠ k) :
    tget dflt (tput dflt t k v) j = tget dflt t j := by
  unfold tput
  split <;> simp [tget, tfind_tdel_ne t h, tfind_tins_ne t v h]

theorem tget_tput (dflt : α) (t : Tab α) (k j : Nat) (v : α) :
    tget dflt (tput dflt t k v) j = if j = k then v else tget dflt t j := by
  by_cases h : j = k
  · subst h; simp
  · simp [h, tget_tput_ne dflt t v h]

@[simp] theorem tget_tmod_self (dflt : α) (t : Tab α) (k : Nat) (f : α → α) :
    tget dflt (tmod dflt t k f) k = f (tget dflt t k) := by simp [tmod]

theorem tget_tmod_ne (dflt : α) (t : Tab α) {k j : Nat} (f : α → α) (h : j ≠ k) :
    tget dflt (tmod dflt t k f) j = tget dflt t j := tget_tput_ne dflt t _ h

theorem tget_tmod (dflt : α) (t : Tab α) (k j : Nat) (f : α → α) :
    tget dflt (tmod dflt t k f) j = if j = k then f (tget dflt t k) else tget dflt t j := tget_tput ..

/-! ## The canonical form -/

omit [DecidableEq α] in
theorem rising_tins {b : Nat} {t : Tab α} {k : Nat} (v : α) (h : risingFrom b t = true) (hk : b ≤ k) :
    risingFrom b (tins t k v) = true := by
  induction t generalizing b with
  | nil => simp [tins, risingFrom, hk]
  | cons e r ih =>
    obtain ⟨a, w⟩ := e
    simp only [risingFrom, Bool.and_eq_true, decide_eq_true_eq] at h
    unfold tins
    by_cases h1 : k < a
    · simp only [h1, if_true, risingFrom, Bool.and_eq_true, decide_eq_true_eq]
      exact ⟨hk, h1, h.2⟩
    · by_cases h2 : k = a
      · subst h2
        simp [risingFrom, hk, h.2]
      · simp only [h1, h2, if_false, risingFrom, Bool.and_eq_true, decide_eq_true_eq]
        exact ⟨h.1, ih h.2 (by omega)⟩

omit [DecidableEq α] in
theorem rising_le {b c : Nat} {t : Tab α} (h : risingFrom c t = true) (hb : b ≤ c) : risingFrom b t = true := by
  cases t with
  | nil => rfl
  | cons e r =>
    obtain ⟨a, w⟩ := e
    simp only [risingFrom, Bool.and_eq_true, decide_eq_true_eq] at h ⊢
    exact ⟨by omega, h.2⟩

omit [DecidableEq α] in
theorem rising_tdel {b : Nat} {t : Tab α} (k : Nat) (h : risingFrom b t = true) : risingFrom b (tdel t k) = true := by
  induction t generalizing b with
  | nil => rfl
  | cons e r ih =>
    obtain ⟨a, w⟩ := e
    simp only [risingFrom, Bool.and_eq_true, decide_eq_true_eq] at h
    unfold tdel
    by_cases h1 : a = k
    · simp only [h1, if_true]
      exact rising_le (ih h.2) (by omega)
    · simp only [h1, if_false, risingFrom, Bool.and_eq_true, decide_eq_true_eq]
      exact ⟨h.1, ih h.2⟩

omit [DecidableEq α] in
theorem all_tdel {t : Tab α} (k : Nat) {p : Nat × α → Bool} (h : t.all p = true) : (tdel t k).all p = true := by
  induction t with
  | nil => rfl
  | cons e r ih =>
    obtain ⟨a, w⟩ := e
    simp only [List.all_cons, Bool.and_eq_true] at h
    unfold tdel
    by_cases h1 : a = k
    · simpa [h1] using ih h.2
    · simp only [h1, if_false, List.all_cons, Bool.and_eq_true]
      exact ⟨h.1, ih h.2⟩

omit [DecidableEq α] in
theorem all_tins {t : Tab α} (k : Nat) (v : α) {p : Nat × α → Bool} (h : t.all p = true) (hv : p (k, v) = true) :
    (tins t k v).all p = true := by
  induction t with
  | nil => simp [tins, hv]
  | cons e r ih =>
    obtain ⟨a, w⟩ := e
    simp only [List.all_cons, Bool.and_eq_true] at h
    unfold tins
    by_cases h1 : k < a
    · simp only [h1, if_true, List.all_cons, Bool.and_eq_true]
      exact ⟨hv, h.1, h.2⟩
    · by_cases h2 : k = a
      · subst h2
        simp [hv, h.2]
      · simp only [h1, h2, if_false, List.all_cons, Bool.and_eq_true]
        exact ⟨h.1, ih h.2⟩

/-- Every write keeps the canonical form. -/
theorem tcanon_tput {dflt : α} {t : Tab α} (k : Nat) (v : α) (h : tcanon dflt t = true) :
    tcanon dflt (tput dflt t k v) = true := by
  simp only [tcanon, Bool.and_eq_true] at h ⊢
  unfold tput
  split
  · exact ⟨rising_tdel k h.1, all_tdel k h.2⟩
  · rename_i hv
    exact ⟨rising_tins v h.1 (Nat.zero_le _), all_tins k v h.2 (by simp [hv])⟩

theorem tcanon_tmod {dflt : α} {t : Tab α} (k : Nat) (f : α → α) (h : tcanon dflt t = true) :
    tcanon dflt (tmod dflt t k f) = true := tcanon_tput k _ h

end Sys2Proof.Machine
end

