-- ==== Sys2Proof/Laws/State.lean ====
section
/-! SUPPORT. What each update of the device leaves in each of its parts: one lemma per part per update. -/

namespace Sys2Proof.Machine

variable (d : Dev)

/-! ## `Dev.onPins` -/

@[simp] theorem Dev.onPins_regs (f : Pins → Pins) : (d.onPins f).regs = d.regs := rfl
@[simp] theorem Dev.onPins_now (f : Pins → Pins) : (d.onPins f).now = d.now := rfl
@[simp] theorem Dev.onPins_freeCtr (f : Pins → Pins) : (d.onPins f).freeCtr = d.freeCtr := rfl
@[simp] theorem Dev.onPins_pins (f : Pins → Pins) : (d.onPins f).pins = f d.pins := rfl
@[simp] theorem Dev.onPins_boot (f : Pins → Pins) : (d.onPins f).boot = d.boot := rfl
@[simp] theorem Dev.onPins_ports (f : Pins → Pins) : (d.onPins f).ports = d.ports := rfl
@[simp] theorem Dev.onPins_modBus (f : Pins → Pins) : (d.onPins f).modBus = d.modBus := rfl
@[simp] theorem Dev.onPins_fwd (f : Pins → Pins) : (d.onPins f).fwd = d.fwd := rfl
@[simp] theorem Dev.onPins_buf (f : Pins → Pins) : (d.onPins f).buf = d.buf := rfl
@[simp] theorem Dev.onPins_trl (f : Pins → Pins) : (d.onPins f).trl = d.trl := rfl
@[simp] theorem Dev.onPins_egr (f : Pins → Pins) : (d.onPins f).egr = d.egr := rfl
@[simp] theorem Dev.onPins_time (f : Pins → Pins) : (d.onPins f).time = d.time := rfl
@[simp] theorem Dev.onPins_safe (f : Pins → Pins) : (d.onPins f).safe = d.safe := rfl
@[simp] theorem Dev.onPins_cc (f : Pins → Pins) : (d.onPins f).cc = d.cc := rfl
@[simp] theorem Dev.onPins_host (f : Pins → Pins) : (d.onPins f).host = d.host := rfl
@[simp] theorem Dev.onPins_tel (f : Pins → Pins) : (d.onPins f).tel = d.tel := rfl
@[simp] theorem Dev.onPins_health (f : Pins → Pins) : (d.onPins f).health = d.health := rfl
@[simp] theorem rd_onPins (f : Pins → Pins) (a : Nat) : rd (d.onPins f) a = rd d a := rfl

/-! ## `Dev.onBoot` -/

@[simp] theorem Dev.onBoot_regs (f : Boot → Boot) : (d.onBoot f).regs = d.regs := rfl
@[simp] theorem Dev.onBoot_now (f : Boot → Boot) : (d.onBoot f).now = d.now := rfl
@[simp] theorem Dev.onBoot_freeCtr (f : Boot → Boot) : (d.onBoot f).freeCtr = d.freeCtr := rfl
@[simp] theorem Dev.onBoot_pins (f : Boot → Boot) : (d.onBoot f).pins = d.pins := rfl
@[simp] theorem Dev.onBoot_boot (f : Boot → Boot) : (d.onBoot f).boot = f d.boot := rfl
@[simp] theorem Dev.onBoot_ports (f : Boot → Boot) : (d.onBoot f).ports = d.ports := rfl
@[simp] theorem Dev.onBoot_modBus (f : Boot → Boot) : (d.onBoot f).modBus = d.modBus := rfl
@[simp] theorem Dev.onBoot_fwd (f : Boot → Boot) : (d.onBoot f).fwd = d.fwd := rfl
@[simp] theorem Dev.onBoot_buf (f : Boot → Boot) : (d.onBoot f).buf = d.buf := rfl
@[simp] theorem Dev.onBoot_trl (f : Boot → Boot) : (d.onBoot f).trl = d.trl := rfl
@[simp] theorem Dev.onBoot_egr (f : Boot → Boot) : (d.onBoot f).egr = d.egr := rfl
@[simp] theorem Dev.onBoot_time (f : Boot → Boot) : (d.onBoot f).time = d.time := rfl
@[simp] theorem Dev.onBoot_safe (f : Boot → Boot) : (d.onBoot f).safe = d.safe := rfl
@[simp] theorem Dev.onBoot_cc (f : Boot → Boot) : (d.onBoot f).cc = d.cc := rfl
@[simp] theorem Dev.onBoot_host (f : Boot → Boot) : (d.onBoot f).host = d.host := rfl
@[simp] theorem Dev.onBoot_tel (f : Boot → Boot) : (d.onBoot f).tel = d.tel := rfl
@[simp] theorem Dev.onBoot_health (f : Boot → Boot) : (d.onBoot f).health = d.health := rfl
@[simp] theorem rd_onBoot (f : Boot → Boot) (a : Nat) : rd (d.onBoot f) a = rd d a := rfl

/-! ## `Dev.onFwd` -/

@[simp] theorem Dev.onFwd_regs (f : Fwd → Fwd) : (d.onFwd f).regs = d.regs := rfl
@[simp] theorem Dev.onFwd_now (f : Fwd → Fwd) : (d.onFwd f).now = d.now := rfl
@[simp] theorem Dev.onFwd_freeCtr (f : Fwd → Fwd) : (d.onFwd f).freeCtr = d.freeCtr := rfl
@[simp] theorem Dev.onFwd_pins (f : Fwd → Fwd) : (d.onFwd f).pins = d.pins := rfl
@[simp] theorem Dev.onFwd_boot (f : Fwd → Fwd) : (d.onFwd f).boot = d.boot := rfl
@[simp] theorem Dev.onFwd_ports (f : Fwd → Fwd) : (d.onFwd f).ports = d.ports := rfl
@[simp] theorem Dev.onFwd_modBus (f : Fwd → Fwd) : (d.onFwd f).modBus = d.modBus := rfl
@[simp] theorem Dev.onFwd_fwd (f : Fwd → Fwd) : (d.onFwd f).fwd = f d.fwd := rfl
@[simp] theorem Dev.onFwd_buf (f : Fwd → Fwd) : (d.onFwd f).buf = d.buf := rfl
@[simp] theorem Dev.onFwd_trl (f : Fwd → Fwd) : (d.onFwd f).trl = d.trl := rfl
@[simp] theorem Dev.onFwd_egr (f : Fwd → Fwd) : (d.onFwd f).egr = d.egr := rfl
@[simp] theorem Dev.onFwd_time (f : Fwd → Fwd) : (d.onFwd f).time = d.time := rfl
@[simp] theorem Dev.onFwd_safe (f : Fwd → Fwd) : (d.onFwd f).safe = d.safe := rfl
@[simp] theorem Dev.onFwd_cc (f : Fwd → Fwd) : (d.onFwd f).cc = d.cc := rfl
@[simp] theorem Dev.onFwd_host (f : Fwd → Fwd) : (d.onFwd f).host = d.host := rfl
@[simp] theorem Dev.onFwd_tel (f : Fwd → Fwd) : (d.onFwd f).tel = d.tel := rfl
@[simp] theorem Dev.onFwd_health (f : Fwd → Fwd) : (d.onFwd f).health = d.health := rfl
@[simp] theorem rd_onFwd (f : Fwd → Fwd) (a : Nat) : rd (d.onFwd f) a = rd d a := rfl

/-! ## `Dev.onBuf` -/

@[simp] theorem Dev.onBuf_regs (f : Buf → Buf) : (d.onBuf f).regs = d.regs := rfl
@[simp] theorem Dev.onBuf_now (f : Buf → Buf) : (d.onBuf f).now = d.now := rfl
@[simp] theorem Dev.onBuf_freeCtr (f : Buf → Buf) : (d.onBuf f).freeCtr = d.freeCtr := rfl
@[simp] theorem Dev.onBuf_pins (f : Buf → Buf) : (d.onBuf f).pins = d.pins := rfl
@[simp] theorem Dev.onBuf_boot (f : Buf → Buf) : (d.onBuf f).boot = d.boot := rfl
@[simp] theorem Dev.onBuf_ports (f : Buf → Buf) : (d.onBuf f).ports = d.ports := rfl
@[simp] theorem Dev.onBuf_modBus (f : Buf → Buf) : (d.onBuf f).modBus = d.modBus := rfl
@[simp] theorem Dev.onBuf_fwd (f : Buf → Buf) : (d.onBuf f).fwd = d.fwd := rfl
@[simp] theorem Dev.onBuf_buf (f : Buf → Buf) : (d.onBuf f).buf = f d.buf := rfl
@[simp] theorem Dev.onBuf_trl (f : Buf → Buf) : (d.onBuf f).trl = d.trl := rfl
@[simp] theorem Dev.onBuf_egr (f : Buf → Buf) : (d.onBuf f).egr = d.egr := rfl
@[simp] theorem Dev.onBuf_time (f : Buf → Buf) : (d.onBuf f).time = d.time := rfl
@[simp] theorem Dev.onBuf_safe (f : Buf → Buf) : (d.onBuf f).safe = d.safe := rfl
@[simp] theorem Dev.onBuf_cc (f : Buf → Buf) : (d.onBuf f).cc = d.cc := rfl
@[simp] theorem Dev.onBuf_host (f : Buf → Buf) : (d.onBuf f).host = d.host := rfl
@[simp] theorem Dev.onBuf_tel (f : Buf → Buf) : (d.onBuf f).tel = d.tel := rfl
@[simp] theorem Dev.onBuf_health (f : Buf → Buf) : (d.onBuf f).health = d.health := rfl
@[simp] theorem rd_onBuf (f : Buf → Buf) (a : Nat) : rd (d.onBuf f) a = rd d a := rfl

/-! ## `Dev.onTrl` -/

@[simp] theorem Dev.onTrl_regs (f : Trellis → Trellis) : (d.onTrl f).regs = d.regs := rfl
@[simp] theorem Dev.onTrl_now (f : Trellis → Trellis) : (d.onTrl f).now = d.now := rfl
@[simp] theorem Dev.onTrl_freeCtr (f : Trellis → Trellis) : (d.onTrl f).freeCtr = d.freeCtr := rfl
@[simp] theorem Dev.onTrl_pins (f : Trellis → Trellis) : (d.onTrl f).pins = d.pins := rfl
@[simp] theorem Dev.onTrl_boot (f : Trellis → Trellis) : (d.onTrl f).boot = d.boot := rfl
@[simp] theorem Dev.onTrl_ports (f : Trellis → Trellis) : (d.onTrl f).ports = d.ports := rfl
@[simp] theorem Dev.onTrl_modBus (f : Trellis → Trellis) : (d.onTrl f).modBus = d.modBus := rfl
@[simp] theorem Dev.onTrl_fwd (f : Trellis → Trellis) : (d.onTrl f).fwd = d.fwd := rfl
@[simp] theorem Dev.onTrl_buf (f : Trellis → Trellis) : (d.onTrl f).buf = d.buf := rfl
@[simp] theorem Dev.onTrl_trl (f : Trellis → Trellis) : (d.onTrl f).trl = f d.trl := rfl
@[simp] theorem Dev.onTrl_egr (f : Trellis → Trellis) : (d.onTrl f).egr = d.egr := rfl
@[simp] theorem Dev.onTrl_time (f : Trellis → Trellis) : (d.onTrl f).time = d.time := rfl
@[simp] theorem Dev.onTrl_safe (f : Trellis → Trellis) : (d.onTrl f).safe = d.safe := rfl
@[simp] theorem Dev.onTrl_cc (f : Trellis → Trellis) : (d.onTrl f).cc = d.cc := rfl
@[simp] theorem Dev.onTrl_host (f : Trellis → Trellis) : (d.onTrl f).host = d.host := rfl
@[simp] theorem Dev.onTrl_tel (f : Trellis → Trellis) : (d.onTrl f).tel = d.tel := rfl
@[simp] theorem Dev.onTrl_health (f : Trellis → Trellis) : (d.onTrl f).health = d.health := rfl
@[simp] theorem rd_onTrl (f : Trellis → Trellis) (a : Nat) : rd (d.onTrl f) a = rd d a := rfl

/-! ## `Dev.onTime` -/

@[simp] theorem Dev.onTime_regs (f : TimeSt → TimeSt) : (d.onTime f).regs = d.regs := rfl
@[simp] theorem Dev.onTime_now (f : TimeSt → TimeSt) : (d.onTime f).now = d.now := rfl
@[simp] theorem Dev.onTime_freeCtr (f : TimeSt → TimeSt) : (d.onTime f).freeCtr = d.freeCtr := rfl
@[simp] theorem Dev.onTime_pins (f : TimeSt → TimeSt) : (d.onTime f).pins = d.pins := rfl
@[simp] theorem Dev.onTime_boot (f : TimeSt → TimeSt) : (d.onTime f).boot = d.boot := rfl
@[simp] theorem Dev.onTime_ports (f : TimeSt → TimeSt) : (d.onTime f).ports = d.ports := rfl
@[simp] theorem Dev.onTime_modBus (f : TimeSt → TimeSt) : (d.onTime f).modBus = d.modBus := rfl
@[simp] theorem Dev.onTime_fwd (f : TimeSt → TimeSt) : (d.onTime f).fwd = d.fwd := rfl
@[simp] theorem Dev.onTime_buf (f : TimeSt → TimeSt) : (d.onTime f).buf = d.buf := rfl
@[simp] theorem Dev.onTime_trl (f : TimeSt → TimeSt) : (d.onTime f).trl = d.trl := rfl
@[simp] theorem Dev.onTime_egr (f : TimeSt → TimeSt) : (d.onTime f).egr = d.egr := rfl
@[simp] theorem Dev.onTime_time (f : TimeSt → TimeSt) : (d.onTime f).time = f d.time := rfl
@[simp] theorem Dev.onTime_safe (f : TimeSt → TimeSt) : (d.onTime f).safe = d.safe := rfl
@[simp] theorem Dev.onTime_cc (f : TimeSt → TimeSt) : (d.onTime f).cc = d.cc := rfl
@[simp] theorem Dev.onTime_host (f : TimeSt → TimeSt) : (d.onTime f).host = d.host := rfl
@[simp] theorem Dev.onTime_tel (f : TimeSt → TimeSt) : (d.onTime f).tel = d.tel := rfl
@[simp] theorem Dev.onTime_health (f : TimeSt → TimeSt) : (d.onTime f).health = d.health := rfl
@[simp] theorem rd_onTime (f : TimeSt → TimeSt) (a : Nat) : rd (d.onTime f) a = rd d a := rfl

/-! ## `Dev.onSafe` -/

@[simp] theorem Dev.onSafe_regs (f : Safe → Safe) : (d.onSafe f).regs = d.regs := rfl
@[simp] theorem Dev.onSafe_now (f : Safe → Safe) : (d.onSafe f).now = d.now := rfl
@[simp] theorem Dev.onSafe_freeCtr (f : Safe → Safe) : (d.onSafe f).freeCtr = d.freeCtr := rfl
@[simp] theorem Dev.onSafe_pins (f : Safe → Safe) : (d.onSafe f).pins = d.pins := rfl
@[simp] theorem Dev.onSafe_boot (f : Safe → Safe) : (d.onSafe f).boot = d.boot := rfl
@[simp] theorem Dev.onSafe_ports (f : Safe → Safe) : (d.onSafe f).ports = d.ports := rfl
@[simp] theorem Dev.onSafe_modBus (f : Safe → Safe) : (d.onSafe f).modBus = d.modBus := rfl
@[simp] theorem Dev.onSafe_fwd (f : Safe → Safe) : (d.onSafe f).fwd = d.fwd := rfl
@[simp] theorem Dev.onSafe_buf (f : Safe → Safe) : (d.onSafe f).buf = d.buf := rfl
@[simp] theorem Dev.onSafe_trl (f : Safe → Safe) : (d.onSafe f).trl = d.trl := rfl
@[simp] theorem Dev.onSafe_egr (f : Safe → Safe) : (d.onSafe f).egr = d.egr := rfl
@[simp] theorem Dev.onSafe_time (f : Safe → Safe) : (d.onSafe f).time = d.time := rfl
@[simp] theorem Dev.onSafe_safe (f : Safe → Safe) : (d.onSafe f).safe = f d.safe := rfl
@[simp] theorem Dev.onSafe_cc (f : Safe → Safe) : (d.onSafe f).cc = d.cc := rfl
@[simp] theorem Dev.onSafe_host (f : Safe → Safe) : (d.onSafe f).host = d.host := rfl
@[simp] theorem Dev.onSafe_tel (f : Safe → Safe) : (d.onSafe f).tel = d.tel := rfl
@[simp] theorem Dev.onSafe_health (f : Safe → Safe) : (d.onSafe f).health = d.health := rfl
@[simp] theorem rd_onSafe (f : Safe → Safe) (a : Nat) : rd (d.onSafe f) a = rd d a := rfl

/-! ## `Dev.onCc` -/

@[simp] theorem Dev.onCc_regs (f : Ctrl → Ctrl) : (d.onCc f).regs = d.regs := rfl
@[simp] theorem Dev.onCc_now (f : Ctrl → Ctrl) : (d.onCc f).now = d.now := rfl
@[simp] theorem Dev.onCc_freeCtr (f : Ctrl → Ctrl) : (d.onCc f).freeCtr = d.freeCtr := rfl
@[simp] theorem Dev.onCc_pins (f : Ctrl → Ctrl) : (d.onCc f).pins = d.pins := rfl
@[simp] theorem Dev.onCc_boot (f : Ctrl → Ctrl) : (d.onCc f).boot = d.boot := rfl
@[simp] theorem Dev.onCc_ports (f : Ctrl → Ctrl) : (d.onCc f).ports = d.ports := rfl
@[simp] theorem Dev.onCc_modBus (f : Ctrl → Ctrl) : (d.onCc f).modBus = d.modBus := rfl
@[simp] theorem Dev.onCc_fwd (f : Ctrl → Ctrl) : (d.onCc f).fwd = d.fwd := rfl
@[simp] theorem Dev.onCc_buf (f : Ctrl → Ctrl) : (d.onCc f).buf = d.buf := rfl
@[simp] theorem Dev.onCc_trl (f : Ctrl → Ctrl) : (d.onCc f).trl = d.trl := rfl
@[simp] theorem Dev.onCc_egr (f : Ctrl → Ctrl) : (d.onCc f).egr = d.egr := rfl
@[simp] theorem Dev.onCc_time (f : Ctrl → Ctrl) : (d.onCc f).time = d.time := rfl
@[simp] theorem Dev.onCc_safe (f : Ctrl → Ctrl) : (d.onCc f).safe = d.safe := rfl
@[simp] theorem Dev.onCc_cc (f : Ctrl → Ctrl) : (d.onCc f).cc = f d.cc := rfl
@[simp] theorem Dev.onCc_host (f : Ctrl → Ctrl) : (d.onCc f).host = d.host := rfl
@[simp] theorem Dev.onCc_tel (f : Ctrl → Ctrl) : (d.onCc f).tel = d.tel := rfl
@[simp] theorem Dev.onCc_health (f : Ctrl → Ctrl) : (d.onCc f).health = d.health := rfl
@[simp] theorem rd_onCc (f : Ctrl → Ctrl) (a : Nat) : rd (d.onCc f) a = rd d a := rfl

/-! ## `Dev.onHost` -/

@[simp] theorem Dev.onHost_regs (f : HostIf → HostIf) : (d.onHost f).regs = d.regs := rfl
@[simp] theorem Dev.onHost_now (f : HostIf → HostIf) : (d.onHost f).now = d.now := rfl
@[simp] theorem Dev.onHost_freeCtr (f : HostIf → HostIf) : (d.onHost f).freeCtr = d.freeCtr := rfl
@[simp] theorem Dev.onHost_pins (f : HostIf → HostIf) : (d.onHost f).pins = d.pins := rfl
@[simp] theorem Dev.onHost_boot (f : HostIf → HostIf) : (d.onHost f).boot = d.boot := rfl
@[simp] theorem Dev.onHost_ports (f : HostIf → HostIf) : (d.onHost f).ports = d.ports := rfl
@[simp] theorem Dev.onHost_modBus (f : HostIf → HostIf) : (d.onHost f).modBus = d.modBus := rfl
@[simp] theorem Dev.onHost_fwd (f : HostIf → HostIf) : (d.onHost f).fwd = d.fwd := rfl
@[simp] theorem Dev.onHost_buf (f : HostIf → HostIf) : (d.onHost f).buf = d.buf := rfl
@[simp] theorem Dev.onHost_trl (f : HostIf → HostIf) : (d.onHost f).trl = d.trl := rfl
@[simp] theorem Dev.onHost_egr (f : HostIf → HostIf) : (d.onHost f).egr = d.egr := rfl
@[simp] theorem Dev.onHost_time (f : HostIf → HostIf) : (d.onHost f).time = d.time := rfl
@[simp] theorem Dev.onHost_safe (f : HostIf → HostIf) : (d.onHost f).safe = d.safe := rfl
@[simp] theorem Dev.onHost_cc (f : HostIf → HostIf) : (d.onHost f).cc = d.cc := rfl
@[simp] theorem Dev.onHost_host (f : HostIf → HostIf) : (d.onHost f).host = f d.host := rfl
@[simp] theorem Dev.onHost_tel (f : HostIf → HostIf) : (d.onHost f).tel = d.tel := rfl
@[simp] theorem Dev.onHost_health (f : HostIf → HostIf) : (d.onHost f).health = d.health := rfl
@[simp] theorem rd_onHost (f : HostIf → HostIf) (a : Nat) : rd (d.onHost f) a = rd d a := rfl

/-! ## `Dev.onTel` -/

@[simp] theorem Dev.onTel_regs (f : Telem → Telem) : (d.onTel f).regs = d.regs := rfl
@[simp] theorem Dev.onTel_now (f : Telem → Telem) : (d.onTel f).now = d.now := rfl
@[simp] theorem Dev.onTel_freeCtr (f : Telem → Telem) : (d.onTel f).freeCtr = d.freeCtr := rfl
@[simp] theorem Dev.onTel_pins (f : Telem → Telem) : (d.onTel f).pins = d.pins := rfl
@[simp] theorem Dev.onTel_boot (f : Telem → Telem) : (d.onTel f).boot = d.boot := rfl
@[simp] theorem Dev.onTel_ports (f : Telem → Telem) : (d.onTel f).ports = d.ports := rfl
@[simp] theorem Dev.onTel_modBus (f : Telem → Telem) : (d.onTel f).modBus = d.modBus := rfl
@[simp] theorem Dev.onTel_fwd (f : Telem → Telem) : (d.onTel f).fwd = d.fwd := rfl
@[simp] theorem Dev.onTel_buf (f : Telem → Telem) : (d.onTel f).buf = d.buf := rfl
@[simp] theorem Dev.onTel_trl (f : Telem → Telem) : (d.onTel f).trl = d.trl := rfl
@[simp] theorem Dev.onTel_egr (f : Telem → Telem) : (d.onTel f).egr = d.egr := rfl
@[simp] theorem Dev.onTel_time (f : Telem → Telem) : (d.onTel f).time = d.time := rfl
@[simp] theorem Dev.onTel_safe (f : Telem → Telem) : (d.onTel f).safe = d.safe := rfl
@[simp] theorem Dev.onTel_cc (f : Telem → Telem) : (d.onTel f).cc = d.cc := rfl
@[simp] theorem Dev.onTel_host (f : Telem → Telem) : (d.onTel f).host = d.host := rfl
@[simp] theorem Dev.onTel_tel (f : Telem → Telem) : (d.onTel f).tel = f d.tel := rfl
@[simp] theorem Dev.onTel_health (f : Telem → Telem) : (d.onTel f).health = d.health := rfl
@[simp] theorem rd_onTel (f : Telem → Telem) (a : Nat) : rd (d.onTel f) a = rd d a := rfl

/-! ## `Dev.onHealth` -/

@[simp] theorem Dev.onHealth_regs (f : Health → Health) : (d.onHealth f).regs = d.regs := rfl
@[simp] theorem Dev.onHealth_now (f : Health → Health) : (d.onHealth f).now = d.now := rfl
@[simp] theorem Dev.onHealth_freeCtr (f : Health → Health) : (d.onHealth f).freeCtr = d.freeCtr := rfl
@[simp] theorem Dev.onHealth_pins (f : Health → Health) : (d.onHealth f).pins = d.pins := rfl
@[simp] theorem Dev.onHealth_boot (f : Health → Health) : (d.onHealth f).boot = d.boot := rfl
@[simp] theorem Dev.onHealth_ports (f : Health → Health) : (d.onHealth f).ports = d.ports := rfl
@[simp] theorem Dev.onHealth_modBus (f : Health → Health) : (d.onHealth f).modBus = d.modBus := rfl
@[simp] theorem Dev.onHealth_fwd (f : Health → Health) : (d.onHealth f).fwd = d.fwd := rfl
@[simp] theorem Dev.onHealth_buf (f : Health → Health) : (d.onHealth f).buf = d.buf := rfl
@[simp] theorem Dev.onHealth_trl (f : Health → Health) : (d.onHealth f).trl = d.trl := rfl
@[simp] theorem Dev.onHealth_egr (f : Health → Health) : (d.onHealth f).egr = d.egr := rfl
@[simp] theorem Dev.onHealth_time (f : Health → Health) : (d.onHealth f).time = d.time := rfl
@[simp] theorem Dev.onHealth_safe (f : Health → Health) : (d.onHealth f).safe = d.safe := rfl
@[simp] theorem Dev.onHealth_cc (f : Health → Health) : (d.onHealth f).cc = d.cc := rfl
@[simp] theorem Dev.onHealth_host (f : Health → Health) : (d.onHealth f).host = d.host := rfl
@[simp] theorem Dev.onHealth_tel (f : Health → Health) : (d.onHealth f).tel = d.tel := rfl
@[simp] theorem Dev.onHealth_health (f : Health → Health) : (d.onHealth f).health = f d.health := rfl
@[simp] theorem rd_onHealth (f : Health → Health) (a : Nat) : rd (d.onHealth f) a = rd d a := rfl

/-! ## Instances -/

@[simp] theorem setPort_regs (p : Nat) (f : PortSt → PortSt) : (setPort d p f).regs = d.regs := rfl
@[simp] theorem setPort_now (p : Nat) (f : PortSt → PortSt) : (setPort d p f).now = d.now := rfl
@[simp] theorem setPort_freeCtr (p : Nat) (f : PortSt → PortSt) : (setPort d p f).freeCtr = d.freeCtr := rfl
@[simp] theorem setPort_pins (p : Nat) (f : PortSt → PortSt) : (setPort d p f).pins = d.pins := rfl
@[simp] theorem setPort_boot (p : Nat) (f : PortSt → PortSt) : (setPort d p f).boot = d.boot := rfl
@[simp] theorem setPort_modBus (p : Nat) (f : PortSt → PortSt) : (setPort d p f).modBus = d.modBus := rfl
@[simp] theorem setPort_fwd (p : Nat) (f : PortSt → PortSt) : (setPort d p f).fwd = d.fwd := rfl
@[simp] theorem setPort_buf (p : Nat) (f : PortSt → PortSt) : (setPort d p f).buf = d.buf := rfl
@[simp] theorem setPort_trl (p : Nat) (f : PortSt → PortSt) : (setPort d p f).trl = d.trl := rfl
@[simp] theorem setPort_egr (p : Nat) (f : PortSt → PortSt) : (setPort d p f).egr = d.egr := rfl
@[simp] theorem setPort_time (p : Nat) (f : PortSt → PortSt) : (setPort d p f).time = d.time := rfl
@[simp] theorem setPort_safe (p : Nat) (f : PortSt → PortSt) : (setPort d p f).safe = d.safe := rfl
@[simp] theorem setPort_cc (p : Nat) (f : PortSt → PortSt) : (setPort d p f).cc = d.cc := rfl
@[simp] theorem setPort_host (p : Nat) (f : PortSt → PortSt) : (setPort d p f).host = d.host := rfl
@[simp] theorem setPort_tel (p : Nat) (f : PortSt → PortSt) : (setPort d p f).tel = d.tel := rfl
@[simp] theorem setPort_health (p : Nat) (f : PortSt → PortSt) : (setPort d p f).health = d.health := rfl
@[simp] theorem rd_setPort (p : Nat) (f : PortSt → PortSt) (a : Nat) : rd (setPort d p f) a = rd d a := rfl
@[simp] theorem portOf_setPort_self (p : Nat) (f : PortSt → PortSt) : portOf (setPort d p f) p = f (portOf d p) := tget_tmod_self ..
theorem portOf_setPort_ne {p q : Nat} (f : PortSt → PortSt) (h : q ≠ p) : portOf (setPort d p f) q = portOf d q := tget_tmod_ne _ _ f h

@[simp] theorem setEgr_regs (p : Nat) (f : EgrPort → EgrPort) : (setEgr d p f).regs = d.regs := rfl
@[simp] theorem setEgr_now (p : Nat) (f : EgrPort → EgrPort) : (setEgr d p f).now = d.now := rfl
@[simp] theorem setEgr_freeCtr (p : Nat) (f : EgrPort → EgrPort) : (setEgr d p f).freeCtr = d.freeCtr := rfl
@[simp] theorem setEgr_pins (p : Nat) (f : EgrPort → EgrPort) : (setEgr d p f).pins = d.pins := rfl
@[simp] theorem setEgr_boot (p : Nat) (f : EgrPort → EgrPort) : (setEgr d p f).boot = d.boot := rfl
@[simp] theorem setEgr_ports (p : Nat) (f : EgrPort → EgrPort) : (setEgr d p f).ports = d.ports := rfl
@[simp] theorem setEgr_modBus (p : Nat) (f : EgrPort → EgrPort) : (setEgr d p f).modBus = d.modBus := rfl
@[simp] theorem setEgr_fwd (p : Nat) (f : EgrPort → EgrPort) : (setEgr d p f).fwd = d.fwd := rfl
@[simp] theorem setEgr_buf (p : Nat) (f : EgrPort → EgrPort) : (setEgr d p f).buf = d.buf := rfl
@[simp] theorem setEgr_trl (p : Nat) (f : EgrPort → EgrPort) : (setEgr d p f).trl = d.trl := rfl
@[simp] theorem setEgr_time (p : Nat) (f : EgrPort → EgrPort) : (setEgr d p f).time = d.time := rfl
@[simp] theorem setEgr_safe (p : Nat) (f : EgrPort → EgrPort) : (setEgr d p f).safe = d.safe := rfl
@[simp] theorem setEgr_cc (p : Nat) (f : EgrPort → EgrPort) : (setEgr d p f).cc = d.cc := rfl
@[simp] theorem setEgr_host (p : Nat) (f : EgrPort → EgrPort) : (setEgr d p f).host = d.host := rfl
@[simp] theorem setEgr_tel (p : Nat) (f : EgrPort → EgrPort) : (setEgr d p f).tel = d.tel := rfl
@[simp] theorem setEgr_health (p : Nat) (f : EgrPort → EgrPort) : (setEgr d p f).health = d.health := rfl
@[simp] theorem rd_setEgr (p : Nat) (f : EgrPort → EgrPort) (a : Nat) : rd (setEgr d p f) a = rd d a := rfl
@[simp] theorem egrOf_setEgr_self (p : Nat) (f : EgrPort → EgrPort) : egrOf (setEgr d p f) p = f (egrOf d p) := tget_tmod_self ..
theorem egrOf_setEgr_ne {p q : Nat} (f : EgrPort → EgrPort) (h : q ≠ p) : egrOf (setEgr d p f) q = egrOf d q := tget_tmod_ne _ _ f h

@[simp] theorem setChan_regs (p : Nat) (f : Chan → Chan) : (setChan d p f).regs = d.regs := rfl
@[simp] theorem setChan_now (p : Nat) (f : Chan → Chan) : (setChan d p f).now = d.now := rfl
@[simp] theorem setChan_freeCtr (p : Nat) (f : Chan → Chan) : (setChan d p f).freeCtr = d.freeCtr := rfl
@[simp] theorem setChan_pins (p : Nat) (f : Chan → Chan) : (setChan d p f).pins = d.pins := rfl
@[simp] theorem setChan_boot (p : Nat) (f : Chan → Chan) : (setChan d p f).boot = d.boot := rfl
@[simp] theorem setChan_ports (p : Nat) (f : Chan → Chan) : (setChan d p f).ports = d.ports := rfl
@[simp] theorem setChan_modBus (p : Nat) (f : Chan → Chan) : (setChan d p f).modBus = d.modBus := rfl
@[simp] theorem setChan_fwd (p : Nat) (f : Chan → Chan) : (setChan d p f).fwd = d.fwd := rfl
@[simp] theorem setChan_buf (p : Nat) (f : Chan → Chan) : (setChan d p f).buf = d.buf := rfl
@[simp] theorem setChan_trl (p : Nat) (f : Chan → Chan) : (setChan d p f).trl = d.trl := rfl
@[simp] theorem setChan_egr (p : Nat) (f : Chan → Chan) : (setChan d p f).egr = d.egr := rfl
@[simp] theorem setChan_time (p : Nat) (f : Chan → Chan) : (setChan d p f).time = d.time := rfl
@[simp] theorem setChan_safe (p : Nat) (f : Chan → Chan) : (setChan d p f).safe = d.safe := rfl
@[simp] theorem setChan_cc (p : Nat) (f : Chan → Chan) : (setChan d p f).cc = d.cc := rfl
@[simp] theorem setChan_tel (p : Nat) (f : Chan → Chan) : (setChan d p f).tel = d.tel := rfl
@[simp] theorem setChan_health (p : Nat) (f : Chan → Chan) : (setChan d p f).health = d.health := rfl
@[simp] theorem rd_setChan (p : Nat) (f : Chan → Chan) (a : Nat) : rd (setChan d p f) a = rd d a := rfl
@[simp] theorem chanOf_setChan_self (p : Nat) (f : Chan → Chan) : chanOf (setChan d p f) p = f (chanOf d p) := tget_tmod_self ..
theorem chanOf_setChan_ne {p q : Nat} (f : Chan → Chan) (h : q ≠ p) : chanOf (setChan d p f) q = chanOf d q := tget_tmod_ne _ _ f h

@[simp] theorem setThr_regs (p : Nat) (f : Thr → Thr) : (setThr d p f).regs = d.regs := rfl
@[simp] theorem setThr_now (p : Nat) (f : Thr → Thr) : (setThr d p f).now = d.now := rfl
@[simp] theorem setThr_freeCtr (p : Nat) (f : Thr → Thr) : (setThr d p f).freeCtr = d.freeCtr := rfl
@[simp] theorem setThr_pins (p : Nat) (f : Thr → Thr) : (setThr d p f).pins = d.pins := rfl
@[simp] theorem setThr_boot (p : Nat) (f : Thr → Thr) : (setThr d p f).boot = d.boot := rfl
@[simp] theorem setThr_ports (p : Nat) (f : Thr → Thr) : (setThr d p f).ports = d.ports := rfl
@[simp] theorem setThr_modBus (p : Nat) (f : Thr → Thr) : (setThr d p f).modBus = d.modBus := rfl
@[simp] theorem setThr_fwd (p : Nat) (f : Thr → Thr) : (setThr d p f).fwd = d.fwd := rfl
@[simp] theorem setThr_buf (p : Nat) (f : Thr → Thr) : (setThr d p f).buf = d.buf := rfl
@[simp] theorem setThr_trl (p : Nat) (f : Thr → Thr) : (setThr d p f).trl = d.trl := rfl
@[simp] theorem setThr_egr (p : Nat) (f : Thr → Thr) : (setThr d p f).egr = d.egr := rfl
@[simp] theorem setThr_time (p : Nat) (f : Thr → Thr) : (setThr d p f).time = d.time := rfl
@[simp] theorem setThr_safe (p : Nat) (f : Thr → Thr) : (setThr d p f).safe = d.safe := rfl
@[simp] theorem setThr_host (p : Nat) (f : Thr → Thr) : (setThr d p f).host = d.host := rfl
@[simp] theorem setThr_tel (p : Nat) (f : Thr → Thr) : (setThr d p f).tel = d.tel := rfl
@[simp] theorem setThr_health (p : Nat) (f : Thr → Thr) : (setThr d p f).health = d.health := rfl
@[simp] theorem rd_setThr (p : Nat) (f : Thr → Thr) (a : Nat) : rd (setThr d p f) a = rd d a := rfl
@[simp] theorem thrOf_setThr_self (p : Nat) (f : Thr → Thr) : thrOf (setThr d p f) p = f (thrOf d p) := tget_tmod_self ..
theorem thrOf_setThr_ne {p q : Nat} (f : Thr → Thr) (h : q ≠ p) : thrOf (setThr d p f) q = thrOf d q := tget_tmod_ne _ _ f h

@[simp] theorem setCore_regs (p : Nat) (f : Core → Core) : (setCore d p f).regs = d.regs := rfl
@[simp] theorem setCore_now (p : Nat) (f : Core → Core) : (setCore d p f).now = d.now := rfl
@[simp] theorem setCore_freeCtr (p : Nat) (f : Core → Core) : (setCore d p f).freeCtr = d.freeCtr := rfl
@[simp] theorem setCore_pins (p : Nat) (f : Core → Core) : (setCore d p f).pins = d.pins := rfl
@[simp] theorem setCore_boot (p : Nat) (f : Core → Core) : (setCore d p f).boot = d.boot := rfl
@[simp] theorem setCore_ports (p : Nat) (f : Core → Core) : (setCore d p f).ports = d.ports := rfl
@[simp] theorem setCore_modBus (p : Nat) (f : Core → Core) : (setCore d p f).modBus = d.modBus := rfl
@[simp] theorem setCore_fwd (p : Nat) (f : Core → Core) : (setCore d p f).fwd = d.fwd := rfl
@[simp] theorem setCore_buf (p : Nat) (f : Core → Core) : (setCore d p f).buf = d.buf := rfl
@[simp] theorem setCore_trl (p : Nat) (f : Core → Core) : (setCore d p f).trl = d.trl := rfl
@[simp] theorem setCore_egr (p : Nat) (f : Core → Core) : (setCore d p f).egr = d.egr := rfl
@[simp] theorem setCore_time (p : Nat) (f : Core → Core) : (setCore d p f).time = d.time := rfl
@[simp] theorem setCore_safe (p : Nat) (f : Core → Core) : (setCore d p f).safe = d.safe := rfl
@[simp] theorem setCore_host (p : Nat) (f : Core → Core) : (setCore d p f).host = d.host := rfl
@[simp] theorem setCore_tel (p : Nat) (f : Core → Core) : (setCore d p f).tel = d.tel := rfl
@[simp] theorem setCore_health (p : Nat) (f : Core → Core) : (setCore d p f).health = d.health := rfl
@[simp] theorem rd_setCore (p : Nat) (f : Core → Core) (a : Nat) : rd (setCore d p f) a = rd d a := rfl
@[simp] theorem coreOf_setCore_self (p : Nat) (f : Core → Core) : coreOf (setCore d p f) p = f (coreOf d p) := tget_tmod_self ..
theorem coreOf_setCore_ne {p q : Nat} (f : Core → Core) (h : q ≠ p) : coreOf (setCore d p f) q = coreOf d q := tget_tmod_ne _ _ f h

@[simp] theorem setGuard_regs (p : Nat) (f : Guard → Guard) : (setGuard d p f).regs = d.regs := rfl
@[simp] theorem setGuard_now (p : Nat) (f : Guard → Guard) : (setGuard d p f).now = d.now := rfl
@[simp] theorem setGuard_freeCtr (p : Nat) (f : Guard → Guard) : (setGuard d p f).freeCtr = d.freeCtr := rfl
@[simp] theorem setGuard_pins (p : Nat) (f : Guard → Guard) : (setGuard d p f).pins = d.pins := rfl
@[simp] theorem setGuard_boot (p : Nat) (f : Guard → Guard) : (setGuard d p f).boot = d.boot := rfl
@[simp] theorem setGuard_ports (p : Nat) (f : Guard → Guard) : (setGuard d p f).ports = d.ports := rfl
@[simp] theorem setGuard_modBus (p : Nat) (f : Guard → Guard) : (setGuard d p f).modBus = d.modBus := rfl
@[simp] theorem setGuard_fwd (p : Nat) (f : Guard → Guard) : (setGuard d p f).fwd = d.fwd := rfl
@[simp] theorem setGuard_buf (p : Nat) (f : Guard → Guard) : (setGuard d p f).buf = d.buf := rfl
@[simp] theorem setGuard_trl (p : Nat) (f : Guard → Guard) : (setGuard d p f).trl = d.trl := rfl
@[simp] theorem setGuard_egr (p : Nat) (f : Guard → Guard) : (setGuard d p f).egr = d.egr := rfl
@[simp] theorem setGuard_time (p : Nat) (f : Guard → Guard) : (setGuard d p f).time = d.time := rfl
@[simp] theorem setGuard_cc (p : Nat) (f : Guard → Guard) : (setGuard d p f).cc = d.cc := rfl
@[simp] theorem setGuard_host (p : Nat) (f : Guard → Guard) : (setGuard d p f).host = d.host := rfl
@[simp] theorem setGuard_tel (p : Nat) (f : Guard → Guard) : (setGuard d p f).tel = d.tel := rfl
@[simp] theorem setGuard_health (p : Nat) (f : Guard → Guard) : (setGuard d p f).health = d.health := rfl
@[simp] theorem rd_setGuard (p : Nat) (f : Guard → Guard) (a : Nat) : rd (setGuard d p f) a = rd d a := rfl
@[simp] theorem guardOf_setGuard_self (p : Nat) (f : Guard → Guard) : guardOf (setGuard d p f) p = f (guardOf d p) := tget_tmod_self ..
theorem guardOf_setGuard_ne {p q : Nat} (f : Guard → Guard) (h : q ≠ p) : guardOf (setGuard d p f) q = guardOf d q := tget_tmod_ne _ _ f h

@[simp] theorem setChan_host_busMaster (p : Nat) (f : Chan → Chan) : (setChan d p f).host.busMaster = d.host.busMaster := rfl
@[simp] theorem setChan_host_d3 (p : Nat) (f : Chan → Chan) : (setChan d p f).host.d3 = d.host.d3 := rfl
@[simp] theorem setChan_host_pcie (p : Nat) (f : Chan → Chan) : (setChan d p f).host.pcie = d.host.pcie := rfl
@[simp] theorem setChan_host_disarmed (p : Nat) (f : Chan → Chan) : (setChan d p f).host.disarmed = d.host.disarmed := rfl
@[simp] theorem setChan_host_masked (p : Nat) (f : Chan → Chan) : (setChan d p f).host.masked = d.host.masked := rfl
@[simp] theorem setChan_host_pba (p : Nat) (f : Chan → Chan) : (setChan d p f).host.pba = d.host.pba := rfl
@[simp] theorem setChan_host_msix (p : Nat) (f : Chan → Chan) : (setChan d p f).host.msix = d.host.msix := rfl
@[simp] theorem setChan_host_msgs (p : Nat) (f : Chan → Chan) : (setChan d p f).host.msgs = d.host.msgs := rfl
@[simp] theorem setChan_host_notes (p : Nat) (f : Chan → Chan) : (setChan d p f).host.notes = d.host.notes := rfl
@[simp] theorem setChan_host_trapQ (p : Nat) (f : Chan → Chan) : (setChan d p f).host.trapQ = d.host.trapQ := rfl
@[simp] theorem setChan_host_trapBkt (p : Nat) (f : Chan → Chan) : (setChan d p f).host.trapBkt = d.host.trapBkt := rfl
@[simp] theorem setChan_host_inject (p : Nat) (f : Chan → Chan) : (setChan d p f).host.inject = d.host.inject := rfl
@[simp] theorem setChan_host_done (p : Nat) (f : Chan → Chan) : (setChan d p f).host.done = d.host.done := rfl
@[simp] theorem setChan_host_parBad (p : Nat) (f : Chan → Chan) : (setChan d p f).host.parBad = d.host.parBad := rfl
@[simp] theorem setChan_host_parQ (p : Nat) (f : Chan → Chan) : (setChan d p f).host.parQ = d.host.parQ := rfl
@[simp] theorem setChan_host_staging (p : Nat) (f : Chan → Chan) : (setChan d p f).host.staging = d.host.staging := rfl
@[simp] theorem setChan_host_rdata (p : Nat) (f : Chan → Chan) : (setChan d p f).host.rdata = d.host.rdata := rfl
@[simp] theorem setChan_host_cfg (p : Nat) (f : Chan → Chan) : (setChan d p f).host.cfg = d.host.cfg := rfl
@[simp] theorem setChan_host_vintage (p : Nat) (f : Chan → Chan) : (setChan d p f).host.vintage = d.host.vintage := rfl
@[simp] theorem setThr_cc_core (p : Nat) (f : Thr → Thr) : (setThr d p f).cc.core = d.cc.core := rfl
@[simp] theorem setThr_cc_held (p : Nat) (f : Thr → Thr) : (setThr d p f).cc.held = d.cc.held := rfl
@[simp] theorem setThr_cc_fewest (p : Nat) (f : Thr → Thr) : (setThr d p f).cc.fewest = d.cc.fewest := rfl
@[simp] theorem setThr_cc_wdogAt (p : Nat) (f : Thr → Thr) : (setThr d p f).cc.wdogAt = d.cc.wdogAt := rfl
@[simp] theorem setThr_cc_cmFatal (p : Nat) (f : Thr → Thr) : (setThr d p f).cc.cmFatal = d.cc.cmFatal := rfl
@[simp] theorem setThr_cc_answer (p : Nat) (f : Thr → Thr) : (setThr d p f).cc.answer = d.cc.answer := rfl
@[simp] theorem setThr_cc_answers (p : Nat) (f : Thr → Thr) : (setThr d p f).cc.answers = d.cc.answers := rfl
@[simp] theorem setCore_cc_thr (p : Nat) (f : Core → Core) : (setCore d p f).cc.thr = d.cc.thr := rfl
@[simp] theorem setCore_cc_held (p : Nat) (f : Core → Core) : (setCore d p f).cc.held = d.cc.held := rfl
@[simp] theorem setCore_cc_fewest (p : Nat) (f : Core → Core) : (setCore d p f).cc.fewest = d.cc.fewest := rfl
@[simp] theorem setCore_cc_wdogAt (p : Nat) (f : Core → Core) : (setCore d p f).cc.wdogAt = d.cc.wdogAt := rfl
@[simp] theorem setCore_cc_cmFatal (p : Nat) (f : Core → Core) : (setCore d p f).cc.cmFatal = d.cc.cmFatal := rfl
@[simp] theorem setCore_cc_answer (p : Nat) (f : Core → Core) : (setCore d p f).cc.answer = d.cc.answer := rfl
@[simp] theorem setCore_cc_answers (p : Nat) (f : Core → Core) : (setCore d p f).cc.answers = d.cc.answers := rfl
@[simp] theorem setGuard_safe_cfg (p : Nat) (f : Guard → Guard) : (setGuard d p f).safe.cfg = d.safe.cfg := rfl
@[simp] theorem setGuard_safe_hk (p : Nat) (f : Guard → Guard) : (setGuard d p f).safe.hk = d.safe.hk := rfl
@[simp] theorem setGuard_safe_tileVids (p : Nat) (f : Guard → Guard) : (setGuard d p f).safe.tileVids = d.safe.tileVids := rfl
@[simp] theorem setGuard_safe_stageVids (p : Nat) (f : Guard → Guard) : (setGuard d p f).safe.stageVids = d.safe.stageVids := rfl
@[simp] theorem setGuard_safe_tsw (p : Nat) (f : Guard → Guard) : (setGuard d p f).safe.tsw = d.safe.tsw := rfl
@[simp] theorem setGuard_safe_loaded (p : Nat) (f : Guard → Guard) : (setGuard d p f).safe.loaded = d.safe.loaded := rfl
@[simp] theorem setGuard_safe_edit (p : Nat) (f : Guard → Guard) : (setGuard d p f).safe.edit = d.safe.edit := rfl
@[simp] theorem setGuard_safe_armedHk (p : Nat) (f : Guard → Guard) : (setGuard d p f).safe.armedHk = d.safe.armedHk := rfl
@[simp] theorem setGuard_safe_degradeFrom (p : Nat) (f : Guard → Guard) : (setGuard d p f).safe.degradeFrom = d.safe.degradeFrom := rfl
@[simp] theorem setGuard_safe_proofs (p : Nat) (f : Guard → Guard) : (setGuard d p f).safe.proofs = d.safe.proofs := rfl
@[simp] theorem setGuard_safe_disc (p : Nat) (f : Guard → Guard) : (setGuard d p f).safe.disc = d.safe.disc := rfl
@[simp] theorem setGuard_safe_clearing (p : Nat) (f : Guard → Guard) : (setGuard d p f).safe.clearing = d.safe.clearing := rfl
@[simp] theorem setGuard_safe_ackFallAt (p : Nat) (f : Guard → Guard) : (setGuard d p f).safe.ackFallAt = d.safe.ackFallAt := rfl
@[simp] theorem setGuard_safe_ackRiseAt (p : Nat) (f : Guard → Guard) : (setGuard d p f).safe.ackRiseAt = d.safe.ackRiseAt := rfl
@[simp] theorem setGuard_safe_teleAt (p : Nat) (f : Guard → Guard) : (setGuard d p f).safe.teleAt = d.safe.teleAt := rfl
@[simp] theorem setGuard_safe_teleDue (p : Nat) (f : Guard → Guard) : (setGuard d p f).safe.teleDue = d.safe.teleDue := rfl
@[simp] theorem setGuard_safe_lastSent (p : Nat) (f : Guard → Guard) : (setGuard d p f).safe.lastSent = d.safe.lastSent := rfl
/-! ## `fresh` and `wr` -/

@[simp] theorem fresh_regs : (fresh d).2.regs = d.regs := rfl
@[simp] theorem fresh_now : (fresh d).2.now = d.now := rfl
@[simp] theorem fresh_pins : (fresh d).2.pins = d.pins := rfl
@[simp] theorem fresh_boot : (fresh d).2.boot = d.boot := rfl
@[simp] theorem fresh_ports : (fresh d).2.ports = d.ports := rfl
@[simp] theorem fresh_modBus : (fresh d).2.modBus = d.modBus := rfl
@[simp] theorem fresh_fwd : (fresh d).2.fwd = d.fwd := rfl
@[simp] theorem fresh_buf : (fresh d).2.buf = d.buf := rfl
@[simp] theorem fresh_trl : (fresh d).2.trl = d.trl := rfl
@[simp] theorem fresh_egr : (fresh d).2.egr = d.egr := rfl
@[simp] theorem fresh_time : (fresh d).2.time = d.time := rfl
@[simp] theorem fresh_safe : (fresh d).2.safe = d.safe := rfl
@[simp] theorem fresh_cc : (fresh d).2.cc = d.cc := rfl
@[simp] theorem fresh_host : (fresh d).2.host = d.host := rfl
@[simp] theorem fresh_tel : (fresh d).2.tel = d.tel := rfl
@[simp] theorem fresh_health : (fresh d).2.health = d.health := rfl
@[simp] theorem rd_fresh (a : Nat) : rd (fresh d).2 a = rd d a := rfl

@[simp] theorem wr_now (a v : Nat) : (wr d a v).now = d.now := rfl
@[simp] theorem wr_freeCtr (a v : Nat) : (wr d a v).freeCtr = d.freeCtr := rfl
@[simp] theorem wr_pins (a v : Nat) : (wr d a v).pins = d.pins := rfl
@[simp] theorem wr_boot (a v : Nat) : (wr d a v).boot = d.boot := rfl
@[simp] theorem wr_ports (a v : Nat) : (wr d a v).ports = d.ports := rfl
@[simp] theorem wr_modBus (a v : Nat) : (wr d a v).modBus = d.modBus := rfl
@[simp] theorem wr_fwd (a v : Nat) : (wr d a v).fwd = d.fwd := rfl
@[simp] theorem wr_buf (a v : Nat) : (wr d a v).buf = d.buf := rfl
@[simp] theorem wr_trl (a v : Nat) : (wr d a v).trl = d.trl := rfl
@[simp] theorem wr_egr (a v : Nat) : (wr d a v).egr = d.egr := rfl
@[simp] theorem wr_time (a v : Nat) : (wr d a v).time = d.time := rfl
@[simp] theorem wr_safe (a v : Nat) : (wr d a v).safe = d.safe := rfl
@[simp] theorem wr_cc (a v : Nat) : (wr d a v).cc = d.cc := rfl
@[simp] theorem wr_tel (a v : Nat) : (wr d a v).tel = d.tel := rfl
@[simp] theorem wr_health (a v : Nat) : (wr d a v).health = d.health := rfl
@[simp] theorem wr_host_chan (a v : Nat) : (wr d a v).host.chan = d.host.chan := rfl
@[simp] theorem wr_host_busMaster (a v : Nat) : (wr d a v).host.busMaster = d.host.busMaster := rfl
@[simp] theorem wr_host_d3 (a v : Nat) : (wr d a v).host.d3 = d.host.d3 := rfl
@[simp] theorem wr_host_pcie (a v : Nat) : (wr d a v).host.pcie = d.host.pcie := rfl
@[simp] theorem wr_host_disarmed (a v : Nat) : (wr d a v).host.disarmed = d.host.disarmed := rfl
@[simp] theorem wr_host_masked (a v : Nat) : (wr d a v).host.masked = d.host.masked := rfl
@[simp] theorem wr_host_pba (a v : Nat) : (wr d a v).host.pba = d.host.pba := rfl
@[simp] theorem wr_host_msix (a v : Nat) : (wr d a v).host.msix = d.host.msix := rfl
@[simp] theorem wr_host_msgs (a v : Nat) : (wr d a v).host.msgs = d.host.msgs := rfl
@[simp] theorem wr_host_notes (a v : Nat) : (wr d a v).host.notes = d.host.notes := rfl
@[simp] theorem wr_host_trapQ (a v : Nat) : (wr d a v).host.trapQ = d.host.trapQ := rfl
@[simp] theorem wr_host_trapBkt (a v : Nat) : (wr d a v).host.trapBkt = d.host.trapBkt := rfl
@[simp] theorem wr_host_inject (a v : Nat) : (wr d a v).host.inject = d.host.inject := rfl
@[simp] theorem wr_host_done (a v : Nat) : (wr d a v).host.done = d.host.done := rfl
@[simp] theorem wr_host_parQ (a v : Nat) : (wr d a v).host.parQ = d.host.parQ := rfl
@[simp] theorem wr_host_staging (a v : Nat) : (wr d a v).host.staging = d.host.staging := rfl
@[simp] theorem wr_host_rdata (a v : Nat) : (wr d a v).host.rdata = d.host.rdata := rfl
@[simp] theorem wr_host_cfg (a v : Nat) : (wr d a v).host.cfg = d.host.cfg := rfl
@[simp] theorem wr_host_vintage (a v : Nat) : (wr d a v).host.vintage = d.host.vintage := rfl
@[simp] theorem portOf_wr (a v n : Nat) : portOf (wr d a v) n = portOf d n := rfl
@[simp] theorem egrOf_wr (a v n : Nat) : egrOf (wr d a v) n = egrOf d n := rfl
@[simp] theorem chanOf_wr (a v n : Nat) : chanOf (wr d a v) n = chanOf d n := rfl
@[simp] theorem thrOf_wr (a v n : Nat) : thrOf (wr d a v) n = thrOf d n := rfl
@[simp] theorem coreOf_wr (a v n : Nat) : coreOf (wr d a v) n = coreOf d n := rfl
@[simp] theorem guardOf_wr (a v n : Nat) : guardOf (wr d a v) n = guardOf d n := rfl

@[simp] theorem rd_wr_self (a v : Nat) : rd (wr d a v) a = v % two32 := by
  simp only [rd, wr]
  by_cases h : v % two32 = Reg.reset a
  · simp [h]
  · rw [if_neg h, tfind_tins_self]
    simp [two32]

theorem rd_wr_ne {a b : Nat} (v : Nat) (h : b ≠ a) : rd (wr d a v) b = rd d b := by
  have e : tfind (wr d a v).regs b = tfind d.regs b := by
    simp only [wr]
    by_cases hv : v % two32 = Reg.reset a
    · rw [if_pos hv, tfind_tdel_ne _ h]
    · rw [if_neg hv, tfind_tins_ne _ _ h]
  simp only [rd, e]

/-- A read after a write of a register. -/
theorem rd_wr (a b v : Nat) : rd (wr d a v) b = if b = a then v % two32 else rd d b := by
  by_cases h : b = a
  · subst h; simp
  · simp [h, rd_wr_ne d v h]

end Sys2Proof.Machine
end

