-- ==== Sys2Proof/Laws/Bunch.lean ====
section
/-! SUPPORT. The pieces of a bunch as they land, and the count of a frame that a port has sent: the cases of each, once. -/

namespace Sys2Proof.Machine

variable (d : Dev) (u : Nat) (p : BunchPiece)

/-- A piece with no error, whose copy is there and whose pool has room, only joins its copy (R313). -/
theorem landPiece_placed {errs : List CellErr} {c : Copy} (h : copyOf d p.copy = some c)
    (room : c.part = .tc7 → tc7Use d u + p.cells ≤ 2048) (clean : pieceErrs errs p = []) :
    landPiece u errs d p = placePiece u p d := by
  have n : ¬(c.part = .tc7 ∧ 2048 < tc7Use d u + p.cells) := fun x => Nat.not_lt.mpr (room x.1) x.2
  simp [landPiece, h, n, clean]

/-- A TC7 piece that its pool has no room for is discarded with its copy, and counted (R256). -/
theorem landPiece_refused {errs : List CellErr} {c : Copy} (h : copyOf d p.copy = some c) (tc7 : c.part = .tc7)
    (full : 2048 < tc7Use d u + p.cells) : landPiece u errs d p = discardCopy (tcnt d u Reg.dropTc7Pool) p.copy := by
  simp [landPiece, h, tc7, full]

/-- The errors of a piece are met also where its copy is gone (R245, R313). -/
theorem landPiece_gone {errs : List CellErr} (h : copyOf d p.copy = none) :
    landPiece u errs d p = (pieceErrs errs p).foldl (pieceErr u p) d := by simp [landPiece, h]

/-- A corrected error is counted and changes nothing else. -/
theorem pieceErr_corrected {e : CellErr} (h : e.bad = false) : pieceErr u p d e = tcnt d u Reg.cellEccCorr := by simp [pieceErr, h]

/-- Only errors in the data words of cells that the piece carries are met. -/
theorem mem_pieceErrs {errs : List CellErr} {e : CellErr} : e ∈ pieceErrs errs p ↔
    e ∈ errs ∧ e.copy = p.copy ∧ p.first ≤ e.cell ∧ e.cell < p.first + p.cells ∧ e.link = false := by
  simp [pieceErrs, and_assoc]

/-- Of the frames that a port has sent, a PAUSE frame is counted in `TX_PAUSE` and a PFC frame in `TX_PFC` alone, beside the bytes that
all frames count (R69). -/
theorem countSent_pause (q : Nat) {l : List Byte} (h : macControl l = 1) :
    countSent d q l = pcnt48 (pcnt d q Reg.txPause) q Reg.txBytesAll l.length := by simp [countSent, h]

theorem countSent_pfc (q : Nat) {l : List Byte} (h : macControl l = 2) :
    countSent d q l = pcnt48 (pcnt d q Reg.txPfc) q Reg.txBytesAll l.length := by simp [countSent, h]

theorem countSent_other (q : Nat) {l : List Byte} (h : macControl l = 0) :
    countSent d q l =
      pcnt48 (countGood d q l.length (be l 0 6) Reg.txFramesOk Reg.txBytesOk Reg.txUcast Reg.txSize) q Reg.txBytesAll l.length := by
  simp [countSent, h]

end Sys2Proof.Machine
end

