-- ==== Sys2Proof/Laws/Reg.lean ====
section
/-! SUPPORT. Register fields, counters, records, notifications and the delivery of interrupts: what each leaves. -/

namespace Sys2Proof.Machine

variable (d : Dev)

/-! ## Fields -/

theorem rd_setFld (a b lo w x : Nat) : rd (setFld d a lo w x) b = if b = a then setBits (rd d a) lo w x % two32 else rd d b :=
  rd_wr ..

theorem rd_setFld_ne {a b : Nat} (lo w x : Nat) (h : b ≠ a) : rd (setFld d a lo w x) b = rd d b := rd_wr_ne _ _ h
theorem rd_setFlag_ne {a b : Nat} (i : Nat) (v : Bool) (h : b ≠ a) : rd (setFlag d a i v) b = rd d b := rd_wr_ne _ _ h

theorem fld_setFld_self (a lo w x : Nat) (h : lo + w ≤ 32) : fld (setFld d a lo w x) a lo w = x % 2 ^ w := by
  simp only [fld, setFld, rd_wr_self]
  rw [show two32 = 2 ^ 32 from rfl, bits_mod _ _ _ _ h, bits_setBits_self]

/-- Another field of the register keeps its value. -/
theorem fld_setFld_other (a lo w x lo' w' : Nat) (h : lo' + w' ≤ 32) (hd : lo' + w' ≤ lo ∨ lo + w ≤ lo') :
    fld (setFld d a lo w x) a lo' w' = fld d a lo' w' := by
  simp only [fld, setFld, rd_wr_self]
  rw [show two32 = 2 ^ 32 from rfl, bits_mod _ _ _ _ h, bits_setBits_ne hd]

theorem fld_setFld_ne {a b : Nat} (lo w x lo' w' : Nat) (h : b ≠ a) : fld (setFld d a lo w x) b lo' w' = fld d b lo' w' := by
  simp only [fld, rd_setFld_ne d lo w x h]

theorem flag_setFlag_self (a i : Nat) (v : Bool) (h : i < 32) : flag (setFlag d a i v) a i = v := by
  simp only [flag, setFlag, setFld, rd_wr_self]
  rw [show two32 = 2 ^ 32 from rfl, bit_mod _ _ _ h, bit_setBits]
  simp

theorem flag_setFlag_other (a i j : Nat) (v : Bool) (h : j < 32) (hd : j ≠ i) : flag (setFlag d a i v) a j = flag d a j := by
  simp only [flag, setFlag, setFld, rd_wr_self]
  rw [show two32 = 2 ^ 32 from rfl, bit_mod _ _ _ h, bit_setBits, if_neg (by omega)]

theorem flag_setFlag_ne {a b : Nat} (i j : Nat) (v : Bool) (h : b ≠ a) : flag (setFlag d a i v) b j = flag d b j := by
  simp only [flag, rd_setFlag_ne d i v h]

/-! ## Counters -/

theorem rd_cntAdd (a n b : Nat) : rd (cntAdd d a n) b = if b = a then (rd d a + n) % two32 else rd d b := by
  unfold cntAdd
  dsimp only
  rw [rd_wr]
  split
  · rfl
  · split <;> rfl

@[simp] theorem rd_cntAdd_self (a n : Nat) : rd (cntAdd d a n) a = (rd d a + n) % two32 := by simp [rd_cntAdd]
theorem rd_cntAdd_ne {a b : Nat} (n : Nat) (h : b ≠ a) : rd (cntAdd d a n) b = rd d b := by simp [rd_cntAdd, h]
@[simp] theorem rd_cnt_self (a : Nat) : rd (cnt d a) a = (rd d a + 1) % two32 := rd_cntAdd_self ..
theorem rd_cnt_ne {a b : Nat} (h : b ≠ a) : rd (cnt d a) b = rd d b := rd_cntAdd_ne _ _ h

theorem rd_cnt48_ne {a b : Nat} (n : Nat) (h : b ≠ a) (h4 : b ≠ a + 4) : rd (cnt48 d a n) b = rd d b := by
  unfold cnt48
  dsimp only
  rw [rd_wr_ne _ _ h4, rd_wr_ne _ _ h]
  split <;> simp

/-! ## Parts that `setFld` leaves alone -/

@[simp] theorem setFld_now (a lo w x : Nat) : (setFld d a lo w x).now = d.now := rfl
@[simp] theorem setFld_freeCtr (a lo w x : Nat) : (setFld d a lo w x).freeCtr = d.freeCtr := rfl
@[simp] theorem setFld_pins (a lo w x : Nat) : (setFld d a lo w x).pins = d.pins := rfl
@[simp] theorem setFld_boot (a lo w x : Nat) : (setFld d a lo w x).boot = d.boot := rfl
@[simp] theorem setFld_ports (a lo w x : Nat) : (setFld d a lo w x).ports = d.ports := rfl
@[simp] theorem setFld_modBus (a lo w x : Nat) : (setFld d a lo w x).modBus = d.modBus := rfl
@[simp] theorem setFld_fwd (a lo w x : Nat) : (setFld d a lo w x).fwd = d.fwd := rfl
@[simp] theorem setFld_buf (a lo w x : Nat) : (setFld d a lo w x).buf = d.buf := rfl
@[simp] theorem setFld_trl (a lo w x : Nat) : (setFld d a lo w x).trl = d.trl := rfl
@[simp] theorem setFld_egr (a lo w x : Nat) : (setFld d a lo w x).egr = d.egr := rfl
@[simp] theorem setFld_time (a lo w x : Nat) : (setFld d a lo w x).time = d.time := rfl
@[simp] theorem setFld_safe (a lo w x : Nat) : (setFld d a lo w x).safe = d.safe := rfl
@[simp] theorem setFld_cc (a lo w x : Nat) : (setFld d a lo w x).cc = d.cc := rfl
@[simp] theorem setFld_health (a lo w x : Nat) : (setFld d a lo w x).health = d.health := rfl
@[simp] theorem setFld_host_chan (a lo w x : Nat) : (setFld d a lo w x).host.chan = d.host.chan := rfl
@[simp] theorem setFld_host_busMaster (a lo w x : Nat) : (setFld d a lo w x).host.busMaster = d.host.busMaster := rfl
@[simp] theorem setFld_host_d3 (a lo w x : Nat) : (setFld d a lo w x).host.d3 = d.host.d3 := rfl
@[simp] theorem setFld_host_pcie (a lo w x : Nat) : (setFld d a lo w x).host.pcie = d.host.pcie := rfl
@[simp] theorem setFld_host_disarmed (a lo w x : Nat) : (setFld d a lo w x).host.disarmed = d.host.disarmed := rfl
@[simp] theorem setFld_host_masked (a lo w x : Nat) : (setFld d a lo w x).host.masked = d.host.masked := rfl
@[simp] theorem setFld_host_pba (a lo w x : Nat) : (setFld d a lo w x).host.pba = d.host.pba := rfl
@[simp] theorem setFld_host_msix (a lo w x : Nat) : (setFld d a lo w x).host.msix = d.host.msix := rfl
@[simp] theorem setFld_host_msgs (a lo w x : Nat) : (setFld d a lo w x).host.msgs = d.host.msgs := rfl
@[simp] theorem setFld_host_notes (a lo w x : Nat) : (setFld d a lo w x).host.notes = d.host.notes := rfl
@[simp] theorem setFld_host_trapQ (a lo w x : Nat) : (setFld d a lo w x).host.trapQ = d.host.trapQ := rfl
@[simp] theorem setFld_host_trapBkt (a lo w x : Nat) : (setFld d a lo w x).host.trapBkt = d.host.trapBkt := rfl
@[simp] theorem setFld_host_inject (a lo w x : Nat) : (setFld d a lo w x).host.inject = d.host.inject := rfl
@[simp] theorem setFld_host_done (a lo w x : Nat) : (setFld d a lo w x).host.done = d.host.done := rfl
@[simp] theorem setFld_host_parQ (a lo w x : Nat) : (setFld d a lo w x).host.parQ = d.host.parQ := rfl
@[simp] theorem setFld_host_staging (a lo w x : Nat) : (setFld d a lo w x).host.staging = d.host.staging := rfl
@[simp] theorem setFld_host_rdata (a lo w x : Nat) : (setFld d a lo w x).host.rdata = d.host.rdata := rfl
@[simp] theorem setFld_host_cfg (a lo w x : Nat) : (setFld d a lo w x).host.cfg = d.host.cfg := rfl
@[simp] theorem setFld_host_vintage (a lo w x : Nat) : (setFld d a lo w x).host.vintage = d.host.vintage := rfl
@[simp] theorem setFld_tel_ring (a lo w x : Nat) : (setFld d a lo w x).tel.ring = d.tel.ring := rfl
@[simp] theorem setFld_tel_bbQ (a lo w x : Nat) : (setFld d a lo w x).tel.bbQ = d.tel.bbQ := rfl
@[simp] theorem setFld_tel_seq (a lo w x : Nat) : (setFld d a lo w x).tel.seq = d.tel.seq := rfl
@[simp] theorem setFld_tel_slots (a lo w x : Nat) : (setFld d a lo w x).tel.slots = d.tel.slots := rfl
@[simp] theorem setFld_tel_copy (a lo w x : Nat) : (setFld d a lo w x).tel.copy = d.tel.copy := rfl
@[simp] theorem setFld_tel_heldTrig (a lo w x : Nat) : (setFld d a lo w x).tel.heldTrig = d.tel.heldTrig := rfl
@[simp] theorem setFld_tel_trigDue (a lo w x : Nat) : (setFld d a lo w x).tel.trigDue = d.tel.trigDue := rfl
@[simp] theorem setFld_tel_shot (a lo w x : Nat) : (setFld d a lo w x).tel.shot = d.tel.shot := rfl
@[simp] theorem setFld_tel_bank (a lo w x : Nat) : (setFld d a lo w x).tel.bank = d.tel.bank := rfl
@[simp] theorem setFld_tel_bankWraps (a lo w x : Nat) : (setFld d a lo w x).tel.bankWraps = d.tel.bankWraps := rfl
@[simp] theorem setFld_tel_snapWait (a lo w x : Nat) : (setFld d a lo w x).tel.snapWait = d.tel.snapWait := rfl
@[simp] theorem setFld_tel_totals (a lo w x : Nat) : (setFld d a lo w x).tel.totals = d.tel.totals := rfl
@[simp] theorem setFld_tel_tasteN (a lo w x : Nat) : (setFld d a lo w x).tel.tasteN = d.tel.tasteN := rfl
@[simp] theorem setFld_tel_tasteLog (a lo w x : Nat) : (setFld d a lo w x).tel.tasteLog = d.tel.tasteLog := rfl
@[simp] theorem setFld_tel_mirrors (a lo w x : Nat) : (setFld d a lo w x).tel.mirrors = d.tel.mirrors := rfl
@[simp] theorem portOf_setFld (a lo w x : Nat) (m : Nat) : portOf (setFld d a lo w x) m = portOf d m := rfl
@[simp] theorem egrOf_setFld (a lo w x : Nat) (m : Nat) : egrOf (setFld d a lo w x) m = egrOf d m := rfl
@[simp] theorem chanOf_setFld (a lo w x : Nat) (m : Nat) : chanOf (setFld d a lo w x) m = chanOf d m := rfl
@[simp] theorem thrOf_setFld (a lo w x : Nat) (m : Nat) : thrOf (setFld d a lo w x) m = thrOf d m := rfl
@[simp] theorem coreOf_setFld (a lo w x : Nat) (m : Nat) : coreOf (setFld d a lo w x) m = coreOf d m := rfl
@[simp] theorem guardOf_setFld (a lo w x : Nat) (m : Nat) : guardOf (setFld d a lo w x) m = guardOf d m := rfl

/-! ## Parts that `setFlag` leaves alone -/

@[simp] theorem setFlag_now (a i : Nat) (v : Bool) : (setFlag d a i v).now = d.now := rfl
@[simp] theorem setFlag_freeCtr (a i : Nat) (v : Bool) : (setFlag d a i v).freeCtr = d.freeCtr := rfl
@[simp] theorem setFlag_pins (a i : Nat) (v : Bool) : (setFlag d a i v).pins = d.pins := rfl
@[simp] theorem setFlag_boot (a i : Nat) (v : Bool) : (setFlag d a i v).boot = d.boot := rfl
@[simp] theorem setFlag_ports (a i : Nat) (v : Bool) : (setFlag d a i v).ports = d.ports := rfl
@[simp] theorem setFlag_modBus (a i : Nat) (v : Bool) : (setFlag d a i v).modBus = d.modBus := rfl
@[simp] theorem setFlag_fwd (a i : Nat) (v : Bool) : (setFlag d a i v).fwd = d.fwd := rfl
@[simp] theorem setFlag_buf (a i : Nat) (v : Bool) : (setFlag d a i v).buf = d.buf := rfl
@[simp] theorem setFlag_trl (a i : Nat) (v : Bool) : (setFlag d a i v).trl = d.trl := rfl
@[simp] theorem setFlag_egr (a i : Nat) (v : Bool) : (setFlag d a i v).egr = d.egr := rfl
@[simp] theorem setFlag_time (a i : Nat) (v : Bool) : (setFlag d a i v).time = d.time := rfl
@[simp] theorem setFlag_safe (a i : Nat) (v : Bool) : (setFlag d a i v).safe = d.safe := rfl
@[simp] theorem setFlag_cc (a i : Nat) (v : Bool) : (setFlag d a i v).cc = d.cc := rfl
@[simp] theorem setFlag_health (a i : Nat) (v : Bool) : (setFlag d a i v).health = d.health := rfl
@[simp] theorem setFlag_host_chan (a i : Nat) (v : Bool) : (setFlag d a i v).host.chan = d.host.chan := rfl
@[simp] theorem setFlag_host_busMaster (a i : Nat) (v : Bool) : (setFlag d a i v).host.busMaster = d.host.busMaster := rfl
@[simp] theorem setFlag_host_d3 (a i : Nat) (v : Bool) : (setFlag d a i v).host.d3 = d.host.d3 := rfl
@[simp] theorem setFlag_host_pcie (a i : Nat) (v : Bool) : (setFlag d a i v).host.pcie = d.host.pcie := rfl
@[simp] theorem setFlag_host_disarmed (a i : Nat) (v : Bool) : (setFlag d a i v).host.disarmed = d.host.disarmed := rfl
@[simp] theorem setFlag_host_masked (a i : Nat) (v : Bool) : (setFlag d a i v).host.masked = d.host.masked := rfl
@[simp] theorem setFlag_host_pba (a i : Nat) (v : Bool) : (setFlag d a i v).host.pba = d.host.pba := rfl
@[simp] theorem setFlag_host_msix (a i : Nat) (v : Bool) : (setFlag d a i v).host.msix = d.host.msix := rfl
@[simp] theorem setFlag_host_msgs (a i : Nat) (v : Bool) : (setFlag d a i v).host.msgs = d.host.msgs := rfl
@[simp] theorem setFlag_host_notes (a i : Nat) (v : Bool) : (setFlag d a i v).host.notes = d.host.notes := rfl
@[simp] theorem setFlag_host_trapQ (a i : Nat) (v : Bool) : (setFlag d a i v).host.trapQ = d.host.trapQ := rfl
@[simp] theorem setFlag_host_trapBkt (a i : Nat) (v : Bool) : (setFlag d a i v).host.trapBkt = d.host.trapBkt := rfl
@[simp] theorem setFlag_host_inject (a i : Nat) (v : Bool) : (setFlag d a i v).host.inject = d.host.inject := rfl
@[simp] theorem setFlag_host_done (a i : Nat) (v : Bool) : (setFlag d a i v).host.done = d.host.done := rfl
@[simp] theorem setFlag_host_parQ (a i : Nat) (v : Bool) : (setFlag d a i v).host.parQ = d.host.parQ := rfl
@[simp] theorem setFlag_host_staging (a i : Nat) (v : Bool) : (setFlag d a i v).host.staging = d.host.staging := rfl
@[simp] theorem setFlag_host_rdata (a i : Nat) (v : Bool) : (setFlag d a i v).host.rdata = d.host.rdata := rfl
@[simp] theorem setFlag_host_cfg (a i : Nat) (v : Bool) : (setFlag d a i v).host.cfg = d.host.cfg := rfl
@[simp] theorem setFlag_host_vintage (a i : Nat) (v : Bool) : (setFlag d a i v).host.vintage = d.host.vintage := rfl
@[simp] theorem setFlag_tel_ring (a i : Nat) (v : Bool) : (setFlag d a i v).tel.ring = d.tel.ring := rfl
@[simp] theorem setFlag_tel_bbQ (a i : Nat) (v : Bool) : (setFlag d a i v).tel.bbQ = d.tel.bbQ := rfl
@[simp] theorem setFlag_tel_seq (a i : Nat) (v : Bool) : (setFlag d a i v).tel.seq = d.tel.seq := rfl
@[simp] theorem setFlag_tel_slots (a i : Nat) (v : Bool) : (setFlag d a i v).tel.slots = d.tel.slots := rfl
@[simp] theorem setFlag_tel_copy (a i : Nat) (v : Bool) : (setFlag d a i v).tel.copy = d.tel.copy := rfl
@[simp] theorem setFlag_tel_heldTrig (a i : Nat) (v : Bool) : (setFlag d a i v).tel.heldTrig = d.tel.heldTrig := rfl
@[simp] theorem setFlag_tel_trigDue (a i : Nat) (v : Bool) : (setFlag d a i v).tel.trigDue = d.tel.trigDue := rfl
@[simp] theorem setFlag_tel_shot (a i : Nat) (v : Bool) : (setFlag d a i v).tel.shot = d.tel.shot := rfl
@[simp] theorem setFlag_tel_bank (a i : Nat) (v : Bool) : (setFlag d a i v).tel.bank = d.tel.bank := rfl
@[simp] theorem setFlag_tel_bankWraps (a i : Nat) (v : Bool) : (setFlag d a i v).tel.bankWraps = d.tel.bankWraps := rfl
@[simp] theorem setFlag_tel_snapWait (a i : Nat) (v : Bool) : (setFlag d a i v).tel.snapWait = d.tel.snapWait := rfl
@[simp] theorem setFlag_tel_totals (a i : Nat) (v : Bool) : (setFlag d a i v).tel.totals = d.tel.totals := rfl
@[simp] theorem setFlag_tel_tasteN (a i : Nat) (v : Bool) : (setFlag d a i v).tel.tasteN = d.tel.tasteN := rfl
@[simp] theorem setFlag_tel_tasteLog (a i : Nat) (v : Bool) : (setFlag d a i v).tel.tasteLog = d.tel.tasteLog := rfl
@[simp] theorem setFlag_tel_mirrors (a i : Nat) (v : Bool) : (setFlag d a i v).tel.mirrors = d.tel.mirrors := rfl
@[simp] theorem portOf_setFlag (a i : Nat) (v : Bool) (m : Nat) : portOf (setFlag d a i v) m = portOf d m := rfl
@[simp] theorem egrOf_setFlag (a i : Nat) (v : Bool) (m : Nat) : egrOf (setFlag d a i v) m = egrOf d m := rfl
@[simp] theorem chanOf_setFlag (a i : Nat) (v : Bool) (m : Nat) : chanOf (setFlag d a i v) m = chanOf d m := rfl
@[simp] theorem thrOf_setFlag (a i : Nat) (v : Bool) (m : Nat) : thrOf (setFlag d a i v) m = thrOf d m := rfl
@[simp] theorem coreOf_setFlag (a i : Nat) (v : Bool) (m : Nat) : coreOf (setFlag d a i v) m = coreOf d m := rfl
@[simp] theorem guardOf_setFlag (a i : Nat) (v : Bool) (m : Nat) : guardOf (setFlag d a i v) m = guardOf d m := rfl

/-! ## Parts that `cntAdd` leaves alone -/

@[simp] theorem cntAdd_now (a n : Nat) : (cntAdd d a n).now = d.now := by unfold cntAdd; by_cases h : rd d a + n < two32 <;> simp [h]
@[simp] theorem cntAdd_freeCtr (a n : Nat) : (cntAdd d a n).freeCtr = d.freeCtr := by unfold cntAdd; by_cases h : rd d a + n < two32 <;> simp [h]
@[simp] theorem cntAdd_pins (a n : Nat) : (cntAdd d a n).pins = d.pins := by unfold cntAdd; by_cases h : rd d a + n < two32 <;> simp [h]
@[simp] theorem cntAdd_boot (a n : Nat) : (cntAdd d a n).boot = d.boot := by unfold cntAdd; by_cases h : rd d a + n < two32 <;> simp [h]
@[simp] theorem cntAdd_ports (a n : Nat) : (cntAdd d a n).ports = d.ports := by unfold cntAdd; by_cases h : rd d a + n < two32 <;> simp [h]
@[simp] theorem cntAdd_modBus (a n : Nat) : (cntAdd d a n).modBus = d.modBus := by unfold cntAdd; by_cases h : rd d a + n < two32 <;> simp [h]
@[simp] theorem cntAdd_fwd (a n : Nat) : (cntAdd d a n).fwd = d.fwd := by unfold cntAdd; by_cases h : rd d a + n < two32 <;> simp [h]
@[simp] theorem cntAdd_buf (a n : Nat) : (cntAdd d a n).buf = d.buf := by unfold cntAdd; by_cases h : rd d a + n < two32 <;> simp [h]
@[simp] theorem cntAdd_trl (a n : Nat) : (cntAdd d a n).trl = d.trl := by unfold cntAdd; by_cases h : rd d a + n < two32 <;> simp [h]
@[simp] theorem cntAdd_egr (a n : Nat) : (cntAdd d a n).egr = d.egr := by unfold cntAdd; by_cases h : rd d a + n < two32 <;> simp [h]
@[simp] theorem cntAdd_time (a n : Nat) : (cntAdd d a n).time = d.time := by unfold cntAdd; by_cases h : rd d a + n < two32 <;> simp [h]
@[simp] theorem cntAdd_safe (a n : Nat) : (cntAdd d a n).safe = d.safe := by unfold cntAdd; by_cases h : rd d a + n < two32 <;> simp [h]
@[simp] theorem cntAdd_cc (a n : Nat) : (cntAdd d a n).cc = d.cc := by unfold cntAdd; by_cases h : rd d a + n < two32 <;> simp [h]
@[simp] theorem cntAdd_health (a n : Nat) : (cntAdd d a n).health = d.health := by unfold cntAdd; by_cases h : rd d a + n < two32 <;> simp [h]
@[simp] theorem cntAdd_host_chan (a n : Nat) : (cntAdd d a n).host.chan = d.host.chan := by unfold cntAdd; by_cases h : rd d a + n < two32 <;> simp [h]
@[simp] theorem cntAdd_host_busMaster (a n : Nat) : (cntAdd d a n).host.busMaster = d.host.busMaster := by unfold cntAdd; by_cases h : rd d a + n < two32 <;> simp [h]
@[simp] theorem cntAdd_host_d3 (a n : Nat) : (cntAdd d a n).host.d3 = d.host.d3 := by unfold cntAdd; by_cases h : rd d a + n < two32 <;> simp [h]
@[simp] theorem cntAdd_host_pcie (a n : Nat) : (cntAdd d a n).host.pcie = d.host.pcie := by unfold cntAdd; by_cases h : rd d a + n < two32 <;> simp [h]
@[simp] theorem cntAdd_host_disarmed (a n : Nat) : (cntAdd d a n).host.disarmed = d.host.disarmed := by unfold cntAdd; by_cases h : rd d a + n < two32 <;> simp [h]
@[simp] theorem cntAdd_host_masked (a n : Nat) : (cntAdd d a n).host.masked = d.host.masked := by unfold cntAdd; by_cases h : rd d a + n < two32 <;> simp [h]
@[simp] theorem cntAdd_host_pba (a n : Nat) : (cntAdd d a n).host.pba = d.host.pba := by unfold cntAdd; by_cases h : rd d a + n < two32 <;> simp [h]
@[simp] theorem cntAdd_host_msix (a n : Nat) : (cntAdd d a n).host.msix = d.host.msix := by unfold cntAdd; by_cases h : rd d a + n < two32 <;> simp [h]
@[simp] theorem cntAdd_host_msgs (a n : Nat) : (cntAdd d a n).host.msgs = d.host.msgs := by unfold cntAdd; by_cases h : rd d a + n < two32 <;> simp [h]
@[simp] theorem cntAdd_host_notes (a n : Nat) : (cntAdd d a n).host.notes = d.host.notes := by unfold cntAdd; by_cases h : rd d a + n < two32 <;> simp [h]
@[simp] theorem cntAdd_host_trapQ (a n : Nat) : (cntAdd d a n).host.trapQ = d.host.trapQ := by unfold cntAdd; by_cases h : rd d a + n < two32 <;> simp [h]
@[simp] theorem cntAdd_host_trapBkt (a n : Nat) : (cntAdd d a n).host.trapBkt = d.host.trapBkt := by unfold cntAdd; by_cases h : rd d a + n < two32 <;> simp [h]
@[simp] theorem cntAdd_host_inject (a n : Nat) : (cntAdd d a n).host.inject = d.host.inject := by unfold cntAdd; by_cases h : rd d a + n < two32 <;> simp [h]
@[simp] theorem cntAdd_host_done (a n : Nat) : (cntAdd d a n).host.done = d.host.done := by unfold cntAdd; by_cases h : rd d a + n < two32 <;> simp [h]
@[simp] theorem cntAdd_host_parQ (a n : Nat) : (cntAdd d a n).host.parQ = d.host.parQ := by unfold cntAdd; by_cases h : rd d a + n < two32 <;> simp [h]
@[simp] theorem cntAdd_host_staging (a n : Nat) : (cntAdd d a n).host.staging = d.host.staging := by unfold cntAdd; by_cases h : rd d a + n < two32 <;> simp [h]
@[simp] theorem cntAdd_host_rdata (a n : Nat) : (cntAdd d a n).host.rdata = d.host.rdata := by unfold cntAdd; by_cases h : rd d a + n < two32 <;> simp [h]
@[simp] theorem cntAdd_host_cfg (a n : Nat) : (cntAdd d a n).host.cfg = d.host.cfg := by unfold cntAdd; by_cases h : rd d a + n < two32 <;> simp [h]
@[simp] theorem cntAdd_host_vintage (a n : Nat) : (cntAdd d a n).host.vintage = d.host.vintage := by unfold cntAdd; by_cases h : rd d a + n < two32 <;> simp [h]
@[simp] theorem cntAdd_tel_ring (a n : Nat) : (cntAdd d a n).tel.ring = d.tel.ring := by unfold cntAdd; by_cases h : rd d a + n < two32 <;> simp [h]
@[simp] theorem cntAdd_tel_bbQ (a n : Nat) : (cntAdd d a n).tel.bbQ = d.tel.bbQ := by unfold cntAdd; by_cases h : rd d a + n < two32 <;> simp [h]
@[simp] theorem cntAdd_tel_seq (a n : Nat) : (cntAdd d a n).tel.seq = d.tel.seq := by unfold cntAdd; by_cases h : rd d a + n < two32 <;> simp [h]
@[simp] theorem cntAdd_tel_slots (a n : Nat) : (cntAdd d a n).tel.slots = d.tel.slots := by unfold cntAdd; by_cases h : rd d a + n < two32 <;> simp [h]
@[simp] theorem cntAdd_tel_copy (a n : Nat) : (cntAdd d a n).tel.copy = d.tel.copy := by unfold cntAdd; by_cases h : rd d a + n < two32 <;> simp [h]
@[simp] theorem cntAdd_tel_heldTrig (a n : Nat) : (cntAdd d a n).tel.heldTrig = d.tel.heldTrig := by unfold cntAdd; by_cases h : rd d a + n < two32 <;> simp [h]
@[simp] theorem cntAdd_tel_trigDue (a n : Nat) : (cntAdd d a n).tel.trigDue = d.tel.trigDue := by unfold cntAdd; by_cases h : rd d a + n < two32 <;> simp [h]
@[simp] theorem cntAdd_tel_shot (a n : Nat) : (cntAdd d a n).tel.shot = d.tel.shot := by unfold cntAdd; by_cases h : rd d a + n < two32 <;> simp [h]
@[simp] theorem cntAdd_tel_bank (a n : Nat) : (cntAdd d a n).tel.bank = d.tel.bank := by unfold cntAdd; by_cases h : rd d a + n < two32 <;> simp [h]
@[simp] theorem cntAdd_tel_bankWraps (a n : Nat) : (cntAdd d a n).tel.bankWraps = d.tel.bankWraps := by unfold cntAdd; by_cases h : rd d a + n < two32 <;> simp [h]
@[simp] theorem cntAdd_tel_snapWait (a n : Nat) : (cntAdd d a n).tel.snapWait = d.tel.snapWait := by unfold cntAdd; by_cases h : rd d a + n < two32 <;> simp [h]
@[simp] theorem cntAdd_tel_totals (a n : Nat) : (cntAdd d a n).tel.totals = d.tel.totals := by unfold cntAdd; by_cases h : rd d a + n < two32 <;> simp [h]
@[simp] theorem cntAdd_tel_tasteN (a n : Nat) : (cntAdd d a n).tel.tasteN = d.tel.tasteN := by unfold cntAdd; by_cases h : rd d a + n < two32 <;> simp [h]
@[simp] theorem cntAdd_tel_tasteLog (a n : Nat) : (cntAdd d a n).tel.tasteLog = d.tel.tasteLog := by unfold cntAdd; by_cases h : rd d a + n < two32 <;> simp [h]
@[simp] theorem cntAdd_tel_mirrors (a n : Nat) : (cntAdd d a n).tel.mirrors = d.tel.mirrors := by unfold cntAdd; by_cases h : rd d a + n < two32 <;> simp [h]
@[simp] theorem portOf_cntAdd (a n : Nat) (m : Nat) : portOf (cntAdd d a n) m = portOf d m := by unfold cntAdd; by_cases h : rd d a + n < two32 <;> simp [h, portOf]
@[simp] theorem egrOf_cntAdd (a n : Nat) (m : Nat) : egrOf (cntAdd d a n) m = egrOf d m := by unfold cntAdd; by_cases h : rd d a + n < two32 <;> simp [h, egrOf]
@[simp] theorem chanOf_cntAdd (a n : Nat) (m : Nat) : chanOf (cntAdd d a n) m = chanOf d m := by unfold cntAdd; by_cases h : rd d a + n < two32 <;> simp [h, chanOf]
@[simp] theorem thrOf_cntAdd (a n : Nat) (m : Nat) : thrOf (cntAdd d a n) m = thrOf d m := by unfold cntAdd; by_cases h : rd d a + n < two32 <;> simp [h, thrOf]
@[simp] theorem coreOf_cntAdd (a n : Nat) (m : Nat) : coreOf (cntAdd d a n) m = coreOf d m := by unfold cntAdd; by_cases h : rd d a + n < two32 <;> simp [h, coreOf]
@[simp] theorem guardOf_cntAdd (a n : Nat) (m : Nat) : guardOf (cntAdd d a n) m = guardOf d m := by unfold cntAdd; by_cases h : rd d a + n < two32 <;> simp [h, guardOf]

/-! ## Parts that `cnt` leaves alone -/

@[simp] theorem cnt_now (a : Nat) : (cnt d a).now = d.now := cntAdd_now ..
@[simp] theorem cnt_freeCtr (a : Nat) : (cnt d a).freeCtr = d.freeCtr := cntAdd_freeCtr ..
@[simp] theorem cnt_pins (a : Nat) : (cnt d a).pins = d.pins := cntAdd_pins ..
@[simp] theorem cnt_boot (a : Nat) : (cnt d a).boot = d.boot := cntAdd_boot ..
@[simp] theorem cnt_ports (a : Nat) : (cnt d a).ports = d.ports := cntAdd_ports ..
@[simp] theorem cnt_modBus (a : Nat) : (cnt d a).modBus = d.modBus := cntAdd_modBus ..
@[simp] theorem cnt_fwd (a : Nat) : (cnt d a).fwd = d.fwd := cntAdd_fwd ..
@[simp] theorem cnt_buf (a : Nat) : (cnt d a).buf = d.buf := cntAdd_buf ..
@[simp] theorem cnt_trl (a : Nat) : (cnt d a).trl = d.trl := cntAdd_trl ..
@[simp] theorem cnt_egr (a : Nat) : (cnt d a).egr = d.egr := cntAdd_egr ..
@[simp] theorem cnt_time (a : Nat) : (cnt d a).time = d.time := cntAdd_time ..
@[simp] theorem cnt_safe (a : Nat) : (cnt d a).safe = d.safe := cntAdd_safe ..
@[simp] theorem cnt_cc (a : Nat) : (cnt d a).cc = d.cc := cntAdd_cc ..
@[simp] theorem cnt_health (a : Nat) : (cnt d a).health = d.health := cntAdd_health ..
@[simp] theorem cnt_host_chan (a : Nat) : (cnt d a).host.chan = d.host.chan := cntAdd_host_chan ..
@[simp] theorem cnt_host_busMaster (a : Nat) : (cnt d a).host.busMaster = d.host.busMaster := cntAdd_host_busMaster ..
@[simp] theorem cnt_host_d3 (a : Nat) : (cnt d a).host.d3 = d.host.d3 := cntAdd_host_d3 ..
@[simp] theorem cnt_host_pcie (a : Nat) : (cnt d a).host.pcie = d.host.pcie := cntAdd_host_pcie ..
@[simp] theorem cnt_host_disarmed (a : Nat) : (cnt d a).host.disarmed = d.host.disarmed := cntAdd_host_disarmed ..
@[simp] theorem cnt_host_masked (a : Nat) : (cnt d a).host.masked = d.host.masked := cntAdd_host_masked ..
@[simp] theorem cnt_host_pba (a : Nat) : (cnt d a).host.pba = d.host.pba := cntAdd_host_pba ..
@[simp] theorem cnt_host_msix (a : Nat) : (cnt d a).host.msix = d.host.msix := cntAdd_host_msix ..
@[simp] theorem cnt_host_msgs (a : Nat) : (cnt d a).host.msgs = d.host.msgs := cntAdd_host_msgs ..
@[simp] theorem cnt_host_notes (a : Nat) : (cnt d a).host.notes = d.host.notes := cntAdd_host_notes ..
@[simp] theorem cnt_host_trapQ (a : Nat) : (cnt d a).host.trapQ = d.host.trapQ := cntAdd_host_trapQ ..
@[simp] theorem cnt_host_trapBkt (a : Nat) : (cnt d a).host.trapBkt = d.host.trapBkt := cntAdd_host_trapBkt ..
@[simp] theorem cnt_host_inject (a : Nat) : (cnt d a).host.inject = d.host.inject := cntAdd_host_inject ..
@[simp] theorem cnt_host_done (a : Nat) : (cnt d a).host.done = d.host.done := cntAdd_host_done ..
@[simp] theorem cnt_host_parQ (a : Nat) : (cnt d a).host.parQ = d.host.parQ := cntAdd_host_parQ ..
@[simp] theorem cnt_host_staging (a : Nat) : (cnt d a).host.staging = d.host.staging := cntAdd_host_staging ..
@[simp] theorem cnt_host_rdata (a : Nat) : (cnt d a).host.rdata = d.host.rdata := cntAdd_host_rdata ..
@[simp] theorem cnt_host_cfg (a : Nat) : (cnt d a).host.cfg = d.host.cfg := cntAdd_host_cfg ..
@[simp] theorem cnt_host_vintage (a : Nat) : (cnt d a).host.vintage = d.host.vintage := cntAdd_host_vintage ..
@[simp] theorem cnt_tel_ring (a : Nat) : (cnt d a).tel.ring = d.tel.ring := cntAdd_tel_ring ..
@[simp] theorem cnt_tel_bbQ (a : Nat) : (cnt d a).tel.bbQ = d.tel.bbQ := cntAdd_tel_bbQ ..
@[simp] theorem cnt_tel_seq (a : Nat) : (cnt d a).tel.seq = d.tel.seq := cntAdd_tel_seq ..
@[simp] theorem cnt_tel_slots (a : Nat) : (cnt d a).tel.slots = d.tel.slots := cntAdd_tel_slots ..
@[simp] theorem cnt_tel_copy (a : Nat) : (cnt d a).tel.copy = d.tel.copy := cntAdd_tel_copy ..
@[simp] theorem cnt_tel_heldTrig (a : Nat) : (cnt d a).tel.heldTrig = d.tel.heldTrig := cntAdd_tel_heldTrig ..
@[simp] theorem cnt_tel_trigDue (a : Nat) : (cnt d a).tel.trigDue = d.tel.trigDue := cntAdd_tel_trigDue ..
@[simp] theorem cnt_tel_shot (a : Nat) : (cnt d a).tel.shot = d.tel.shot := cntAdd_tel_shot ..
@[simp] theorem cnt_tel_bank (a : Nat) : (cnt d a).tel.bank = d.tel.bank := cntAdd_tel_bank ..
@[simp] theorem cnt_tel_bankWraps (a : Nat) : (cnt d a).tel.bankWraps = d.tel.bankWraps := cntAdd_tel_bankWraps ..
@[simp] theorem cnt_tel_snapWait (a : Nat) : (cnt d a).tel.snapWait = d.tel.snapWait := cntAdd_tel_snapWait ..
@[simp] theorem cnt_tel_totals (a : Nat) : (cnt d a).tel.totals = d.tel.totals := cntAdd_tel_totals ..
@[simp] theorem cnt_tel_tasteN (a : Nat) : (cnt d a).tel.tasteN = d.tel.tasteN := cntAdd_tel_tasteN ..
@[simp] theorem cnt_tel_tasteLog (a : Nat) : (cnt d a).tel.tasteLog = d.tel.tasteLog := cntAdd_tel_tasteLog ..
@[simp] theorem cnt_tel_mirrors (a : Nat) : (cnt d a).tel.mirrors = d.tel.mirrors := cntAdd_tel_mirrors ..
@[simp] theorem portOf_cnt (a : Nat) (m : Nat) : portOf (cnt d a) m = portOf d m := portOf_cntAdd ..
@[simp] theorem egrOf_cnt (a : Nat) (m : Nat) : egrOf (cnt d a) m = egrOf d m := egrOf_cntAdd ..
@[simp] theorem chanOf_cnt (a : Nat) (m : Nat) : chanOf (cnt d a) m = chanOf d m := chanOf_cntAdd ..
@[simp] theorem thrOf_cnt (a : Nat) (m : Nat) : thrOf (cnt d a) m = thrOf d m := thrOf_cntAdd ..
@[simp] theorem coreOf_cnt (a : Nat) (m : Nat) : coreOf (cnt d a) m = coreOf d m := coreOf_cntAdd ..
@[simp] theorem guardOf_cnt (a : Nat) (m : Nat) : guardOf (cnt d a) m = guardOf d m := guardOf_cntAdd ..

/-! ## Parts that `cnt48` leaves alone -/

@[simp] theorem cnt48_now (a n : Nat) : (cnt48 d a n).now = d.now := by unfold cnt48; dsimp only; split <;> simp
@[simp] theorem cnt48_freeCtr (a n : Nat) : (cnt48 d a n).freeCtr = d.freeCtr := by unfold cnt48; dsimp only; split <;> simp
@[simp] theorem cnt48_pins (a n : Nat) : (cnt48 d a n).pins = d.pins := by unfold cnt48; dsimp only; split <;> simp
@[simp] theorem cnt48_boot (a n : Nat) : (cnt48 d a n).boot = d.boot := by unfold cnt48; dsimp only; split <;> simp
@[simp] theorem cnt48_ports (a n : Nat) : (cnt48 d a n).ports = d.ports := by unfold cnt48; dsimp only; split <;> simp
@[simp] theorem cnt48_modBus (a n : Nat) : (cnt48 d a n).modBus = d.modBus := by unfold cnt48; dsimp only; split <;> simp
@[simp] theorem cnt48_fwd (a n : Nat) : (cnt48 d a n).fwd = d.fwd := by unfold cnt48; dsimp only; split <;> simp
@[simp] theorem cnt48_buf (a n : Nat) : (cnt48 d a n).buf = d.buf := by unfold cnt48; dsimp only; split <;> simp
@[simp] theorem cnt48_trl (a n : Nat) : (cnt48 d a n).trl = d.trl := by unfold cnt48; dsimp only; split <;> simp
@[simp] theorem cnt48_egr (a n : Nat) : (cnt48 d a n).egr = d.egr := by unfold cnt48; dsimp only; split <;> simp
@[simp] theorem cnt48_time (a n : Nat) : (cnt48 d a n).time = d.time := by unfold cnt48; dsimp only; split <;> simp
@[simp] theorem cnt48_safe (a n : Nat) : (cnt48 d a n).safe = d.safe := by unfold cnt48; dsimp only; split <;> simp
@[simp] theorem cnt48_cc (a n : Nat) : (cnt48 d a n).cc = d.cc := by unfold cnt48; dsimp only; split <;> simp
@[simp] theorem cnt48_health (a n : Nat) : (cnt48 d a n).health = d.health := by unfold cnt48; dsimp only; split <;> simp
@[simp] theorem cnt48_host_chan (a n : Nat) : (cnt48 d a n).host.chan = d.host.chan := by unfold cnt48; dsimp only; split <;> simp
@[simp] theorem cnt48_host_busMaster (a n : Nat) : (cnt48 d a n).host.busMaster = d.host.busMaster := by unfold cnt48; dsimp only; split <;> simp
@[simp] theorem cnt48_host_d3 (a n : Nat) : (cnt48 d a n).host.d3 = d.host.d3 := by unfold cnt48; dsimp only; split <;> simp
@[simp] theorem cnt48_host_pcie (a n : Nat) : (cnt48 d a n).host.pcie = d.host.pcie := by unfold cnt48; dsimp only; split <;> simp
@[simp] theorem cnt48_host_disarmed (a n : Nat) : (cnt48 d a n).host.disarmed = d.host.disarmed := by unfold cnt48; dsimp only; split <;> simp
@[simp] theorem cnt48_host_masked (a n : Nat) : (cnt48 d a n).host.masked = d.host.masked := by unfold cnt48; dsimp only; split <;> simp
@[simp] theorem cnt48_host_pba (a n : Nat) : (cnt48 d a n).host.pba = d.host.pba := by unfold cnt48; dsimp only; split <;> simp
@[simp] theorem cnt48_host_msix (a n : Nat) : (cnt48 d a n).host.msix = d.host.msix := by unfold cnt48; dsimp only; split <;> simp
@[simp] theorem cnt48_host_msgs (a n : Nat) : (cnt48 d a n).host.msgs = d.host.msgs := by unfold cnt48; dsimp only; split <;> simp
@[simp] theorem cnt48_host_notes (a n : Nat) : (cnt48 d a n).host.notes = d.host.notes := by unfold cnt48; dsimp only; split <;> simp
@[simp] theorem cnt48_host_trapQ (a n : Nat) : (cnt48 d a n).host.trapQ = d.host.trapQ := by unfold cnt48; dsimp only; split <;> simp
@[simp] theorem cnt48_host_trapBkt (a n : Nat) : (cnt48 d a n).host.trapBkt = d.host.trapBkt := by unfold cnt48; dsimp only; split <;> simp
@[simp] theorem cnt48_host_inject (a n : Nat) : (cnt48 d a n).host.inject = d.host.inject := by unfold cnt48; dsimp only; split <;> simp
@[simp] theorem cnt48_host_done (a n : Nat) : (cnt48 d a n).host.done = d.host.done := by unfold cnt48; dsimp only; split <;> simp
@[simp] theorem cnt48_host_parQ (a n : Nat) : (cnt48 d a n).host.parQ = d.host.parQ := by unfold cnt48; dsimp only; split <;> simp
@[simp] theorem cnt48_host_staging (a n : Nat) : (cnt48 d a n).host.staging = d.host.staging := by unfold cnt48; dsimp only; split <;> simp
@[simp] theorem cnt48_host_rdata (a n : Nat) : (cnt48 d a n).host.rdata = d.host.rdata := by unfold cnt48; dsimp only; split <;> simp
@[simp] theorem cnt48_host_cfg (a n : Nat) : (cnt48 d a n).host.cfg = d.host.cfg := by unfold cnt48; dsimp only; split <;> simp
@[simp] theorem cnt48_host_vintage (a n : Nat) : (cnt48 d a n).host.vintage = d.host.vintage := by unfold cnt48; dsimp only; split <;> simp
@[simp] theorem cnt48_tel_ring (a n : Nat) : (cnt48 d a n).tel.ring = d.tel.ring := by unfold cnt48; dsimp only; split <;> simp
@[simp] theorem cnt48_tel_bbQ (a n : Nat) : (cnt48 d a n).tel.bbQ = d.tel.bbQ := by unfold cnt48; dsimp only; split <;> simp
@[simp] theorem cnt48_tel_seq (a n : Nat) : (cnt48 d a n).tel.seq = d.tel.seq := by unfold cnt48; dsimp only; split <;> simp
@[simp] theorem cnt48_tel_slots (a n : Nat) : (cnt48 d a n).tel.slots = d.tel.slots := by unfold cnt48; dsimp only; split <;> simp
@[simp] theorem cnt48_tel_copy (a n : Nat) : (cnt48 d a n).tel.copy = d.tel.copy := by unfold cnt48; dsimp only; split <;> simp
@[simp] theorem cnt48_tel_heldTrig (a n : Nat) : (cnt48 d a n).tel.heldTrig = d.tel.heldTrig := by unfold cnt48; dsimp only; split <;> simp
@[simp] theorem cnt48_tel_trigDue (a n : Nat) : (cnt48 d a n).tel.trigDue = d.tel.trigDue := by unfold cnt48; dsimp only; split <;> simp
@[simp] theorem cnt48_tel_shot (a n : Nat) : (cnt48 d a n).tel.shot = d.tel.shot := by unfold cnt48; dsimp only; split <;> simp
@[simp] theorem cnt48_tel_bank (a n : Nat) : (cnt48 d a n).tel.bank = d.tel.bank := by unfold cnt48; dsimp only; split <;> simp
@[simp] theorem cnt48_tel_bankWraps (a n : Nat) : (cnt48 d a n).tel.bankWraps = d.tel.bankWraps := by unfold cnt48; dsimp only; split <;> simp
@[simp] theorem cnt48_tel_snapWait (a n : Nat) : (cnt48 d a n).tel.snapWait = d.tel.snapWait := by unfold cnt48; dsimp only; split <;> simp
@[simp] theorem cnt48_tel_totals (a n : Nat) : (cnt48 d a n).tel.totals = d.tel.totals := by unfold cnt48; dsimp only; split <;> simp
@[simp] theorem cnt48_tel_tasteN (a n : Nat) : (cnt48 d a n).tel.tasteN = d.tel.tasteN := by unfold cnt48; dsimp only; split <;> simp
@[simp] theorem cnt48_tel_tasteLog (a n : Nat) : (cnt48 d a n).tel.tasteLog = d.tel.tasteLog := by unfold cnt48; dsimp only; split <;> simp
@[simp] theorem cnt48_tel_mirrors (a n : Nat) : (cnt48 d a n).tel.mirrors = d.tel.mirrors := by unfold cnt48; dsimp only; split <;> simp
@[simp] theorem portOf_cnt48 (a n : Nat) (m : Nat) : portOf (cnt48 d a n) m = portOf d m := by unfold cnt48; dsimp only; split <;> simp [portOf]
@[simp] theorem egrOf_cnt48 (a n : Nat) (m : Nat) : egrOf (cnt48 d a n) m = egrOf d m := by unfold cnt48; dsimp only; split <;> simp [egrOf]
@[simp] theorem chanOf_cnt48 (a n : Nat) (m : Nat) : chanOf (cnt48 d a n) m = chanOf d m := by unfold cnt48; dsimp only; split <;> simp [chanOf]
@[simp] theorem thrOf_cnt48 (a n : Nat) (m : Nat) : thrOf (cnt48 d a n) m = thrOf d m := by unfold cnt48; dsimp only; split <;> simp [thrOf]
@[simp] theorem coreOf_cnt48 (a n : Nat) (m : Nat) : coreOf (cnt48 d a n) m = coreOf d m := by unfold cnt48; dsimp only; split <;> simp [coreOf]
@[simp] theorem guardOf_cnt48 (a n : Nat) (m : Nat) : guardOf (cnt48 d a n) m = guardOf d m := by unfold cnt48; dsimp only; split <;> simp [guardOf]


end Sys2Proof.Machine
end

