-- ==== Sys2Proof/Laws/Settle.lean ====
section
/-! SUPPORT. The delivery of interrupts at the end of every command (R655, R656), and the form of a command's outcome. -/

namespace Sys2Proof.Machine

variable (d : Dev)

/-- The device as a command finds it: the messages of the command before are gone. -/
def begun (s : State) : Dev := s.dev.onHost fun h => { h with msgs := [] }

/-- What every meaning answers. -/
theorem runIf_true {s : State} {f : Dev → Dev} {b : Bool} (h : b = true) :
    s.runIf b f = .next { s with dev := settle (f (begun s)) } := by subst h; rfl

theorem runIf_false {s : State} {f : Dev → Dev} {b : Bool} (h : b = false) : s.runIf b f = .refused .illFormed := by subst h; rfl

/-- A command that answers a next state is well formed, leaves the queue and ends with its interrupts delivered. -/
theorem runIf_next {s t : State} {f : Dev → Dev} {b : Bool} (h : s.runIf b f = .next t) :
    b = true ∧ t = { s with dev := settle (f (begun s)) } := by
  cases b with
  | false => cases h
  | true => exact ⟨rfl, (Host.Outcome.next.inj h).symm⟩

@[simp] theorem begun_now (s : State) : (begun s).now = s.dev.now := rfl
@[simp] theorem begun_freeCtr (s : State) : (begun s).freeCtr = s.dev.freeCtr := rfl
@[simp] theorem begun_pins (s : State) : (begun s).pins = s.dev.pins := rfl
@[simp] theorem begun_boot (s : State) : (begun s).boot = s.dev.boot := rfl
@[simp] theorem begun_ports (s : State) : (begun s).ports = s.dev.ports := rfl
@[simp] theorem begun_modBus (s : State) : (begun s).modBus = s.dev.modBus := rfl
@[simp] theorem begun_fwd (s : State) : (begun s).fwd = s.dev.fwd := rfl
@[simp] theorem begun_buf (s : State) : (begun s).buf = s.dev.buf := rfl
@[simp] theorem begun_trl (s : State) : (begun s).trl = s.dev.trl := rfl
@[simp] theorem begun_egr (s : State) : (begun s).egr = s.dev.egr := rfl
@[simp] theorem begun_time (s : State) : (begun s).time = s.dev.time := rfl
@[simp] theorem begun_safe (s : State) : (begun s).safe = s.dev.safe := rfl
@[simp] theorem begun_cc (s : State) : (begun s).cc = s.dev.cc := rfl
@[simp] theorem begun_health (s : State) : (begun s).health = s.dev.health := rfl
@[simp] theorem begun_regs (s : State) : (begun s).regs = s.dev.regs := rfl
@[simp] theorem begun_tel (s : State) : (begun s).tel = s.dev.tel := rfl
@[simp] theorem rd_begun (s : State) (a : Nat) : rd (begun s) a = rd s.dev a := rfl
@[simp] theorem fld_begun (s : State) (a lo w : Nat) : fld (begun s) a lo w = fld s.dev a lo w := rfl
@[simp] theorem flag_begun (s : State) (a i : Nat) : flag (begun s) a i = flag s.dev a i := rfl
@[simp] theorem begun_host_chan (s : State) : (begun s).host.chan = s.dev.host.chan := rfl
@[simp] theorem begun_host_busMaster (s : State) : (begun s).host.busMaster = s.dev.host.busMaster := rfl
@[simp] theorem begun_host_d3 (s : State) : (begun s).host.d3 = s.dev.host.d3 := rfl
@[simp] theorem begun_host_pcie (s : State) : (begun s).host.pcie = s.dev.host.pcie := rfl
@[simp] theorem begun_host_masked (s : State) : (begun s).host.masked = s.dev.host.masked := rfl
@[simp] theorem begun_host_msix (s : State) : (begun s).host.msix = s.dev.host.msix := rfl
@[simp] theorem begun_host_notes (s : State) : (begun s).host.notes = s.dev.host.notes := rfl
@[simp] theorem begun_host_trapQ (s : State) : (begun s).host.trapQ = s.dev.host.trapQ := rfl
@[simp] theorem begun_host_trapBkt (s : State) : (begun s).host.trapBkt = s.dev.host.trapBkt := rfl
@[simp] theorem begun_host_inject (s : State) : (begun s).host.inject = s.dev.host.inject := rfl
@[simp] theorem begun_host_done (s : State) : (begun s).host.done = s.dev.host.done := rfl
@[simp] theorem begun_host_parQ (s : State) : (begun s).host.parQ = s.dev.host.parQ := rfl
@[simp] theorem begun_host_staging (s : State) : (begun s).host.staging = s.dev.host.staging := rfl
@[simp] theorem begun_host_rdata (s : State) : (begun s).host.rdata = s.dev.host.rdata := rfl
@[simp] theorem begun_host_cfg (s : State) : (begun s).host.cfg = s.dev.host.cfg := rfl
@[simp] theorem begun_host_vintage (s : State) : (begun s).host.vintage = s.dev.host.vintage := rfl
@[simp] theorem begun_host_disarmed (s : State) : (begun s).host.disarmed = s.dev.host.disarmed := rfl
@[simp] theorem begun_host_pba (s : State) : (begun s).host.pba = s.dev.host.pba := rfl
@[simp] theorem begun_host_parBad (s : State) : (begun s).host.parBad = s.dev.host.parBad := rfl
@[simp] theorem portOf_begun (s : State) (m : Nat) : portOf (begun s) m = portOf s.dev m := rfl
@[simp] theorem egrOf_begun (s : State) (m : Nat) : egrOf (begun s) m = egrOf s.dev m := rfl
@[simp] theorem chanOf_begun (s : State) (m : Nat) : chanOf (begun s) m = chanOf s.dev m := rfl
@[simp] theorem thrOf_begun (s : State) (m : Nat) : thrOf (begun s) m = thrOf s.dev m := rfl
@[simp] theorem coreOf_begun (s : State) (m : Nat) : coreOf (begun s) m = coreOf s.dev m := rfl
@[simp] theorem guardOf_begun (s : State) (m : Nat) : guardOf (begun s) m = guardOf s.dev m := rfl

@[simp] theorem settle_now : (settle d).now = d.now := by unfold settle; dsimp only; split <;> simp
@[simp] theorem settle_freeCtr : (settle d).freeCtr = d.freeCtr := by unfold settle; dsimp only; split <;> simp
@[simp] theorem settle_pins : (settle d).pins = d.pins := by unfold settle; dsimp only; split <;> simp
@[simp] theorem settle_boot : (settle d).boot = d.boot := by unfold settle; dsimp only; split <;> simp
@[simp] theorem settle_ports : (settle d).ports = d.ports := by unfold settle; dsimp only; split <;> simp
@[simp] theorem settle_modBus : (settle d).modBus = d.modBus := by unfold settle; dsimp only; split <;> simp
@[simp] theorem settle_fwd : (settle d).fwd = d.fwd := by unfold settle; dsimp only; split <;> simp
@[simp] theorem settle_buf : (settle d).buf = d.buf := by unfold settle; dsimp only; split <;> simp
@[simp] theorem settle_trl : (settle d).trl = d.trl := by unfold settle; dsimp only; split <;> simp
@[simp] theorem settle_egr : (settle d).egr = d.egr := by unfold settle; dsimp only; split <;> simp
@[simp] theorem settle_time : (settle d).time = d.time := by unfold settle; dsimp only; split <;> simp
@[simp] theorem settle_safe : (settle d).safe = d.safe := by unfold settle; dsimp only; split <;> simp
@[simp] theorem settle_cc : (settle d).cc = d.cc := by unfold settle; dsimp only; split <;> simp
@[simp] theorem settle_health : (settle d).health = d.health := by unfold settle; dsimp only; split <;> simp
@[simp] theorem settle_host_chan : (settle d).host.chan = d.host.chan := by unfold settle; dsimp only; split <;> simp
@[simp] theorem settle_host_busMaster : (settle d).host.busMaster = d.host.busMaster := by unfold settle; dsimp only; split <;> simp
@[simp] theorem settle_host_d3 : (settle d).host.d3 = d.host.d3 := by unfold settle; dsimp only; split <;> simp
@[simp] theorem settle_host_pcie : (settle d).host.pcie = d.host.pcie := by unfold settle; dsimp only; split <;> simp
@[simp] theorem settle_host_masked : (settle d).host.masked = d.host.masked := by unfold settle; dsimp only; split <;> simp
@[simp] theorem settle_host_msix : (settle d).host.msix = d.host.msix := by unfold settle; dsimp only; split <;> simp
@[simp] theorem settle_host_notes : (settle d).host.notes = d.host.notes := by unfold settle; dsimp only; split <;> simp
@[simp] theorem settle_host_trapQ : (settle d).host.trapQ = d.host.trapQ := by unfold settle; dsimp only; split <;> simp
@[simp] theorem settle_host_trapBkt : (settle d).host.trapBkt = d.host.trapBkt := by unfold settle; dsimp only; split <;> simp
@[simp] theorem settle_host_inject : (settle d).host.inject = d.host.inject := by unfold settle; dsimp only; split <;> simp
@[simp] theorem settle_host_done : (settle d).host.done = d.host.done := by unfold settle; dsimp only; split <;> simp
@[simp] theorem settle_host_parQ : (settle d).host.parQ = d.host.parQ := by unfold settle; dsimp only; split <;> simp
@[simp] theorem settle_host_staging : (settle d).host.staging = d.host.staging := by unfold settle; dsimp only; split <;> simp
@[simp] theorem settle_host_rdata : (settle d).host.rdata = d.host.rdata := by unfold settle; dsimp only; split <;> simp
@[simp] theorem settle_host_cfg : (settle d).host.cfg = d.host.cfg := by unfold settle; dsimp only; split <;> simp
@[simp] theorem settle_host_vintage : (settle d).host.vintage = d.host.vintage := by unfold settle; dsimp only; split <;> simp
@[simp] theorem settle_tel_ring : (settle d).tel.ring = d.tel.ring := by unfold settle; dsimp only; split <;> simp
@[simp] theorem settle_tel_bbQ : (settle d).tel.bbQ = d.tel.bbQ := by unfold settle; dsimp only; split <;> simp
@[simp] theorem settle_tel_seq : (settle d).tel.seq = d.tel.seq := by unfold settle; dsimp only; split <;> simp
@[simp] theorem settle_tel_slots : (settle d).tel.slots = d.tel.slots := by unfold settle; dsimp only; split <;> simp
@[simp] theorem settle_tel_copy : (settle d).tel.copy = d.tel.copy := by unfold settle; dsimp only; split <;> simp
@[simp] theorem settle_tel_heldTrig : (settle d).tel.heldTrig = d.tel.heldTrig := by unfold settle; dsimp only; split <;> simp
@[simp] theorem settle_tel_trigDue : (settle d).tel.trigDue = d.tel.trigDue := by unfold settle; dsimp only; split <;> simp
@[simp] theorem settle_tel_shot : (settle d).tel.shot = d.tel.shot := by unfold settle; dsimp only; split <;> simp
@[simp] theorem settle_tel_bank : (settle d).tel.bank = d.tel.bank := by unfold settle; dsimp only; split <;> simp
@[simp] theorem settle_tel_bankWraps : (settle d).tel.bankWraps = d.tel.bankWraps := by unfold settle; dsimp only; split <;> simp
@[simp] theorem settle_tel_snapWait : (settle d).tel.snapWait = d.tel.snapWait := by unfold settle; dsimp only; split <;> simp
@[simp] theorem settle_tel_totals : (settle d).tel.totals = d.tel.totals := by unfold settle; dsimp only; split <;> simp
@[simp] theorem settle_tel_tasteN : (settle d).tel.tasteN = d.tel.tasteN := by unfold settle; dsimp only; split <;> simp
@[simp] theorem settle_tel_tasteLog : (settle d).tel.tasteLog = d.tel.tasteLog := by unfold settle; dsimp only; split <;> simp
@[simp] theorem settle_tel_mirrors : (settle d).tel.mirrors = d.tel.mirrors := by unfold settle; dsimp only; split <;> simp
@[simp] theorem portOf_settle (m : Nat) : portOf (settle d) m = portOf d m := by simp [portOf]
@[simp] theorem egrOf_settle (m : Nat) : egrOf (settle d) m = egrOf d m := by simp [egrOf]
@[simp] theorem chanOf_settle (m : Nat) : chanOf (settle d) m = chanOf d m := by simp [chanOf]
@[simp] theorem thrOf_settle (m : Nat) : thrOf (settle d) m = thrOf d m := by simp [thrOf]
@[simp] theorem coreOf_settle (m : Nat) : coreOf (settle d) m = coreOf d m := by simp [coreOf]
@[simp] theorem guardOf_settle (m : Nat) : guardOf (settle d) m = guardOf d m := by simp [guardOf]

theorem rd_settle {a : Nat} (h : a ≠ Reg.irqMsgCnt) : rd (settle d) a = rd d a := by
  unfold settle
  dsimp only
  split
  · simp
  · rw [rd_cntAdd_ne _ _ h, rd_onHost]

theorem fld_settle {a : Nat} (lo w : Nat) (h : a ≠ Reg.irqMsgCnt) : fld (settle d) a lo w = fld d a lo w := by
  simp only [fld, rd_settle d h]

theorem flag_settle {a : Nat} (i : Nat) (h : a ≠ Reg.irqMsgCnt) : flag (settle d) a i = flag d a i := by
  simp only [flag, rd_settle d h]

theorem settle_disarmed : (settle d).host.disarmed = vecs fun v => d.host.disarmed.contains v || (firing d).contains v := by
  unfold settle; dsimp only; split <;> simp

theorem settle_pba :
    (settle d).host.pba = vecs fun v => d.host.pba.contains v || ((firing d).contains v && !canSend d v) := by
  unfold settle; dsimp only; split <;> simp

theorem settle_msgs : (settle d).host.msgs = d.host.msgs ++ (firing d).filter (canSend d) := by
  unfold settle; dsimp only; split <;> simp

/-! ## No vector is left armed with summary 1 (R655) -/

/-- Registers that make vectors pending or enable them do not include the message counter. -/
theorem irqSummary_settle {v : Nat} (hv : v < 36) : irqSummary (settle d) v = irqSummary d v := by
  have key : ∀ a, a ≠ Reg.irqMsgCnt → rd (settle d) a = rd d a := fun a h => rd_settle d h
  have hen : rd (settle d) (Reg.irqEn v) = rd d (Reg.irqEn v) := key _ (by simp only [Reg.irqEn, Reg.irqMsgCnt]; omega)
  have pair : ∀ a b, a ≠ Reg.irqMsgCnt → b ≠ Reg.irqMsgCnt → pairPending (settle d) a b = pairPending d a b := by
    intro a b ha hb; simp only [pairPending, key a ha, key b hb]
  have hflag : ∀ a i, a ≠ Reg.irqMsgCnt → flag (settle d) a i = flag d a i := fun a i h => flag_settle d i h
  have hlink : ∀ t, linkSum (settle d) t = linkSum d t := by
    intro t
    unfold linkSum
    congr 1
    apply List.filter_congr
    intro n _
    apply pair <;> simp only [Reg.port, Reg.pLinkEvc, Reg.pLinkAck, Reg.irqMsgCnt] <;> omega
  have hsts : irqSts (settle d) v = irqSts d v := by
    unfold irqSts
    split
    · rw [pair _ _ (by simp only [Reg.chan, Reg.mRspEvc, Reg.irqMsgCnt]; omega)
        (by simp only [Reg.chan, Reg.mRspAck, Reg.irqMsgCnt]; omega)]
    · split
      · have hr : ∀ k, k < 0x40 → Reg.ring (decide (24 ≤ v)) (v % 8) + k ≠ Reg.irqMsgCnt := by
          intro k hk; simp only [Reg.ring, Reg.irqMsgCnt]; split <;> omega
        dsimp only
        rw [pair _ _ (hr _ (by decide)) (hr _ (by decide)), hflag _ _ (hr _ (by decide))]
      · split
        · rw [pair Reg.parEvc Reg.parAck (by decide) (by decide), pair Reg.buserrEvc Reg.buserrAck (by decide) (by decide),
            pair Reg.fwEvc Reg.fwAck (by decide) (by decide), hflag Reg.ccSts 8 (by decide)]
        · split
          · rw [key Reg.safeSts (by decide)]
          · split
            · rw [pair Reg.calLoadEvc Reg.calLoadAck (by decide) (by decide),
                pair Reg.calRejectEvc Reg.calRejectAck (by decide) (by decide)]
            · simp only [hlink]
  simp only [irqSummary, hen, hsts]

/-- After the delivery no armed vector has summary 1. -/
theorem settled : IrqSettled (settle d) := by
  intro v hv ha
  rw [irqSummary_settle d hv]
  unfold armed at ha
  rw [settle_disarmed] at ha
  have hv64 : v < 64 := by omega
  simp only [vecs, List.contains_eq_mem, List.mem_filter, List.mem_range, hv64, true_and, Bool.or_eq_true,
    decide_eq_true_eq, Bool.not_eq_true', decide_eq_false_iff_not, not_or, firing, Bool.and_eq_true, not_and, armed] at ha
  have := ha.2 hv (by simp [ha.1])
  simpa using this

end Sys2Proof.Machine
end

