-- ==== Sys2Proof/Laws/Exec.lean ====
section
/-! SUPPORT. Every meaning has one form: an effect on the device, carried out when the operands name instances it has. -/

namespace Sys2Proof.Machine

/-- Every arm of `exec` runs one effect under the command's own well-formedness. -/
theorem exec_form (c : Instr) : ∃ f : Dev → Dev, ∀ s : State, exec c s = s.runIf c.wf f := by
  cases c <;> exact ⟨_, fun _ => rfl⟩

/-- A command that answers a next state is well formed, and the state it answers has its interrupts delivered. -/
theorem exec_next {c : Instr} {s t : State} (h : exec c s = .next t) :
    c.wf = true ∧ t.pending = s.pending ∧ ∃ e : Dev, t.dev = settle e := by
  obtain ⟨f, hf⟩ := exec_form c
  rw [hf] at h
  obtain ⟨hw, ht⟩ := runIf_next h
  subst ht
  exact ⟨hw, rfl, _, rfl⟩

end Sys2Proof.Machine
end

