-- ==== Sys2Proof/Laws/Host.lean ====
section
/-! SUPPORT. Configuration space and the completion of host reads: what `setPcie`, `unsupported` and `readData` leave in each part. -/

namespace Sys2Proof.Machine

variable (d : Dev)

/-! ## `setPcie` -/

@[simp] theorem setPcie_regs (f : PcieCfg → PcieCfg) : (setPcie d f).regs = d.regs := rfl
@[simp] theorem setPcie_now (f : PcieCfg → PcieCfg) : (setPcie d f).now = d.now := rfl
@[simp] theorem setPcie_freeCtr (f : PcieCfg → PcieCfg) : (setPcie d f).freeCtr = d.freeCtr := rfl
@[simp] theorem setPcie_pins (f : PcieCfg → PcieCfg) : (setPcie d f).pins = d.pins := rfl
@[simp] theorem setPcie_boot (f : PcieCfg → PcieCfg) : (setPcie d f).boot = d.boot := rfl
@[simp] theorem setPcie_ports (f : PcieCfg → PcieCfg) : (setPcie d f).ports = d.ports := rfl
@[simp] theorem setPcie_modBus (f : PcieCfg → PcieCfg) : (setPcie d f).modBus = d.modBus := rfl
@[simp] theorem setPcie_fwd (f : PcieCfg → PcieCfg) : (setPcie d f).fwd = d.fwd := rfl
@[simp] theorem setPcie_buf (f : PcieCfg → PcieCfg) : (setPcie d f).buf = d.buf := rfl
@[simp] theorem setPcie_trl (f : PcieCfg → PcieCfg) : (setPcie d f).trl = d.trl := rfl
@[simp] theorem setPcie_egr (f : PcieCfg → PcieCfg) : (setPcie d f).egr = d.egr := rfl
@[simp] theorem setPcie_time (f : PcieCfg → PcieCfg) : (setPcie d f).time = d.time := rfl
@[simp] theorem setPcie_safe (f : PcieCfg → PcieCfg) : (setPcie d f).safe = d.safe := rfl
@[simp] theorem setPcie_cc (f : PcieCfg → PcieCfg) : (setPcie d f).cc = d.cc := rfl
@[simp] theorem setPcie_tel (f : PcieCfg → PcieCfg) : (setPcie d f).tel = d.tel := rfl
@[simp] theorem setPcie_health (f : PcieCfg → PcieCfg) : (setPcie d f).health = d.health := rfl
@[simp] theorem setPcie_pcie (f : PcieCfg → PcieCfg) : (setPcie d f).host.pcie = f d.host.pcie := rfl
@[simp] theorem setPcie_rdata (f : PcieCfg → PcieCfg) : (setPcie d f).host.rdata = d.host.rdata := rfl
@[simp] theorem rd_setPcie (f : PcieCfg → PcieCfg) (a : Nat) : rd (setPcie d f) a = rd d a := rfl

/-! ## `readData` and `unsupported` -/

@[simp] theorem readData_regs (v : Nat) : (readData d v).regs = d.regs := rfl
@[simp] theorem readData_now (v : Nat) : (readData d v).now = d.now := rfl
@[simp] theorem readData_freeCtr (v : Nat) : (readData d v).freeCtr = d.freeCtr := rfl
@[simp] theorem readData_pins (v : Nat) : (readData d v).pins = d.pins := rfl
@[simp] theorem readData_boot (v : Nat) : (readData d v).boot = d.boot := rfl
@[simp] theorem readData_ports (v : Nat) : (readData d v).ports = d.ports := rfl
@[simp] theorem readData_modBus (v : Nat) : (readData d v).modBus = d.modBus := rfl
@[simp] theorem readData_fwd (v : Nat) : (readData d v).fwd = d.fwd := rfl
@[simp] theorem readData_buf (v : Nat) : (readData d v).buf = d.buf := rfl
@[simp] theorem readData_trl (v : Nat) : (readData d v).trl = d.trl := rfl
@[simp] theorem readData_egr (v : Nat) : (readData d v).egr = d.egr := rfl
@[simp] theorem readData_time (v : Nat) : (readData d v).time = d.time := rfl
@[simp] theorem readData_safe (v : Nat) : (readData d v).safe = d.safe := rfl
@[simp] theorem readData_cc (v : Nat) : (readData d v).cc = d.cc := rfl
@[simp] theorem readData_tel (v : Nat) : (readData d v).tel = d.tel := rfl
@[simp] theorem readData_health (v : Nat) : (readData d v).health = d.health := rfl
@[simp] theorem readData_rdata (v : Nat) : (readData d v).host.rdata = v := rfl
@[simp] theorem readData_cpl (v : Nat) : (readData d v).host.pcie.cpl = 0 := rfl
@[simp] theorem rd_readData (v a : Nat) : rd (readData d v) a = rd d a := rfl

@[simp] theorem unsupported_regs (w : Bool) : (unsupported d w).regs = d.regs := rfl
@[simp] theorem unsupported_now (w : Bool) : (unsupported d w).now = d.now := rfl
@[simp] theorem unsupported_freeCtr (w : Bool) : (unsupported d w).freeCtr = d.freeCtr := rfl
@[simp] theorem unsupported_pins (w : Bool) : (unsupported d w).pins = d.pins := rfl
@[simp] theorem unsupported_boot (w : Bool) : (unsupported d w).boot = d.boot := rfl
@[simp] theorem unsupported_ports (w : Bool) : (unsupported d w).ports = d.ports := rfl
@[simp] theorem unsupported_modBus (w : Bool) : (unsupported d w).modBus = d.modBus := rfl
@[simp] theorem unsupported_fwd (w : Bool) : (unsupported d w).fwd = d.fwd := rfl
@[simp] theorem unsupported_buf (w : Bool) : (unsupported d w).buf = d.buf := rfl
@[simp] theorem unsupported_trl (w : Bool) : (unsupported d w).trl = d.trl := rfl
@[simp] theorem unsupported_egr (w : Bool) : (unsupported d w).egr = d.egr := rfl
@[simp] theorem unsupported_time (w : Bool) : (unsupported d w).time = d.time := rfl
@[simp] theorem unsupported_safe (w : Bool) : (unsupported d w).safe = d.safe := rfl
@[simp] theorem unsupported_cc (w : Bool) : (unsupported d w).cc = d.cc := rfl
@[simp] theorem unsupported_tel (w : Bool) : (unsupported d w).tel = d.tel := rfl
@[simp] theorem unsupported_health (w : Bool) : (unsupported d w).health = d.health := rfl
@[simp] theorem rd_unsupported (w : Bool) (a : Nat) : rd (unsupported d w) a = rd d a := rfl

/-- A write that raises a bus error is recorded in AER, and reported where the host has enabled that (R640). -/
theorem unsupported_write : (unsupported d true).host.pcie =
    { d.host.pcie with aerUr := true, nonfatal := d.host.pcie.nonfatal + b2n d.host.pcie.urReport } := rfl

/-- A read that raises one is completed with Unsupported Request status (R640). -/
theorem unsupported_read : (unsupported d false).host.pcie = { d.host.pcie with cpl := 1 } := rfl

/-! ## Configuration space -/

/-- A read of a word whose every bit is known returns what the word holds (R629). -/
theorem cfgRead_known {a : Nat} (h : (cfgWord a).free = 0) : cfgRead d a = readData d (cfgHeld d a) := by simp [cfgRead, h]

/-- A write of configuration space moves held words alone; one that selects no writable bit moves nothing. -/
theorem cfgStore_cases (a be v : Nat) :
    cfgStore d a be v = d ∨ ∃ w : Tab Nat → Tab Nat, cfgStore d a be v = setPcie d fun c => { c with words := w c.words } := by
  unfold cfgStore
  dsimp only
  split
  · exact .inl rfl
  · let m := (cfgWord a).rw &&& beMask be
    exact .inr ⟨fun l => tput (cfgWord a).value l a ((tget (cfgWord a).value l a &&& (0xFFFF_FFFF - m)) ||| (v &&& m)), rfl⟩

theorem cfgStore_none {a be : Nat} (v : Nat) (h : (cfgWord a).rw &&& beMask be = 0) : cfgStore d a be v = d := by simp [cfgStore, h]

/-- Whether a message can go out depends on the host interface alone. -/
theorem canSend_iff (v : Nat) : canSend d v = true ↔
    d.host.busMaster = true ∧ d.host.d3 = false ∧ d.host.pcie.msixOn = true ∧ d.host.pcie.fnMask = false ∧ v ∉ d.host.masked := by
  simp [canSend, and_assoc]

end Sys2Proof.Machine
end

