-- ==== Sys2Proof/Laws/Mailbox.lean ====
section
/-! SUPPORT. How a mailbox command completes: its response, and what completion leaves alone. -/

namespace Sys2Proof.Machine

open Sys2Proof

/-- The checks of R688 pass. -/
theorem checks_zero {d : Dev} {ch op fl flags : Nat} {sl : Slot} {lenOk : Bool} (hc : ch < 16) (h : Accepted d ch sl op fl)
    (hl : lenOk = true) (hf : fl &&& flags = fl) : checks d ch sl flags lenOk = 0 := by
  obtain ⟨ho, hch, hfl, hlen, hp, hpo, hv, -⟩ := h
  have hs : safetyOp op = decide (op / 256 = 6) := by
    unfold safetyOp; rw [decide_eq_decide]; omega
  have hcok : channelOk ch sl.opcode = true := by
    unfold channelOk
    rw [ho, hs]
    by_cases h6 : op / 256 = 6
    · simp_all
    · by_cases h15 : ch = 15
      · subst h15; simp_all
      · simp [h15, h6]
  have hln : ¬(16384 < sl.len) := by omega
  simp only [checks, hcok, hln, hl, hfl, hf, hp, hpo]
  rcases hv with h | h <;> simp [h]

/-- An accepted command at work runs its body and completes. -/
theorem runCmd_eq {d : Dev} {ch op fl flags : Nat} {sl : Slot} {sel lenOk : Slot → Bool} {body : Dev → Slot → Res} (hc : ch < 16)
    (hs : Served d ch sl) (h : Accepted d ch sl op fl) (hsel : sel sl = true) (hl : lenOk sl = true)
    (hf : fl &&& flags = fl) : runCmd d ch op flags sel lenOk body = complete ch sl (body d sl) := by
  obtain ⟨hfw, hin, -⟩ := hs
  have hw : lockWaits d ch sl = false := h.2.2.2.2.2.2.2
  simp [runCmd, hfw, hin, h.1, hsel, hw, checks_zero hc h hl hf]

/-- The device after a body, with its response's vintage and its payload buffer back. -/
def afterBody (ch : Nat) (sl : Slot) (r : Res) : Dev :=
  let d := if r.vint then r.dev.onHost fun h => { h with vintage := nextVintage h.vintage } else r.dev
  match sl.buf with
  | some o => coopFree d (32 + ch) o
  | none => d

def rspOf (sl : Slot) (r : Res) (v : Nat) : Rsp :=
  { status := r.status, len := r.payload.length, tag := sl.tag, vintage := v, detail := r.detail, reason := r.reason,
    payload := r.payload.take sl.rspLen, addr := sl.rspAddr }

theorem rd_coopFree (d : Dev) (w o : Nat) {a : Nat} (h1 : a ≠ Reg.coopBadFree) (h2 : a ≠ Reg.coopBadFreeLast) :
    rd (coopFree d w o) a = rd d a := by
  unfold coopFree
  split
  · rfl
  · rw [rd_wr_ne _ _ h2, rd_cnt_ne _ h1]

/-- The part of the vintage and buffer step that every later statement needs. -/
theorem afterBody_rd (ch : Nat) (sl : Slot) (r : Res) {a : Nat} (h1 : a ≠ Reg.coopBadFree) (h2 : a ≠ Reg.coopBadFreeLast) :
    rd (afterBody ch sl r) a = rd r.dev a := by
  unfold afterBody
  dsimp only
  split
  · rw [rd_coopFree _ _ _ h1 h2]; split <;> rfl
  · split <;> rfl

/-! ## Parts that completion leaves alone -/

@[simp] theorem coopFree_now (d : Dev) (w o : Nat) : (coopFree d w o).now = d.now := by
  unfold coopFree
  split
  · rfl
  · rw [wr_now, cnt_now]
@[simp] theorem coopFree_freeCtr (d : Dev) (w o : Nat) : (coopFree d w o).freeCtr = d.freeCtr := by
  unfold coopFree
  split
  · rfl
  · rw [wr_freeCtr, cnt_freeCtr]
@[simp] theorem coopFree_pins (d : Dev) (w o : Nat) : (coopFree d w o).pins = d.pins := by
  unfold coopFree
  split
  · rfl
  · rw [wr_pins, cnt_pins]
@[simp] theorem coopFree_boot (d : Dev) (w o : Nat) : (coopFree d w o).boot = d.boot := by
  unfold coopFree
  split
  · rfl
  · rw [wr_boot, cnt_boot]
@[simp] theorem coopFree_ports (d : Dev) (w o : Nat) : (coopFree d w o).ports = d.ports := by
  unfold coopFree
  split
  · rfl
  · rw [wr_ports, cnt_ports]
@[simp] theorem coopFree_modBus (d : Dev) (w o : Nat) : (coopFree d w o).modBus = d.modBus := by
  unfold coopFree
  split
  · rfl
  · rw [wr_modBus, cnt_modBus]
@[simp] theorem coopFree_fwd (d : Dev) (w o : Nat) : (coopFree d w o).fwd = d.fwd := by
  unfold coopFree
  split
  · rfl
  · rw [wr_fwd, cnt_fwd]
@[simp] theorem coopFree_buf (d : Dev) (w o : Nat) : (coopFree d w o).buf = d.buf := by
  unfold coopFree
  split
  · rfl
  · rw [wr_buf, cnt_buf]
@[simp] theorem coopFree_trl (d : Dev) (w o : Nat) : (coopFree d w o).trl = d.trl := by
  unfold coopFree
  split
  · rfl
  · rw [wr_trl, cnt_trl]
@[simp] theorem coopFree_egr (d : Dev) (w o : Nat) : (coopFree d w o).egr = d.egr := by
  unfold coopFree
  split
  · rfl
  · rw [wr_egr, cnt_egr]
@[simp] theorem coopFree_time (d : Dev) (w o : Nat) : (coopFree d w o).time = d.time := by
  unfold coopFree
  split
  · rfl
  · rw [wr_time, cnt_time]
@[simp] theorem coopFree_safe (d : Dev) (w o : Nat) : (coopFree d w o).safe = d.safe := by
  unfold coopFree
  split
  · rfl
  · rw [wr_safe, cnt_safe]
@[simp] theorem coopFree_health (d : Dev) (w o : Nat) : (coopFree d w o).health = d.health := by
  unfold coopFree
  split
  · rfl
  · rw [wr_health, cnt_health]
@[simp] theorem coopFree_host_chan (d : Dev) (w o : Nat) : (coopFree d w o).host.chan = d.host.chan := by
  unfold coopFree
  split
  · rfl
  · rw [wr_host_chan, cnt_host_chan]
@[simp] theorem coopFree_host_busMaster (d : Dev) (w o : Nat) : (coopFree d w o).host.busMaster = d.host.busMaster := by
  unfold coopFree
  split
  · rfl
  · rw [wr_host_busMaster, cnt_host_busMaster]
@[simp] theorem coopFree_host_d3 (d : Dev) (w o : Nat) : (coopFree d w o).host.d3 = d.host.d3 := by
  unfold coopFree
  split
  · rfl
  · rw [wr_host_d3, cnt_host_d3]
@[simp] theorem coopFree_host_pcie (d : Dev) (w o : Nat) : (coopFree d w o).host.pcie = d.host.pcie := by
  unfold coopFree
  split
  · rfl
  · rw [wr_host_pcie, cnt_host_pcie]
@[simp] theorem coopFree_host_disarmed (d : Dev) (w o : Nat) : (coopFree d w o).host.disarmed = d.host.disarmed := by
  unfold coopFree
  split
  · rfl
  · rw [wr_host_disarmed, cnt_host_disarmed]
@[simp] theorem coopFree_host_masked (d : Dev) (w o : Nat) : (coopFree d w o).host.masked = d.host.masked := by
  unfold coopFree
  split
  · rfl
  · rw [wr_host_masked, cnt_host_masked]
@[simp] theorem coopFree_host_pba (d : Dev) (w o : Nat) : (coopFree d w o).host.pba = d.host.pba := by
  unfold coopFree
  split
  · rfl
  · rw [wr_host_pba, cnt_host_pba]
@[simp] theorem coopFree_host_msix (d : Dev) (w o : Nat) : (coopFree d w o).host.msix = d.host.msix := by
  unfold coopFree
  split
  · rfl
  · rw [wr_host_msix, cnt_host_msix]
@[simp] theorem coopFree_host_msgs (d : Dev) (w o : Nat) : (coopFree d w o).host.msgs = d.host.msgs := by
  unfold coopFree
  split
  · rfl
  · rw [wr_host_msgs, cnt_host_msgs]
@[simp] theorem coopFree_host_notes (d : Dev) (w o : Nat) : (coopFree d w o).host.notes = d.host.notes := by
  unfold coopFree
  split
  · rfl
  · rw [wr_host_notes, cnt_host_notes]
@[simp] theorem coopFree_host_trapQ (d : Dev) (w o : Nat) : (coopFree d w o).host.trapQ = d.host.trapQ := by
  unfold coopFree
  split
  · rfl
  · rw [wr_host_trapQ, cnt_host_trapQ]
@[simp] theorem coopFree_host_trapBkt (d : Dev) (w o : Nat) : (coopFree d w o).host.trapBkt = d.host.trapBkt := by
  unfold coopFree
  split
  · rfl
  · rw [wr_host_trapBkt, cnt_host_trapBkt]
@[simp] theorem coopFree_host_inject (d : Dev) (w o : Nat) : (coopFree d w o).host.inject = d.host.inject := by
  unfold coopFree
  split
  · rfl
  · rw [wr_host_inject, cnt_host_inject]
@[simp] theorem coopFree_host_done (d : Dev) (w o : Nat) : (coopFree d w o).host.done = d.host.done := by
  unfold coopFree
  split
  · rfl
  · rw [wr_host_done, cnt_host_done]
@[simp] theorem coopFree_host_parQ (d : Dev) (w o : Nat) : (coopFree d w o).host.parQ = d.host.parQ := by
  unfold coopFree
  split
  · rfl
  · rw [wr_host_parQ, cnt_host_parQ]
@[simp] theorem coopFree_host_staging (d : Dev) (w o : Nat) : (coopFree d w o).host.staging = d.host.staging := by
  unfold coopFree
  split
  · rfl
  · rw [wr_host_staging, cnt_host_staging]
@[simp] theorem coopFree_host_rdata (d : Dev) (w o : Nat) : (coopFree d w o).host.rdata = d.host.rdata := by
  unfold coopFree
  split
  · rfl
  · rw [wr_host_rdata, cnt_host_rdata]
@[simp] theorem coopFree_host_cfg (d : Dev) (w o : Nat) : (coopFree d w o).host.cfg = d.host.cfg := by
  unfold coopFree
  split
  · rfl
  · rw [wr_host_cfg, cnt_host_cfg]
@[simp] theorem coopFree_host_vintage (d : Dev) (w o : Nat) : (coopFree d w o).host.vintage = d.host.vintage := by
  unfold coopFree
  split
  · rfl
  · rw [wr_host_vintage, cnt_host_vintage]
@[simp] theorem coopFree_tel_ring (d : Dev) (w o : Nat) : (coopFree d w o).tel.ring = d.tel.ring := by
  unfold coopFree
  split
  · rfl
  · rw [wr_tel, cnt_tel_ring]
@[simp] theorem coopFree_tel_bbQ (d : Dev) (w o : Nat) : (coopFree d w o).tel.bbQ = d.tel.bbQ := by
  unfold coopFree
  split
  · rfl
  · rw [wr_tel, cnt_tel_bbQ]
@[simp] theorem coopFree_tel_seq (d : Dev) (w o : Nat) : (coopFree d w o).tel.seq = d.tel.seq := by
  unfold coopFree
  split
  · rfl
  · rw [wr_tel, cnt_tel_seq]
@[simp] theorem coopFree_tel_slots (d : Dev) (w o : Nat) : (coopFree d w o).tel.slots = d.tel.slots := by
  unfold coopFree
  split
  · rfl
  · rw [wr_tel, cnt_tel_slots]
@[simp] theorem coopFree_tel_copy (d : Dev) (w o : Nat) : (coopFree d w o).tel.copy = d.tel.copy := by
  unfold coopFree
  split
  · rfl
  · rw [wr_tel, cnt_tel_copy]
@[simp] theorem coopFree_tel_heldTrig (d : Dev) (w o : Nat) : (coopFree d w o).tel.heldTrig = d.tel.heldTrig := by
  unfold coopFree
  split
  · rfl
  · rw [wr_tel, cnt_tel_heldTrig]
@[simp] theorem coopFree_tel_trigDue (d : Dev) (w o : Nat) : (coopFree d w o).tel.trigDue = d.tel.trigDue := by
  unfold coopFree
  split
  · rfl
  · rw [wr_tel, cnt_tel_trigDue]
@[simp] theorem coopFree_tel_shot (d : Dev) (w o : Nat) : (coopFree d w o).tel.shot = d.tel.shot := by
  unfold coopFree
  split
  · rfl
  · rw [wr_tel, cnt_tel_shot]
@[simp] theorem coopFree_tel_bank (d : Dev) (w o : Nat) : (coopFree d w o).tel.bank = d.tel.bank := by
  unfold coopFree
  split
  · rfl
  · rw [wr_tel, cnt_tel_bank]
@[simp] theorem coopFree_tel_bankWraps (d : Dev) (w o : Nat) : (coopFree d w o).tel.bankWraps = d.tel.bankWraps := by
  unfold coopFree
  split
  · rfl
  · rw [wr_tel, cnt_tel_bankWraps]
@[simp] theorem coopFree_tel_snapWait (d : Dev) (w o : Nat) : (coopFree d w o).tel.snapWait = d.tel.snapWait := by
  unfold coopFree
  split
  · rfl
  · rw [wr_tel, cnt_tel_snapWait]
@[simp] theorem coopFree_tel_totals (d : Dev) (w o : Nat) : (coopFree d w o).tel.totals = d.tel.totals := by
  unfold coopFree
  split
  · rfl
  · rw [wr_tel, cnt_tel_totals]
@[simp] theorem coopFree_tel_tasteN (d : Dev) (w o : Nat) : (coopFree d w o).tel.tasteN = d.tel.tasteN := by
  unfold coopFree
  split
  · rfl
  · rw [wr_tel, cnt_tel_tasteN]
@[simp] theorem coopFree_tel_tasteLog (d : Dev) (w o : Nat) : (coopFree d w o).tel.tasteLog = d.tel.tasteLog := by
  unfold coopFree
  split
  · rfl
  · rw [wr_tel, cnt_tel_tasteLog]
@[simp] theorem coopFree_tel_mirrors (d : Dev) (w o : Nat) : (coopFree d w o).tel.mirrors = d.tel.mirrors := by
  unfold coopFree
  split
  · rfl
  · rw [wr_tel, cnt_tel_mirrors]
@[simp] theorem afterBody_now (ch : Nat) (sl : Slot) (r : Res) : (afterBody ch sl r).now = r.dev.now := by unfold afterBody; dsimp only; split <;> split <;> simp
@[simp] theorem afterBody_freeCtr (ch : Nat) (sl : Slot) (r : Res) : (afterBody ch sl r).freeCtr = r.dev.freeCtr := by unfold afterBody; dsimp only; split <;> split <;> simp
@[simp] theorem afterBody_pins (ch : Nat) (sl : Slot) (r : Res) : (afterBody ch sl r).pins = r.dev.pins := by unfold afterBody; dsimp only; split <;> split <;> simp
@[simp] theorem afterBody_boot (ch : Nat) (sl : Slot) (r : Res) : (afterBody ch sl r).boot = r.dev.boot := by unfold afterBody; dsimp only; split <;> split <;> simp
@[simp] theorem afterBody_ports (ch : Nat) (sl : Slot) (r : Res) : (afterBody ch sl r).ports = r.dev.ports := by unfold afterBody; dsimp only; split <;> split <;> simp
@[simp] theorem afterBody_modBus (ch : Nat) (sl : Slot) (r : Res) : (afterBody ch sl r).modBus = r.dev.modBus := by unfold afterBody; dsimp only; split <;> split <;> simp
@[simp] theorem afterBody_fwd (ch : Nat) (sl : Slot) (r : Res) : (afterBody ch sl r).fwd = r.dev.fwd := by unfold afterBody; dsimp only; split <;> split <;> simp
@[simp] theorem afterBody_buf (ch : Nat) (sl : Slot) (r : Res) : (afterBody ch sl r).buf = r.dev.buf := by unfold afterBody; dsimp only; split <;> split <;> simp
@[simp] theorem afterBody_trl (ch : Nat) (sl : Slot) (r : Res) : (afterBody ch sl r).trl = r.dev.trl := by unfold afterBody; dsimp only; split <;> split <;> simp
@[simp] theorem afterBody_egr (ch : Nat) (sl : Slot) (r : Res) : (afterBody ch sl r).egr = r.dev.egr := by unfold afterBody; dsimp only; split <;> split <;> simp
@[simp] theorem afterBody_time (ch : Nat) (sl : Slot) (r : Res) : (afterBody ch sl r).time = r.dev.time := by unfold afterBody; dsimp only; split <;> split <;> simp
@[simp] theorem afterBody_safe (ch : Nat) (sl : Slot) (r : Res) : (afterBody ch sl r).safe = r.dev.safe := by unfold afterBody; dsimp only; split <;> split <;> simp
@[simp] theorem afterBody_health (ch : Nat) (sl : Slot) (r : Res) : (afterBody ch sl r).health = r.dev.health := by unfold afterBody; dsimp only; split <;> split <;> simp
@[simp] theorem afterBody_host_chan (ch : Nat) (sl : Slot) (r : Res) : (afterBody ch sl r).host.chan = r.dev.host.chan := by unfold afterBody; dsimp only; split <;> split <;> simp
@[simp] theorem afterBody_host_busMaster (ch : Nat) (sl : Slot) (r : Res) : (afterBody ch sl r).host.busMaster = r.dev.host.busMaster := by unfold afterBody; dsimp only; split <;> split <;> simp
@[simp] theorem afterBody_host_d3 (ch : Nat) (sl : Slot) (r : Res) : (afterBody ch sl r).host.d3 = r.dev.host.d3 := by unfold afterBody; dsimp only; split <;> split <;> simp
@[simp] theorem afterBody_host_pcie (ch : Nat) (sl : Slot) (r : Res) : (afterBody ch sl r).host.pcie = r.dev.host.pcie := by unfold afterBody; dsimp only; split <;> split <;> simp
@[simp] theorem afterBody_host_disarmed (ch : Nat) (sl : Slot) (r : Res) : (afterBody ch sl r).host.disarmed = r.dev.host.disarmed := by unfold afterBody; dsimp only; split <;> split <;> simp
@[simp] theorem afterBody_host_masked (ch : Nat) (sl : Slot) (r : Res) : (afterBody ch sl r).host.masked = r.dev.host.masked := by unfold afterBody; dsimp only; split <;> split <;> simp
@[simp] theorem afterBody_host_pba (ch : Nat) (sl : Slot) (r : Res) : (afterBody ch sl r).host.pba = r.dev.host.pba := by unfold afterBody; dsimp only; split <;> split <;> simp
@[simp] theorem afterBody_host_msix (ch : Nat) (sl : Slot) (r : Res) : (afterBody ch sl r).host.msix = r.dev.host.msix := by unfold afterBody; dsimp only; split <;> split <;> simp
@[simp] theorem afterBody_host_msgs (ch : Nat) (sl : Slot) (r : Res) : (afterBody ch sl r).host.msgs = r.dev.host.msgs := by unfold afterBody; dsimp only; split <;> split <;> simp
@[simp] theorem afterBody_host_notes (ch : Nat) (sl : Slot) (r : Res) : (afterBody ch sl r).host.notes = r.dev.host.notes := by unfold afterBody; dsimp only; split <;> split <;> simp
@[simp] theorem afterBody_host_trapQ (ch : Nat) (sl : Slot) (r : Res) : (afterBody ch sl r).host.trapQ = r.dev.host.trapQ := by unfold afterBody; dsimp only; split <;> split <;> simp
@[simp] theorem afterBody_host_trapBkt (ch : Nat) (sl : Slot) (r : Res) : (afterBody ch sl r).host.trapBkt = r.dev.host.trapBkt := by unfold afterBody; dsimp only; split <;> split <;> simp
@[simp] theorem afterBody_host_inject (ch : Nat) (sl : Slot) (r : Res) : (afterBody ch sl r).host.inject = r.dev.host.inject := by unfold afterBody; dsimp only; split <;> split <;> simp
@[simp] theorem afterBody_host_done (ch : Nat) (sl : Slot) (r : Res) : (afterBody ch sl r).host.done = r.dev.host.done := by unfold afterBody; dsimp only; split <;> split <;> simp
@[simp] theorem afterBody_host_parQ (ch : Nat) (sl : Slot) (r : Res) : (afterBody ch sl r).host.parQ = r.dev.host.parQ := by unfold afterBody; dsimp only; split <;> split <;> simp
@[simp] theorem afterBody_host_staging (ch : Nat) (sl : Slot) (r : Res) : (afterBody ch sl r).host.staging = r.dev.host.staging := by unfold afterBody; dsimp only; split <;> split <;> simp
@[simp] theorem afterBody_host_rdata (ch : Nat) (sl : Slot) (r : Res) : (afterBody ch sl r).host.rdata = r.dev.host.rdata := by unfold afterBody; dsimp only; split <;> split <;> simp
@[simp] theorem afterBody_host_cfg (ch : Nat) (sl : Slot) (r : Res) : (afterBody ch sl r).host.cfg = r.dev.host.cfg := by unfold afterBody; dsimp only; split <;> split <;> simp
@[simp] theorem afterBody_tel_ring (ch : Nat) (sl : Slot) (r : Res) : (afterBody ch sl r).tel.ring = r.dev.tel.ring := by unfold afterBody; dsimp only; split <;> split <;> simp
@[simp] theorem afterBody_tel_bbQ (ch : Nat) (sl : Slot) (r : Res) : (afterBody ch sl r).tel.bbQ = r.dev.tel.bbQ := by unfold afterBody; dsimp only; split <;> split <;> simp
@[simp] theorem afterBody_tel_seq (ch : Nat) (sl : Slot) (r : Res) : (afterBody ch sl r).tel.seq = r.dev.tel.seq := by unfold afterBody; dsimp only; split <;> split <;> simp
@[simp] theorem afterBody_tel_slots (ch : Nat) (sl : Slot) (r : Res) : (afterBody ch sl r).tel.slots = r.dev.tel.slots := by unfold afterBody; dsimp only; split <;> split <;> simp
@[simp] theorem afterBody_tel_copy (ch : Nat) (sl : Slot) (r : Res) : (afterBody ch sl r).tel.copy = r.dev.tel.copy := by unfold afterBody; dsimp only; split <;> split <;> simp
@[simp] theorem afterBody_tel_heldTrig (ch : Nat) (sl : Slot) (r : Res) : (afterBody ch sl r).tel.heldTrig = r.dev.tel.heldTrig := by unfold afterBody; dsimp only; split <;> split <;> simp
@[simp] theorem afterBody_tel_trigDue (ch : Nat) (sl : Slot) (r : Res) : (afterBody ch sl r).tel.trigDue = r.dev.tel.trigDue := by unfold afterBody; dsimp only; split <;> split <;> simp
@[simp] theorem afterBody_tel_shot (ch : Nat) (sl : Slot) (r : Res) : (afterBody ch sl r).tel.shot = r.dev.tel.shot := by unfold afterBody; dsimp only; split <;> split <;> simp
@[simp] theorem afterBody_tel_bank (ch : Nat) (sl : Slot) (r : Res) : (afterBody ch sl r).tel.bank = r.dev.tel.bank := by unfold afterBody; dsimp only; split <;> split <;> simp
@[simp] theorem afterBody_tel_bankWraps (ch : Nat) (sl : Slot) (r : Res) : (afterBody ch sl r).tel.bankWraps = r.dev.tel.bankWraps := by unfold afterBody; dsimp only; split <;> split <;> simp
@[simp] theorem afterBody_tel_snapWait (ch : Nat) (sl : Slot) (r : Res) : (afterBody ch sl r).tel.snapWait = r.dev.tel.snapWait := by unfold afterBody; dsimp only; split <;> split <;> simp
@[simp] theorem afterBody_tel_totals (ch : Nat) (sl : Slot) (r : Res) : (afterBody ch sl r).tel.totals = r.dev.tel.totals := by unfold afterBody; dsimp only; split <;> split <;> simp
@[simp] theorem afterBody_tel_tasteN (ch : Nat) (sl : Slot) (r : Res) : (afterBody ch sl r).tel.tasteN = r.dev.tel.tasteN := by unfold afterBody; dsimp only; split <;> split <;> simp
@[simp] theorem afterBody_tel_tasteLog (ch : Nat) (sl : Slot) (r : Res) : (afterBody ch sl r).tel.tasteLog = r.dev.tel.tasteLog := by unfold afterBody; dsimp only; split <;> split <;> simp
@[simp] theorem afterBody_tel_mirrors (ch : Nat) (sl : Slot) (r : Res) : (afterBody ch sl r).tel.mirrors = r.dev.tel.mirrors := by unfold afterBody; dsimp only; split <;> split <;> simp

theorem afterBody_vintage (ch : Nat) (sl : Slot) (r : Res) :
    (afterBody ch sl r).host.vintage = if r.vint then nextVintage r.dev.host.vintage else r.dev.host.vintage := by
  unfold afterBody; dsimp only; split <;> split <;> simp

@[simp] theorem chanOf_afterBody (ch : Nat) (sl : Slot) (r : Res) (m : Nat) : chanOf (afterBody ch sl r) m = chanOf r.dev m := by
  simp [chanOf]

/-- The command's response in its slot, counted in `MBX_ERR_CNT` unless it is OK. -/
def responded (ch : Nat) (sl : Slot) (r : Res) : Dev :=
  let d := afterBody ch sl r
  let d := setChan d ch fun c => { c with inflight := [] }
  let d := setChan d ch fun c => { c with ring := tins c.ring (mreg d ch Reg.mRspEvc % 64) (rspOf sl r d.host.vintage) }
  if r.status = 0 then d else cnt d (Reg.chan ch + Reg.mErrCnt)

theorem chanReg_ne {ch k : Nat} (hc : ch < 16) (hk : k < 0x100) :
    Reg.chan ch + k ≠ Reg.coopBadFree ∧ Reg.chan ch + k ≠ Reg.coopBadFreeLast ∧ Reg.chan ch + k ≠ Reg.irqMsgCnt := by
  simp only [Reg.chan, Reg.coopBadFree, Reg.coopBadFreeLast, Reg.irqMsgCnt, Reg.cc]; omega

/-- Completing the only command of a channel in service: the response is written and counted. -/
theorem complete_eq {ch : Nat} {sl : Slot} {r : Res} (hc : ch < 16) (hs : Served r.dev ch sl) :
    complete ch sl r = cnt (responded ch sl r) (Reg.chan ch + Reg.mRspEvc) := by
  obtain ⟨hfw, hin, hd, hh, hp, hb, h3, he, hw, hft⟩ := hs
  have hhead : completeHead ch sl r = cnt (responded ch sl r) (Reg.chan ch + Reg.mRspEvc) := by
    have hab : completeHead ch sl r = activeFall (
        let d := setChan (afterBody ch sl r) ch fun c => { c with inflight := c.inflight.tail }
        if 0 < (chanOf (afterBody ch sl r) ch).discard then setChan d ch fun c => { c with discard := c.discard - 1 }
        else if !d.host.busMaster || d.host.d3 || (chanOf (afterBody ch sl r) ch).held ≠ [] then
          setChan d ch fun c => { c with held := c.held ++ [(rspOf sl r (afterBody ch sl r).host.vintage, sl.rspOk)] }
        else writeRsp d ch (rspOf sl r (afterBody ch sl r).host.vintage) sl.rspOk) ch := by
      unfold completeHead; rw [hft]; rfl
    have hsame : (fun c : Chan => { c with inflight := c.inflight.tail }) (chanOf r.dev ch) =
        (fun c : Chan => { c with inflight := [] }) (chanOf r.dev ch) := by simp [hin]
    have hset : setChan (afterBody ch sl r) ch (fun c => { c with inflight := c.inflight.tail }) =
        setChan (afterBody ch sl r) ch fun c => { c with inflight := [] } := by
      unfold setChan Dev.onHost tmod
      have := hsame
      simp only [chanOf] at this
      simp only [afterBody_host_chan, this]
    have herr : chanErr (setChan (afterBody ch sl r) ch fun c => { c with inflight := [] }) ch = false := by
      have hn := chanReg_ne (k := Reg.mSts) hc (by decide)
      simp only [chanErr, flag] at he ⊢
      rw [rd_setChan, afterBody_rd _ _ _ hn.1 hn.2.1]
      exact he
    rw [hab]
    dsimp only
    rw [chanOf_afterBody, hd, if_neg (Nat.lt_irrefl 0), hset]
    have hb' : (setChan (afterBody ch sl r) ch fun c => { c with inflight := [] }).host.busMaster = true := by simpa using hb
    have h3' : (setChan (afterBody ch sl r) ch fun c => { c with inflight := [] }).host.d3 = false := by simpa using h3
    rw [hb', h3', hh]
    simp only [Bool.not_true, Bool.or_self, ne_eq, not_true_eq_false, decide_false, Bool.false_eq_true, if_false, writeRsp, herr,
      Bool.false_and, hw]
    unfold responded rspOf activeFall
    dsimp only
    split <;> simp [hp]
  unfold complete
  rw [hhead]
  have hnil : (chanOf (cnt (responded ch sl r) (Reg.chan ch + Reg.mRspEvc)) ch).inflight = [] := by
    simp only [chanOf_cnt, responded]
    split <;> simp
  simp only [drain, hnil]


/-! ## What a completed command leaves -/

section
variable {ch : Nat} {sl : Slot} {r : Res}

@[simp] theorem responded_chan_inflight : (chanOf (responded ch sl r) ch).inflight = [] := by
  unfold responded; dsimp only; split <;> simp

theorem rd_responded {a : Nat} (h1 : a ≠ Reg.coopBadFree) (h2 : a ≠ Reg.coopBadFreeLast) (h3 : a ≠ Reg.chan ch + Reg.mErrCnt) :
    rd (responded ch sl r) a = rd r.dev a := by
  unfold responded
  dsimp only
  split
  · simp [afterBody_rd _ _ _ h1 h2]
  · rw [rd_cnt_ne _ h3]; simp [afterBody_rd _ _ _ h1 h2]

/-- A part other than the channel, the control complex and the host interface is as the body left it. -/
theorem responded_same {x : Piece} (h1 : x ≠ .chan) (h2 : x ≠ .cc) (h3 : x ≠ .host) : Same x r.dev (responded ch sl r) := by
  unfold responded
  cases x <;> dsimp only <;> split <;> simp_all [Same]

theorem complete_same (hc : ch < 16) (hs : Served r.dev ch sl) {x : Piece} (h1 : x ≠ .chan) (h2 : x ≠ .cc) (h3 : x ≠ .host) :
    Same x r.dev (complete ch sl r) := by
  have h := responded_same (ch := ch) (sl := sl) (r := r) h1 h2 h3
  rw [complete_eq hc hs]
  cases x <;> simp_all [Same]

theorem complete_vintage (hc : ch < 16) (hs : Served r.dev ch sl) :
    (complete ch sl r).host.vintage = if r.vint then nextVintage r.dev.host.vintage else r.dev.host.vintage := by
  rw [complete_eq hc hs]
  simp only [cnt_host_vintage, responded]
  split <;> simp [afterBody_vintage]

/-- The host interface beside the vintage and the channel. -/
theorem complete_host (hc : ch < 16) (hs : Served r.dev ch sl) (hv : r.vint = false) : Same .host r.dev (complete ch sl r) := by
  rw [complete_eq hc hs]
  simp only [Same, responded]
  split <;> simp [afterBody_vintage, hv]

theorem complete_staging (hc : ch < 16) (hs : Served r.dev ch sl) : (complete ch sl r).host.staging = r.dev.host.staging := by
  rw [complete_eq hc hs]; simp only [responded]; split <;> simp

theorem complete_cfg (hc : ch < 16) (hs : Served r.dev ch sl) : (complete ch sl r).host.cfg = r.dev.host.cfg := by
  rw [complete_eq hc hs]; simp only [responded]; split <;> simp

theorem rd_complete (hc : ch < 16) (hs : Served r.dev ch sl) {a : Nat} (h1 : a ≠ Reg.coopBadFree) (h2 : a ≠ Reg.coopBadFreeLast)
    (h3 : ¬ChanReg ch a) : rd (complete ch sl r) a = rd r.dev a := by
  have hin : ∀ k, k < 0x100 → a ≠ Reg.chan ch + k := by
    intro k hk he; exact h3 ⟨by omega, by omega⟩
  rw [complete_eq hc hs, rd_cnt_ne _ (hin _ (by decide)), rd_responded h1 h2 (hin _ (by decide))]

theorem settle_same (d : Dev) (x : Piece) : Same x d (settle d) := by cases x <;> simp [Same]

theorem Same.trans {x : Piece} {a b c : Dev} (h : Same x a b) (g : Same x b c) : Same x a c := by
  cases x <;> simp_all [Same]

theorem Same.refl (x : Piece) (a : Dev) : Same x a a := by cases x <;> simp [Same]

/-- The response of a command that has completed. -/
theorem complete_answered (d : Dev) (hc : ch < 16) (hs : Served r.dev ch sl)
    (hm : mreg r.dev ch Reg.mRspEvc = mreg d ch Reg.mRspEvc) (hr : r.reason = 0) :
    Answered d (settle (complete ch sl r)) ch sl r.status r.detail r.payload := by
  have hn := chanReg_ne (k := Reg.mRspEvc) hc (by decide)
  have hne : Reg.chan ch + Reg.mRspEvc ≠ Reg.chan ch + Reg.mErrCnt := by simp [Reg.mRspEvc, Reg.mErrCnt]
  have hresp : mreg (responded ch sl r) ch Reg.mRspEvc = mreg d ch Reg.mRspEvc := by
    rw [← hm]; exact rd_responded hn.1 hn.2.1 hne
  have hbody : mreg (afterBody ch sl r) ch Reg.mRspEvc = mreg d ch Reg.mRspEvc := by
    rw [← hm]; exact afterBody_rd _ _ _ hn.1 hn.2.1
  refine ⟨?_, ?_, ?_⟩
  · rw [chanOf_settle, complete_eq hc hs, chanOf_cnt]; exact responded_chan_inflight
  · rw [complete_eq hc hs]
    show rd (settle _) _ = _
    rw [rd_settle _ hn.2.2, rd_cnt_self]
    show (mreg (responded ch sl r) ch Reg.mRspEvc + 1) % two32 = _
    rw [hresp]
  · rw [settle_host_vintage, complete_vintage hc hs, chanOf_settle, complete_eq hc hs, chanOf_cnt]
    have hring : (chanOf (responded ch sl r) ch).ring =
        tins (chanOf r.dev ch).ring (mreg (afterBody ch sl r) ch Reg.mRspEvc % 64) (rspOf sl r (afterBody ch sl r).host.vintage) := by
      unfold responded
      dsimp only
      split <;> simp [mreg]
    rw [hring, hbody, tfind_tins_self, afterBody_vintage]
    simp [rspOf, hr]

/-- The channel is still at work on the command after a body that leaves these alone. -/
theorem Served.of_same {d e : Dev} (hs : Served d ch sl) (hb : e.boot = d.boot) (hc : e.host.chan = d.host.chan)
    (hm : e.host.busMaster = d.host.busMaster) (h3 : e.host.d3 = d.host.d3)
    (hr : rd e (Reg.chan ch + Reg.mSts) = rd d (Reg.chan ch + Reg.mSts)) : Served e ch sl := by
  have hch : chanOf e ch = chanOf d ch := by simp only [chanOf, hc]
  have her : chanErr e ch = chanErr d ch := by simp only [chanErr, flag, hr]
  simpa only [Served, hb, hch, hm, h3, her] using hs

/-- How a mailbox command ends when it is served and accepted: its body, completion, and the delivery of interrupts. -/
theorem ends_cmd {c : Instr} {s : State} {op fl flags : Nat} {sel lenOk : Slot → Bool} {body : Dev → Slot → Res}
    {p : Dev → Prop} (hx : exec c s = s.runIf c.wf fun d => runCmd d ch op flags sel lenOk body) (hw : c.wf = true) (hc : ch < 16)
    (hs : Served s.dev ch sl) (ha : Accepted s.dev ch sl op fl) (hsel : sel sl = true) (hl : lenOk sl = true)
    (hf : fl &&& flags = fl) (hp : p (settle (complete ch sl (body (begun s) sl)))) : Ends c s p := by
  refine ⟨_, hx.trans (runIf_true hw), rfl, ?_⟩
  dsimp only
  rw [runCmd_eq (d := begun s) hc hs ha hsel hl hf]
  exact hp

/-- The frame of a completed command: its body's parts and registers. -/
theorem complete_onlyRegs {d : Dev} {l : List Nat} (hc : ch < 16) (hs : Served r.dev ch sl)
    (h : ∀ a, a ∉ l → ¬ChanReg ch a → rd r.dev a = rd d a) : OnlyRegsBeside ch l d (settle (complete ch sl r)) := by
  intro a h1 h2 h3 h4 h5
  rw [rd_settle _ h1, rd_complete hc hs h2 h3 h4, h a h5 h4]

theorem complete_onlyParts {d : Dev} {l : List Piece} (hc : ch < 16) (hs : Served r.dev ch sl) (hcc : .cc ∈ l) (hch : .chan ∈ l)
    (hv : r.vint = false ∨ .host ∈ l) (h : ∀ x, x ∉ l → Same x d r.dev) : OnlyParts l d (settle (complete ch sl r)) := by
  intro x hx
  refine Same.trans (h x hx) (Same.trans ?_ (settle_same _ x))
  by_cases hh : x = .host
  · subst hh
    exact complete_host hc hs (hv.resolve_right hx)
  · exact complete_same hc hs (fun e => hx (e ▸ hch)) (fun e => hx (e ▸ hcc)) hh

end

end Sys2Proof.Machine
end

