-- ==== Sys2Proof/Laws/Supply.lean ====
section
/-! SUPPORT. What the monitors note of a report, and when it is a departure (R756, R792, R796). -/

namespace Sys2Proof.Machine

variable (d : Dev)

/-- A readback confirms the commanded setpoint or leaves the one confirmed before. -/
theorem confirmSet_cases (mv : Nat) :
    confirmSet d mv = (d.onHealth fun h => { h with avsSet := coreMv d }) ∧ mv ≤ coreMv d + 25 ∧ coreMv d ≤ mv + 25 ∨
      confirmSet d mv = d ∧ (coreMv d + 25 < mv ∨ mv + 25 < coreMv d) := by
  unfold confirmSet
  split
  · exact .inl ⟨rfl, by assumption⟩
  · exact .inr ⟨rfl, by omega⟩

/-- Only a readback of `VDD_CORE` is noted. -/
theorem noteReadback_other {clock fails : Bool} {n mv : Nat} (h : clock = true ∨ n ≠ 0) : noteReadback d clock n mv fails = d := by
  obtain h | h := h <;> simp [noteReadback, h]

/-- A failed readback counts and confirms nothing. -/
theorem noteReadback_failed (mv : Nat) :
    noteReadback d false 0 mv true = d.onHealth fun h => { h with avsFails := h.avsFails + 1 } := by simp [noteReadback]

/-- One that succeeds ends the run of failures and may confirm the setpoint. -/
theorem noteReadback_read (mv : Nat) :
    noteReadback d false 0 mv false = confirmSet (d.onHealth fun h => { h with avsFails := 0 }) mv := by simp [noteReadback]

/-- The third failed readback in a row is a departure. -/
theorem departs_failed (mv : Nat) : departs (noteReadback d false 0 mv true) false 0 mv true = decide (2 ≤ d.health.avsFails) := by
  rw [noteReadback_failed]
  simp [departs, Dev.onHealth, show (3 ≤ d.health.avsFails + 1) = (2 ≤ d.health.avsFails) from propext Nat.succ_le_succ_iff]

/-- A report of a valid rail takes it from those that keep the device in reset. -/
theorem noteRail_valid (n : Nat) : noteRail d false n false = d.onBoot fun b =>
    { b with invalid := b.invalid.filter (· ≠ n),
             monitorAt := if b.invalid ≠ [] ∧ b.invalid.filter (· ≠ n) = [] then d.now else b.monitorAt } := by
  simp [noteRail]

@[simp] theorem noteRail_clock (n : Nat) (bad : Bool) : noteRail d true n bad = d := rfl

end Sys2Proof.Machine
end

