-- ==== Sys2Proof/Laws/Time.lean ====
section
/-! SUPPORT. The passing of time: what `elapse`, `fwAcks` and `reach` leave alone. -/

namespace Sys2Proof.Machine

open Sys2Proof

variable (d : Dev)

theorem wr_same (x : Piece) (a v : Nat) : Same x d (wr d a v) := by cases x <;> simp [Same]
theorem cntAdd_same (x : Piece) (a n : Nat) : Same x d (cntAdd d a n) := by cases x <;> simp [Same]
theorem cnt_same (x : Piece) (a : Nat) : Same x d (cnt d a) := cntAdd_same ..

/-- Time passing moves `now` and the TSU alone. -/
theorem elapse_same {x : Piece} (n : Nat) (h1 : x ≠ .now) (h2 : x ≠ .time) : Same x d (elapse d n) := by
  unfold elapse
  split
  · cases x <;> simp_all [Same]
  · dsimp only
    split <;> cases x <;> simp_all [Same]

@[simp] theorem elapse_now (n : Nat) : (elapse d n).now = d.now + 1280 * n := by
  unfold elapse
  split
  · rfl
  · dsimp only
    split <;> simp [tickPs]

theorem rd_elapse {a : Nat} (n : Nat) (h1 : a ≠ Reg.tsuNs) (h2 : a ≠ Reg.tsuWrap) (h3 : a ≠ Reg.tsuSlewLeft) :
    rd (elapse d n) a = rd d a := by
  unfold elapse
  split
  · rfl
  · dsimp only
    split
    · rw [rd_wr_ne _ _ h2, rd_wr_ne _ _ h1]; rfl
    · rw [rd_wr_ne _ _ h3, rd_wr_ne _ _ h2, rd_wr_ne _ _ h1]; rfl

/-- Firmware's acknowledgements, as a fold over the registers. -/
def ackAll (l : Tab Word) (d : Dev) : Dev :=
  l.foldl (fun d e => match Reg.ackPair e.1 with
    | some a => wr d (a + 4) (rd d a)
    | none => d) d

/-- The pair's first register is one whose events firmware acknowledges. -/
theorem ackPair_acked {a b : Nat} (h : Reg.ackPair a = some b) : Reg.fwAcked b = true := by
  unfold Reg.ackPair at h
  split at h
  · simp_all
  · split at h <;> simp_all

theorem ackAll_same (x : Piece) (l : Tab Word) (d : Dev) : Same x d (ackAll l d) := by
  induction l generalizing d with
  | nil => exact Same.refl x d
  | cons e r ih =>
    refine Same.trans ?_ (ih _)
    dsimp only
    split
    · exact wr_same _ _ _ _
    · exact Same.refl x d

/-- Only registers that follow an acknowledged EVC are written. -/
theorem rd_ackAll (l : Tab Word) (d : Dev) {a : Nat} (h : a < 4 ∨ Reg.fwAcked (a - 4) = false) : rd (ackAll l d) a = rd d a := by
  induction l generalizing d with
  | nil => rfl
  | cons e r ih =>
    show rd (ackAll r _) a = rd d a
    rw [ih]
    dsimp only
    split
    · rename_i he
      refine rd_wr_ne _ _ ?_
      intro hx
      rcases h with h | h
      · omega
      · rw [hx, Nat.add_sub_cancel, ackPair_acked he] at h
        cases h
    · rfl

theorem fwAcks_same (x : Piece) : Same x d (fwAcks d) := by
  unfold fwAcks
  split
  · exact ackAll_same x d.regs d
  · exact Same.refl x d

theorem rd_fwAcks {a : Nat} (h : a < 4 ∨ Reg.fwAcked (a - 4) = false) : rd (fwAcks d) a = rd d a := by
  unfold fwAcks
  split
  · exact rd_ackAll d.regs d h
  · rfl

theorem reach_same {x : Piece} (t : Nat) (h1 : x ≠ .now) (h2 : x ≠ .time) : Same x d (reach d t) := by
  unfold reach
  split
  · exact Same.refl x d
  · exact Same.trans (elapse_same d _ h1 h2) (fwAcks_same _ x)

theorem rd_reach {a : Nat} (t : Nat) (h1 : a ≠ Reg.tsuNs) (h2 : a ≠ Reg.tsuWrap) (h3 : a ≠ Reg.tsuSlewLeft)
    (h : a < 4 ∨ Reg.fwAcked (a - 4) = false) : rd (reach d t) a = rd d a := by
  unfold reach
  split
  · rfl
  · rw [rd_fwAcks _ h, rd_elapse _ _ h1 h2 h3]

/-- Time has reached the deadline, and never turns back. -/
theorem reach_now (t : Nat) : t ≤ (reach d t).now ∧ d.now ≤ (reach d t).now := by
  unfold reach
  split
  · exact ⟨by assumption, Nat.le_refl _⟩
  · have h := fwAcks_same (elapse d (ceilDiv (t - d.now) tickPs)) .now
    simp only [Same, elapse_now] at h
    rw [h]
    simp only [ceilDiv, tickPs]
    omega

end Sys2Proof.Machine
end

