-- ==== Sys2Proof/Tests/Slice0.lean ====
section
/-! SUPPORT. The model's own tests: ill-formed commands, worked examples of the manual, and for each statement of
Sys2Proof/Certificates/Slice0/Obligations.lean that has hypotheses a state and operands that meet them, clause by clause. -/

namespace Sys2Proof.Tests

open Sys2Proof Sys2Proof.Machine

set_option Elab.async false

/-! ## Helpers -/

def bs (l : List Nat) : List Byte := l.map (BitVec.ofNat 8)

/-- The device in full service with firmware running, bus mastering on and MSI-X enabled. -/
def up : Dev := { boot := { phase := .full, fwRunning := true }, pins := { resetN := true }, host := { busMaster := true, pcie := { msixOn := true } } }

/-- A command slot as the engine takes it. -/
def cmd (op fl : Nat) (pl : List Byte) : Slot :=
  { opcode := op, flags := fl, len := pl.length, tag := 7, expVint := 0, rspLen := 16384, payload := pl }

/-- A channel at work on one command. -/
def sv (ch op fl : Nat) (pl : List Byte) (d : Dev := up) : Dev := setChan d ch fun c => { c with inflight := [cmd op fl pl] }

/-- The hypotheses that every statement about a mailbox command has: channel, `Served`, `Accepted`. -/
def fits (ch op fl : Nat) (pl : List Byte) (d : Dev) : Bool :=
  decide (ch < 16) && decide (Served (sv ch op fl pl d) ch (cmd op fl pl)) && decide (Accepted (sv ch op fl pl d) ch (cmd op fl pl) op fl)

abbrev Fits (ch op fl : Nat) (pl : List Byte) (d : Dev := up) : Prop := fits ch op fl pl d = true

/-- A register of a device set to a value. -/
def reg (d : Dev) (l : List (Nat × Nat)) : Dev := l.foldl (fun d e => wr d e.1 e.2) d

/-- Ports with their links up in mode B. -/
def ports (d : Dev) (l : List Nat) : Dev :=
  reg d (l.flatMap fun p => [(Reg.port p + Reg.pMode, 9216 * 65536 + 512 + 2), (Reg.port p + Reg.pSts, 15)])

def eth (da sa : Nat) (ty : Nat) (pay : List Byte) : List Byte :=
  let l := toBe 6 da ++ toBe 6 sa ++ toBe 2 ty ++ padTo 46 pay
  l ++ fcsOf l

theorem all_of_none {α : Type} {o : Option α} {p : α → Prop} (h : o = none) : ∀ x, o = some x → p x := by
  intro x e; rw [h] at e; cases e

def parsesTo (r : Except Nat (List CfgRec)) (l : List CfgRec) : Bool :=
  match r with
  | .ok x => decide (x = l)
  | .error _ => false

theorem eq_ok_of_parsesTo {r : Except Nat (List CfgRec)} {l : List CfgRec} (h : parsesTo r l = true) : r = .ok l := by
  cases r with
  | ok x => rw [of_decide_eq_true (p := x = l) h]
  | error n => cases h

/-! ## Ill-formed commands: one term for each check of `Instr.wf` -/

theorem test_wf_refuses_mailbox :
    [Instr.getInfo 16, .configStage 16, .configStageRestart 16, .configCommit 16, .configCommitCheck 16, .configCommitAbandon 16, .getVintage 16,
      .portSet 16, .busRecover 16, .laneTrain 16 [], .laneTrain 0 [4], .fdbInsert 16, .fdbDelete 16, .fdbSearch 16, .fdbNext 16,
      .fdbFlushByPort 16, .lpmAdd 16, .lpmDelete 16, .lpmSearch 16, .ruleWrite 16, .ruleChunkWrite 16, .ruleWriteMeter 16, .matchStep 16,
      .patternLoad 16, .queueSet 16, .shaperSet 16, .gateListSet 16, .timeAdjustFrequency 16, .timeAdjustSlew 16, .timeAdjustStep 16,
      .timeAdjustSet 16, .refSelect 16, .safetyEditOpen 16, .safetyStreamSet 16, .telegramLoad 16, .safetyCommit 16,
      .safetyCommitConfirm 16 true, .safetyCommitAbandon 16, .claimSet 16, .claimSetProof 16 true, .stopAck 16, .snapshot 16, .mirrorSet 16,
      .blackboxRead 16, .guestLoad 16, .guestStart 16, .guestStop 16, .mbxPost 16 0, .mbxPost 0 (2 ^ 32), .commandFetch 16 (zeros 32) [] true true true,
      .commandFetch 0 (zeros 31) [] true true true, .mbxEnable 16 0, .mbxEnable 0 (2 ^ 32), .commandThreadFault 16 true].all
        (fun i => !i.wf) = true := by decide

theorem test_wf_refuses_threads :
    [Instr.tret 32 none, .tret 0 (some (.write ⟨3, [0, 0]⟩)), .tret 0 none 3, .tret 0 (some (.read ⟨2, 4, none⟩)),
      .tret 0 (some (.read ⟨0, 2, none⟩)), .tret 0 (some (.read ⟨0, 4, some (32, 0)⟩)), .twait 32 0 0 0, .twait 0 32 0 0, .twait 0 0 32 0, .twait 0 0 0 32, .twaitWake 32, .tyield 32, .tpost 32 0 0,
      .tpost 0 (2 ^ 32) 0, .tpost 0 0 (2 ^ 32), .trap 32 0 0 none, .trap 0 32 0 none, .trap 0 0 (2 ^ 32) none, .trap 0 0 0 (some (.write ⟨0, []⟩)), .longStall 32, .stallEnd 32, .thrCmdStart 32 0,
      .thrCmdStart 0 32, .thrCmdStop 32 0, .thrCmdStop 0 32, .thrCmdRestart 32 0, .thrCmdRestart 0 32, .cmWdog 32, .firmwareThreadRestart 32,
      .guestRunLimit 32 0, .sampleCountdown 32 0, .sampleCountdown 0 0 2, .trap 0 0 0 none (some ⟨.load, 0, 3, 0, true, 0, false, 0⟩),
      .trap 0 0 0 none (some ⟨.load, 2 ^ 32, 4, 0, true, 0, false, 0⟩), .longStall 0 (some ⟨.load, 0, 4, 32, true, 0, false, 0⟩),
      .longStall 0 (some ⟨.store, 0, 4, 0, true, 2 ^ 32, false, 0⟩), .longStall 0 (some ⟨.store, 0, 4, 0, true, 0, false, 3⟩), .longStall 0 none (some (.write ⟨0, []⟩)),
      .thrCmdStart 0 0 (some (.write ⟨0, []⟩)), .thrCmdStop 0 0 (some (.write ⟨0, []⟩)), .thrCmdRestart 0 0 (some (.write ⟨0, []⟩)), .cooperAlloc [] [] [(0, 32)], .sampleTrap 32 0 none, .sampleTrap 0 0 (some (.write ⟨524288, [0]⟩)), .coreClockStop 4, .spmRetentionEntry 4, .islandWake 8,
      .spmBitsetAccess 32 0 4 true 0 0 none, .spmBitsetAccess 0 524288 4 true 0 0 none, .spmBitsetAccess 0 0 4 true 32 0 none,
      .spmBitsetAccess 0 0 4 true 0 (2 ^ 32) none, .spmBitsetAccess 0 0 3 true 0 0 none, .spmBitsetAccess 0 0 4 true 0 0 (some (.write ⟨2, [0, 0, 0]⟩)),
      .spmBitclearAccess 32 0 4 true 0 0 none, .spmBitclearAccess 0 524288 4 true 0 0 none, .spmBitclearAccess 0 0 4 true 32 0 none,
      .spmBitclearAccess 0 0 4 true 0 (2 ^ 32) none, .spmBitclearAccess 0 0 3 true 0 0 none, .spmBitclearAccess 0 0 4 true 0 0 (some (.write ⟨2, [0, 0, 0]⟩)),
      .spmBackgroundTest 4 none, .cooperAlloc [(64, 1)] [], .cooperAlloc [] [(64, 0)], .cooperFree 64 0, .perfUserPageRead 32 0, .perfUserPageRead 0 16].all
        (fun i => !i.wf) = true := by decide

theorem test_wf_refuses_host :
    [Instr.registerWrite ⟨1, 0, 4, 15, true, 0, 0, 0⟩, .registerWrite ⟨0, 0x4000000, 4, 15, true, 0, 0, 0⟩, .registerWrite ⟨2, 0x1000, 4, 15, true, 0, 0, 0⟩,
      .registerWrite ⟨3, 0x1000, 4, 15, true, 0, 0, 0⟩, .registerWrite ⟨0, 0, 4, 16, true, 0, 0, 0⟩, .registerWrite ⟨0, 0, 4, 15, true, 2 ^ 32, 0, 0⟩,
      .registerWrite ⟨0, 0, 4, 15, true, 0, 65536, 0⟩, .registerWrite ⟨0, 0, 4, 15, true, 0, 0, 3⟩, .fullService 0 [(514, [])], .fullService 0 [(0, [4])],
      .monitorDeparture false 11 0, .blackboxRecord 0 none [43],
      .irqArm (2 ^ 32), .msixUnmask 64, .ringEnable true 8 0, .ringEnable true 0 (2 ^ 32), .ringPost true 8 0, .ringPost true 0 (2 ^ 32),
      .trapRingDeliver 8 (zeros 12) 0, .trapRingDeliver 0 (zeros 11) 0, .trapRingNobuf 8, .injectDescriptor 8 (zeros 16) [] 0,
      .injectDescriptor 0 (zeros 15) [] 0, .injectDescriptor 0 (zeros 16) [0] 0, .injectComplete 8, .parityScrub 0x4000000, .parityRecord 43,
      .parityRewrite 0x4000000, .slaveRealign 8, .slaveAlignmentLoss 8, .refGateEnd 4 0, .refLossOfSignal 4, .refSignalReturn 4,
      .monitorDeparture true 43 0, .monitorDeparture true 0 65536, .blackboxRecord 43 none, .mramCopyTrigger 8,
      .thermalReading [], .thermalReading (List.replicate 37 (some 151))].all (fun i => !i.wf) = true := by decide

theorem test_wf_refuses_ports :
    [Instr.trainingAttemptAbandon 514, .frameReceive 514 [] true true 0 0 ⟨0, 0, 0⟩, .pauseFrameReceive 512 [], .pauseExpiry 512 0, .pauseExpiry 0 8,
      .keySearch [(0, 12)], .rackWrite 16 0 [], .rackWrite 0 4096 [], .refillRequest 16 0, .refillRequest 0 4096, .refillDone 16 0 [], .refillDone 0 4096 [], .cellarStop 4,
      .xoffRepeat 512 0, .xoffRepeat 0 8, .learnSync 4, .trapHandle 8, .guardDecide 2 0, .decisionMissing 0 2, .claimForce 2 0, .claimForce 0 9,
      .proofTestStart 2, .proofTestDone 2 true, .bunchLand 16 true [], .frameBoundary 512 true [], .gateEvent 512, .gateListSwitch 512,
      .mmVerifySend 512, .mmRespondReceive 512, .linkUp 514, .linkDown 514 true true, .leesCellPass 16 [] [], .leesCellPass 0 [49152] [], .leesCellPass 0 [] [(49152, [])],
      .leesRackPass 4 [] [], .leesRackPass 0 [4161536] [], .leesRackPass 0 [] [(4161536, [])], .beaconSend 512, .beaconReceive 8, .modBusStuck 16, .modBusClear 16 true,
      .modBusStretchLimit 16, .emitterHeartbeatLoss 3, .tokenBucketRefill 512 0, .tokenBucketRefill 0 9].all (fun i => !i.wf) = true := by decide

/-- A margin plan within the fields of Table 14-9. -/
def plan : MarginPlan :=
  { vddAfter := 65535, worstRo := 1, worstPair := 95, stackLow := false, eye := 1, eyeLane := 1023, hbm := 1,
    hbmStack := 3, life := 1, tileClk := List.replicate 16 1625000, laneEq := [(1023, 0)], clean := false }

theorem test_wf_refuses_plans :
    plan.wf = true ∧ [{ plan with vddAfter := 65536 }, { plan with worstRo := 65536 }, { plan with worstPair := 96 }, { plan with eye := 65536 },
      { plan with eyeLane := 1024 }, { plan with hbm := 65536 }, { plan with hbmStack := 4 }, { plan with life := 2 ^ 32 },
      { plan with tileClk := [] },
      { plan with tileClk := List.replicate 16 1625001 }, { plan with tileClk := List.replicate 16 1589999 }, { plan with laneEq := [(1024, 0)] }].all (fun p => !p.wf && !(Instr.marginPlanDaily p).wf && !(Instr.marginPlanRun 0 p).wf) = true ∧
      (Instr.marginPlanRun 16 plan).wf = false := by decide

/-! ## Worked examples of the manual -/

/-- Chapter 02: address 01-00-5E-00-00-01 uses bit 1 of `PORT_GAF80`, for port 37 at 0x0082_5940. -/
theorem test_gaf_example :
    crc32 (toBe 6 0x01005E000001) = 0x264B3A01 ∧ Reg.port 37 + Reg.pGaf (0xA01 / 32) = 0x00825940 ∧ 0xA01 % 32 = 1 := by decide +kernel

/-- Chapter 03: entries 40 and 700 of bank 1 and entry 5 of bank 3 match; which count, and where the counters lie. -/
theorem test_rule_example :
    counted [2088, 2748, 6149] = [2088, 6149] ∧ Reg.cplx 0 + Reg.ruleFrames 2088 = 0x02088280 ∧ Reg.cplx 0 + Reg.ruleFrames 6149 = 0x02098050 := by
  decide +kernel

/-- Chapter 04: after a member of four loses sixteen buckets, every survivor holds more and no other bucket moves. -/
theorem test_reassign_keeps_others :
    (reassign [0, 1, 2, 3, 0, 1, 2, 3] 3 [0, 1, 2]).length = 8 ∧ 3 ∉ reassign [0, 1, 2, 3, 0, 1, 2, 3] 3 [0, 1, 2] ∧
      (reassign [0, 1, 2, 3, 0, 1, 2, 3] 3 [0, 1, 2]).take 3 = [0, 1, 2] := by decide +kernel

/-- Chapter 05: tile 1 with 2 × 512 cells for TC0 to TC6 and 4 × 1,024 guaranteed has a shared pool of 29,184 cells. -/
theorem test_shared_pool_example :
    sharedRest (reg up (((List.range 7).map fun c => (Reg.tile 1 + Reg.classBufCfg c, 2 * 16)) ++
      (List.range 16).map fun n => (Reg.tile 1 + Reg.tenantBufCfg n, if n < 4 then 1024 else 0))) 1 = 29184 := by decide +kernel

/-- Chapter 05: 64-byte frames that differ in 8 bytes take 40 bytes of stream each, the first of a rack 80. -/
theorem test_packing_example :
    (packRec 0 (zeros 64) none 0).len = 80 ∧ (packRec 1 (List.replicate 8 255 ++ zeros 56) (some (zeros 64, 0)) 80).len = 40 := by decide +kernel

/-- Chapter 07: 37 Gbit/s is E 3 and M 48,496, a rate of 36.9995 Gbit/s. -/
theorem test_shaper_example : rateE 37000000 = 3 ∧ rateM 37000000 = 48496 ∧ rateSet 37000000 = 36999511 := by decide +kernel

/-- Chapter 07: 77,160 units of 16 ns are logged as 0x92D. -/
theorem test_tasting_example : logVal 77160 = 0x92D ∧ logVal 255 = 255 := by decide +kernel

/-- Chapter 08: the correction field of the worked Delay_Req. -/
theorem test_correction_example :
    sub32 0x2A30 0xFFFFF000 = 14896 ∧ cfAdd 0x158000 (14896 * 65536) = (0x3A458000, false) := by decide +kernel

/-- A staged day and time: year − 2000, month, day, hour, minute, second. -/
def stage (y m d h n s : Nat) : Nat × Nat := (h * 2 ^ 27 + n * 2 ^ 21 + s * 2 ^ 15, y * 512 + m * 32 + d)

/-- Chapter 08: loads near leap days. -/
theorem test_calendar_examples :
    stagePossible (stage 0 2 29 8 0 0).1 (stage 0 2 29 8 0 0).2 = true ∧ stagePossible (stage 100 2 29 0 0 0).1 (stage 100 2 29 0 0 0).2 = false ∧
      stagePossible (stage 100 3 1 0 0 0).1 (stage 100 3 1 0 0 0).2 = true ∧ stagePossible (stage 31 13 1 0 0 0).1 (stage 31 13 1 0 0 0).2 = false ∧
      stagePossible (stage 31 4 31 0 0 0).1 (stage 31 4 31 0 0 0).2 = false ∧ stagePossible (stage 400 1 1 0 0 0).1 (stage 400 1 1 0 0 0).2 = false ∧
      stageSec (stage 96 2 28 23 59 59).1 (stage 96 2 28 23 59 59).2 + 1 = stageSec (stage 96 2 29 0 0 0).1 (stage 96 2 29 0 0 0).2 ∧
      stageSec (stage 100 2 28 23 59 59).1 (stage 100 2 28 23 59 59).2 + 1 = stageSec (stage 100 3 1 0 0 0).1 (stage 100 3 1 0 0 0).2 := by
  decide +kernel

/-- Chapter 11: `IRQ_EN33` holds 0x0005; a write of 0x0014_0010 makes it 0x11. -/
theorem test_irq_enable_example :
    (match exec (.registerWrite ⟨0, Reg.irqEn 33, 4, 15, true, 0x00140010, 0, 0⟩) { dev := reg up [(Reg.irqEn 33, 5)] } with
      | .next t => rd t.dev (Reg.irqEn 33)
      | _ => 0) = 0x11 := by decide +kernel

/-- Chapter 11: the block of port 37 lies at 0x0082_5000. -/
theorem test_port_block_example : Reg.port 37 = 0x00825000 ∧ Reg.port 40 = 0x00828000 := by decide

/-- Chapter 13: `RX_FRAMES_OK` of port 37 has its copy at 0x0300_2500 and its total at 0x0340_4A00. -/
theorem test_bank_example :
    Reg.port 37 + Reg.rxFramesOk = 0x00825100 ∧ Reg.bankSource 0x03002500 = some 0x00825100 ∧
      bankRead (up.onTel fun t => { t with totals := [(0x00825100, 77)] }) 0x03404A00 = 77 := by decide +kernel

/-- Tables 09-12, 11-9 and 12-1: values after reset. -/
theorem test_reset_values :
    rd State.reset.dev 0 = 0xB00512 ∧ safeFlag State.reset.dev 8 = true ∧ claim State.reset.dev 0 = 0 ∧ claim State.reset.dev 1 = 0 ∧
      State.reset.dev.host.vintage = 1 ∧ fld State.reset.dev (Reg.port 511 + Reg.pMode) 16 14 = 9216 := by decide +kernel

/-! ## Single commands -/

/-- A field of the device after a command, 0 where the command does not end in a next state. -/
def after (c : Instr) (d : Dev) (f : Dev → Nat) : Nat :=
  match exec c { dev := d } with
  | .next t => f t.dev
  | _ => 0

/-- R576, R579: a post is ORed in; a wait takes only the masked bits. -/
theorem test_post_and_wait :
    after (.tpost 0 5 6) (setThr (reg up [(Reg.thr 5 + Reg.tEvtPend, 1)]) 0 fun t => { t with state := .running }) (fun t => rd t (Reg.thr 5 + Reg.tEvtPend)) = 7 ∧
      after (.twait 0 4 0 3) (setThr (reg up [(Reg.thr 0 + Reg.tEvtPend, 7)]) 0 fun t => { t with state := .running, x := [(3, 5)] })
        (fun t => rd t (Reg.thr 0 + Reg.tEvtPend) + 16 * xr t 0 4) = 2 + 16 * 5 := by decide +kernel

/-- R606: a store through the bit-set window ORs, one through the bit-clear window clears. -/
theorem test_windows :
    after (.spmBitsetAccess 0 1 1 false 0 6 none) (setThr (spmWrite up 0 0 [0, 1]) 0 fun t => { t with state := .running })
        (fun t => le (spmRead t 0 0 2) 0 2) = 0x700 ∧
      after (.spmBitclearAccess 0 1 1 false 0 6 none) (setThr (spmWrite up 0 0 [0, 15]) 0 fun t => { t with state := .running })
        (fun t => le (spmRead t 0 0 2) 0 2) = 0x900 := by decide +kernel

/-- R655: an armed vector whose cause is pending fires as soon as its enable is written, and is then not armed. -/
theorem test_interrupt_fires :
    after (.registerWrite ⟨0, Reg.irqEn 33, 4, 15, true, 0x00010001, 0, 0⟩)
      { up with host := { up.host with masked := [] } } (fun t => b2n (armed t 33) + 2 * t.host.msgs.length + 4 * rd t Reg.irqMsgCnt) = 6 := by
  decide +kernel

/-- R616, R617: the second request of 16 KiB gets the next buffer of its pool. -/
theorem test_cooper_lowest_buffer :
    after (.cooperAlloc [(63, 64)] []) (up.onCc fun c => { c with held := [(0xB0_0000, { req := 0, pool := 3 })] }) (·.cc.answer) = 0xB0_4000 := by
  decide +kernel

/-! ## Hypotheses that are met: information, staging, forwarding tables -/

theorem witness_IdleStepIsOneTick : State.reset.pending = [] := rfl

theorem witness_WellFormedCommandsRun : (Instr.getInfo 15).wf = true ∧ (Instr.getInfo 16).wf = false := by decide

theorem witness_StepLeavesNoArmedPendingVector : ∃ t, step State.reset = .next t := ⟨_, rfl⟩

theorem witness_InfoCommandsAnswer : Fits 15 0x001 0 [] ∧ Fits 0 0x004 0 [] := by decide +kernel

/-- VLAN entry 4,095 as a record of 140 bytes. -/
def vlanRec : CfgRec := { ty := 1, idx := 4095, val := bs [1, 0, 5, 0] ++ zeros 128 }

theorem witness_Staging_stage :
    Fits 14 0x002 0 vlanRec.bytes ∧ Fits 14 0x002 1 vlanRec.bytes ∧
      (∀ g, (sv 14 0x002 0 vlanRec.bytes).host.staging = some g → g.owner = 14) ∧
      (parseRecs recShape vlanRec.bytes.length vlanRec.bytes 0 = .ok [vlanRec]) ∧
      sumOf ([vlanRec].foldl replaceRec []) CfgRec.size ≤ 2097152 :=
  ⟨by decide +kernel, by decide +kernel, all_of_none rfl, eq_ok_of_parsesTo (by decide +kernel), by decide +kernel⟩

/-- The staging area of channel 0 holds the record. -/
def staged : Dev := { up with host := { up.host with staging := some { owner := 0, recs := [vlanRec], last := 0 } } }

theorem witness_Staging_commit :
    Fits 0 0x003 0 [] staged ∧ (sv 0 0x003 0 [] staged).host.staging = some { owner := 0, recs := [vlanRec], last := 0 } ∧
      vlanRec.ty = 1 ∧ valOk vlanRec = true ∧
      Fits 0 0x003 1 [] staged ∧ commitCheck (sv 0 0x003 1 [] staged) [vlanRec] = none ∧ Fits 0 0x003 2 [] staged := by decide +kernel

/-- A static entry for FID 4,095 on port 511, and its element in `FDB_INSERT`. -/
def macA : MacEnt := { static := true, hit := true, dest := 511, fid := 4095, mac := 0x001122334455 }
def macEl : List Byte := toLe 2 4095 ++ toBe 6 0x001122334455 ++ toLe 2 511 ++ bs [1, 0, 0, 0, 0, 0]

/-- A device whose complex k holds an entry in the first slot of its first bucket. -/
def knows (d : Dev) (k : Nat) (e : MacEnt) : Dev := setMac d k fun t => tins t (8 * (buckets (macKey e.fid e.mac)).1) e

theorem witness_FdbEntries_insert :
    Fits 3 0x201 0 macEl ∧ macEl.length = 16 ∧ macElemOk macEl = true ∧ parseMacElem macEl = macA ∧
      (∀ k < 4, (macSlot (sv 3 0x201 0 macEl) k 4095 0x001122334455).isSome = true) ∧
      (∀ k < 4, macGet (macTab (sv 3 0x201 0 macEl) k) 4095 0x001122334455 = none) := by decide +kernel

theorem witness_FdbEntries_replace :
    Fits 3 0x201 1 macEl (knows up 2 macA) ∧
      (∀ k < 4, (macSlot (sv 3 0x201 1 macEl (knows up 2 macA)) k 4095 0x001122334455).isSome = true) ∧
      (∃ k < 4, macGet (macTab (sv 3 0x201 1 macEl (knows up 2 macA)) k) 4095 0x001122334455 = some macA ∧ macA.static = true) := by
  decide +kernel

def macKeyEl : List Byte := toLe 2 4095 ++ toBe 6 0x001122334455

theorem witness_FdbEntries_delete :
    Fits 3 0x202 0 macKeyEl (knows up 3 macA) ∧ macKeyEl.length = 8 ∧ le macKeyEl 0 2 = 4095 ∧ be macKeyEl 2 6 = 0x001122334455 ∧
      (∃ k < 4, (macGet (macTab (sv 3 0x202 0 macKeyEl (knows up 3 macA)) k) 4095 0x001122334455).isSome = true) := by decide +kernel

def nextEl : List Byte := bs [3, 0, 0, 0] ++ toLe 4 0 ++ toLe 2 1023 ++ bs [0, 0]

theorem witness_FdbReads :
    Fits 3 0x203 0 macKeyEl (knows up 3 macA) ∧
      (∃ k < 4, (macGet (macTab (sv 3 0x203 0 macKeyEl (knows up 3 macA)) k) 4095 0x001122334455).isSome = true) ∧
      Fits 3 0x204 0 nextEl (knows up 3 macA) ∧ le nextEl 0 1 = 3 ∧ le nextEl 4 4 = 0 ∧ le nextEl 2 2 < 4096 ∧ le nextEl 8 2 = 1023 ∧ le nextEl 10 2 = 0 ∧
      ((((macTab (knows up 3 macA) 3).filter fun e => decide (0 ≤ e.1)).take 1023).getLast?).isSome = true ∧
      Fits 3 0x205 0 (toLe 2 511 ++ zeros 6) := by decide +kernel

theorem witness_LearningSpreadsAndAges :
    3 < 4 ∧ up.boot.fwRunning = true ∧ nextLearn (notify up 3 macA) = some 3 ∧ learnQueue (notify up 3 macA) 3 = [macA] ∧
      macFind (macTab (notify up 3 macA) 0) macA.fid macA.mac = none ∧
      (newSlot (macTab (notify up 3 macA) 0) (macKey macA.fid macA.mac)).isSome = true := by decide +kernel

/-- The prefix 10.0.0.0/31 with route result 5. -/
def pfxEl : List Byte := bs [4, 31, 5, 0, 0, 0, 0, 0, 10, 0, 0, 0] ++ zeros 12
def withPfx : Dev := up.onFwd fun w => { w with lpm := (List.range 4).map fun k => (k, { prefixes := [parsePrefix pfxEl], pages := [(lengthKey 4 31, 1)] }) }
def searchEl : List Byte := bs [4, 3, 0, 0, 10, 0, 0, 1] ++ zeros 12

theorem witness_PrefixesAreStoredAndSearched :
    Fits 0 0x210 0 pfxEl ∧ pfxEl.length = 24 ∧ prefixOk false pfxEl = true ∧
      0 < (parsePrefix pfxEl).len ∧ (parsePrefix pfxEl).len < addrBits (parsePrefix pfxEl).fam ∧ lpmOf (sv 0 0x210 0 pfxEl) 0 = [] ∧
      lpmUnits (sv 0 0x210 0 pfxEl) 0 + prefixUnits (parsePrefix pfxEl).fam (parsePrefix pfxEl).len ≤ 1048576 ∧
      camUsed (sv 0 0x210 0 pfxEl) 0 + camEntries (parsePrefix pfxEl).fam (parsePrefix pfxEl).len ≤ 16384 ∧
      lengthUnits (lpmOf (sv 0 0x210 0 pfxEl) 0) 4 31 = 0 ∧ 0 < freePages (tget {} (sv 0 0x210 0 pfxEl).fwd.lpm 0) ∧
      Fits 0 0x211 0 pfxEl withPfx ∧ prefixOk true pfxEl = true ∧
      (lpmOf withPfx 0).find? (fun x => x.same 4 31 (parsePrefix pfxEl).addr) = some (parsePrefix pfxEl) ∧ (parsePrefix pfxEl).place ≠ .host ∧
      Fits 0 0x212 0 searchEl withPfx ∧ searchEl.drop 8 = zeros 12 ∧ routeFind withPfx 3 4 (be searchEl 4 4) = some (31, 1, 5) := by
  decide +kernel

def search6 : List Byte := bs [6, 3, 0, 0] ++ zeros 15 ++ [1]

theorem witness_Prefixes_searches :
    Fits 0 0x212 0 search6 ∧ search6.length = 20 ∧ le search6 0 1 = 6 ∧ routeFind up 3 6 (be search6 4 16) = none ∧
      routeFind (up.onFwd fun w => { w with lpm := [(3, { prefixes := [{ fam := 6, len := 127, addr := 0, route := 5, place := .hash }] })] }) 3 6 (be search6 4 16) =
        some (127, 1, 5) ∧ Fits 0 0x212 0 searchEl ∧ routeFind up 3 4 (be searchEl 4 4) = none := by decide +kernel

/-- LAG 255 of ports 1 and 511, the link of port 511 up. -/
def lagDev : Dev := ports (putPath up 5 255 (bs [2, 0, 0, 0, 1, 0, 255, 1])) [511]

theorem witness_MembersMoveBuckets :
    lagDev.boot.fwRunning = true ∧ 0 ∉ liveMembers lagDev true 255 ∧ 0 < (groupMembers lagDev 0 true 255).length ∧
      1 ∈ liveMembers lagDev true 255 ∧ liveMembers lagDev true 255 ≠ [] ∧ (groupBuckets lagDev 0 true 255).getD 0 0 = 0 ∧
      held (groupBuckets lagDev 0 true 255) 1 ≤
        shareOf (groupMembers lagDev 0 true 255) (liveMembers lagDev true 255) (groupBuckets lagDev 0 true 255).length 1 ∧
      (∀ x ∈ groupBuckets lagDev 0 true 255, x < (groupMembers lagDev 0 true 255).length) := by decide +kernel

/-! ## Rules, meters and patterns -/

def rule1 : List Byte := toLe 2 32767 ++ toLe 2 1 ++ zeros 84
def rule17 : List Byte := toLe 2 0 ++ toLe 2 17 ++ zeros 1428

theorem witness_RuleWrites_one :
    Fits 0 0x301 0 rule1 ∧ rulePayloadOk rule1 = true ∧ le rule1 2 2 = 1 ∧ rule1.length = 88 ∧ (sv 0 0x301 0 rule1).fwd.ruleJob = none ∧
      (∀ k < 4, backlog (sv 0 0x301 0 rule1) k = 0) := by decide +kernel

theorem witness_RuleWrites_chunk :
    Fits 0 0x301 0 rule17 (up.onFwd fun w => { w with ruleJob := some (0, 7) }) ∧ rulePayloadOk rule17 = true ∧
      chunksDone (up.onFwd fun w => { w with ruleJob := some (0, 7) }) 0 = 7 ∧ 7 < chunkCount rule17 ∧ backlog up (7 % 4) = 0 := by
  decide +kernel

def meterEl : List Byte := toLe 2 16383 ++ toLe 2 1 ++ bs [0, 0, 0, 0] ++ bs [0xF3, 0xFF, 0x0F, 0] ++ toLe 4 64 ++ bs [0xF0, 0xFF, 0x0F, 0] ++ toLe 4 16777216
def stepEl : List Byte := bs [3, 15] ++ toLe 2 32767 ++ zeros 40
def ruleDev : Dev :=
  reg (up.onFwd fun w => { w with rules := [(3, [(32767, { action := 1 })])] }) [(Reg.cplx 3 + Reg.ruleProfCfg 15, 0xFFFF0010)]

theorem witness_MetersAndMatches :
    Fits 0 0x301 1 meterEl ∧ meterEl.length = 24 ∧ le meterEl 2 2 = 1 ∧ le meterEl 0 2 = 16383 ∧ meterElemOk (meterEl.drop 4) = true ∧
      Fits 0 0x302 0 stepEl ruleDev ∧ le stepEl 0 1 = 3 ∧ le stepEl 1 1 = 15 ∧
      (ruleMatches ruleDev 3 15 (le stepEl 4 40)).find? (fun g => decide (le stepEl 2 2 ≤ g)) = some 32767 := by decide +kernel

def patPl : List Byte := toLe 2 0x8000 ++ toLe 2 1 ++ toLe 2 1023 ++ bs [32, 0] ++ toLe 2 0 ++ toLe 2 511 ++ bs [63, 1, 0, 0] ++ zeros 36

theorem witness_PatternLoadSwapsSets :
    Fits 14 0x303 0 patPl ∧ patPl.length = 52 ∧ le patPl 2 2 = 1 ∧ le patPl 4 2 = 1023 ∧ patElemOk (patPl.drop 4) = true ∧
      (parsePat (patPl.drop 4)).valid = true ∧ bit 0x8000 15 = true ∧ bit 0x8000 0 = false := by decide +kernel

/-! ## Queues, shapers and gates -/

def queuePl : List Byte := bs [0, 0, 255, 1, 1, 1, 1, 1, 1, 255, 0, 0, 127, 0, 0, 0, 0, 0, 0, 0]
def shaperPl : List Byte := toLe 2 511 ++ bs [7, 1] ++ toLe 4 400000000 ++ toLe 4 16777216
def debt : Dev := setEgr (reg up [(Reg.egr 511 + Reg.eShRate 7, 2 ^ 31)]) 511 fun e => { e with buckets := [(7, { tokens := -1, since := 0 })] }

theorem witness_QueuesAndShapersAreSet :
    Fits 0 0x401 0 queuePl ∧ queuePl.length = 20 ∧ le queuePl 0 1 = 0 ∧ le queuePl 2 2 = 511 ∧ portQueuesOk queuePl = true ∧
      poolTooSmall (setPortQueues (sv 0 0x401 0 queuePl) queuePl) [tileOf 511] = false ∧
      Fits 0 0x402 0 shaperPl ∧ shaperPl.length = 12 ∧ le shaperPl 0 2 = 511 ∧ le shaperPl 2 1 = 7 ∧ le shaperPl 3 1 ≤ 1 ∧
      rateOk (le shaperPl 4 4) = true ∧ le shaperPl 8 4 = 16777216 ∧
      shaperEn debt 511 7 = true ∧ (bktNow debt 511 7).tokens < 0 ∧ tfind (egrOf debt 511).buckets 7 = some { tokens := -1, since := 0 } ∧
      0 < bktGain debt 511 7 := by decide +kernel

/-- Settings of class 6 in tile 15, with XOFF of 0 cells for class 0 and of 1 cell for class 6 of port 511. -/
def classPl : List Byte := bs [1, 0, 0, 0x80, 6, 0xFA, 1, 1] ++ toLe 2 16 ++ toLe 2 0 ++ toLe 4 1000
def xoffPl : List Byte := bs [0, 0, 255, 1, 1, 1, 1, 1, 1, 255, 0, 0, 127, 0, 1, 0, 0, 0, 1, 0]
def sharedCells (n : Nat) : Dev :=
  up.onBuf fun b =>
    { b with copies := [(0, { frame := 0, tile := 15, port := 511, cls := 6, cells := n, part := .shared, tenant := 0 })], nextCopy := 1, nextFrame := 1
             frames := [(0, { bytes := [], len := 64, inPort := 511, vid := 1 })] }

theorem witness_Queues_classes :
    Fits 0 0x401 0 classPl ∧ classPl.length = 16 ∧ le classPl 0 1 = 1 ∧ le classPl 4 1 = 6 ∧ classBufOk classPl = true ∧
      bit (le classPl 2 2) 15 = true ∧ bit (le classPl 2 2) 0 = false ∧ le classPl 7 1 = 1 ∧
      poolTooSmall ((ones 16 (le classPl 2 2)).foldl (setClassBuf classPl) (sv 0 0x401 0 classPl)) (ones 16 (le classPl 2 2)) = false ∧
      voqDepth (sharedCells 16) 15 4094 = le classPl 8 2 ∧ le classPl 8 2 < voqDepth (sharedCells 17) 15 4094 ∧
      Fits 0 0x401 0 classPl (sharedCells 17) ∧ up.buf.xoff = [] ∧
      Fits 0 0x401 0 (bs [1, 0, 0, 0x80, 7, 0, 0, 0] ++ zeros 8) ∧ classBufOk (bs [1, 0, 0, 0x80, 7, 0, 0, 0] ++ zeros 8) = true := by decide +kernel

theorem witness_Queues_xoff :
    Fits 0 0x401 0 xoffPl (sharedCells 1) ∧ portQueuesOk xoffPl = true ∧ bit (le xoffPl 12 1) 6 = true ∧
      0 < pairUse (sharedCells 1) 511 6 .shared ∧ le xoffPl 14 2 = pairUse (sharedCells 1) 511 6 .shared ∧
      le xoffPl 14 2 < pairUse (sharedCells 1) 511 6 .shared + le xoffPl 18 2 ∧ (∀ c < 7, pairUse up 511 c .shared = 0) := by decide +kernel

def gatePl : List Byte :=
  toLe 2 511 ++ toLe 2 1 ++ toLe 8 0 ++ toLe 4 1000 ++ toLe 4 1000000 ++ bs [1, 0, 0, 0] ++ bs [255, 0, 0, 0] ++ toLe 4 1000
def gateStop : List Byte := toLe 2 511 ++ zeros 22

theorem witness_GateListSetWaitsOrStops :
    Fits 0 0x403 0 gatePl ∧ gatePl.length = 24 + 8 * 1 ∧ gateHeadOk gatePl = true ∧ le gatePl 20 1 = 1 ∧ gateListOk gatePl 1 = true ∧
      Fits 0 0x403 0 gateStop ∧ gateStop.length = 24 ∧ gateHeadOk gateStop = true ∧ le gateStop 20 1 = 0 := by decide +kernel

def gl : GateList := { base := 0, cycle := 1000, ext := 0, entries := [{ gates := 255, op := 0, interval := 1000 }] }
def switchDue : Dev := setEgr (reg up [(Reg.tsuNs, 1000)]) 511 fun e => { e with pending := some (gl, 1000) }
def gatesRun : Dev := setEgr (reg up [(Reg.tsuNs, 1000)]) 511 fun e => { e with gates := some gl }

/-- A list of two entries in its first; and a list whose cycle ends 500 ns before `gl` begins, within its extension. -/
def gl2 : GateList := { base := 0, cycle := 1000, ext := 0, entries := [{ gates := 255, op := 0, interval := 600 }, { gates := 1, op := 0, interval := 400 }] }
def gatesTwo : Dev := setEgr (reg up [(Reg.tsuNs, 700)]) 511 fun e => { e with gates := some gl2 }
def glx : GateList := { gl with ext := 600 }
def gatesExt : Dev := setEgr (reg up [(Reg.tsuNs, 1000)]) 511 fun e => { e with gates := some glx, pending := some (gl, 1500) }

theorem witness_GatesFollowTheList :
    (egrOf switchDue 511).pending = some (gl, 1000) ∧ (egrOf switchDue 511).gates = none ∧ 1000 ≤ extTime switchDue ∧
      extTime switchDue < 1000 + entryEnds {} gl ∧ (egrOf switchDue 511).preempt = none ∧
      (egrOf gatesRun 511).gates = some gl ∧ (egrOf gatesRun 511).pending = none ∧ 0 < entryEnds (egrOf gatesRun 511) gl ∧
      gl.cycle ≤ entryEnds (egrOf gatesRun 511) gl ∧ (egrOf gatesRun 511).cycleAt + entryEnds (egrOf gatesRun 511) gl ≤ extTime gatesRun ∧
      (egrOf gatesTwo 511).gates = some gl2 ∧ entryEnds (egrOf gatesTwo 511) gl2 < gl2.cycle ∧
      (egrOf gatesTwo 511).cycleAt + entryEnds (egrOf gatesTwo 511) gl2 ≤ extTime gatesTwo ∧
      (egrOf gatesExt 511).gates = some glx ∧ (egrOf gatesExt 511).pending = some (gl, 1500) ∧ entryEnds (egrOf gatesExt 511) glx = glx.cycle ∧
      (egrOf gatesExt 511).cycleAt + entryEnds (egrOf gatesExt 511) glx ≤ extTime gatesExt ∧ 0 + glx.cycle < 1500 ∧
      1500 - (0 + glx.cycle) < glx.ext ∧ flag gatesExt (stsAddr 511) 10 = false := by
  decide +kernel

/-- Lists that run while `gl` waits for 1,500 ns: one at the end of its first entry, one at the end of a cycle that no extension reaches. -/
def waits (l : GateList) (ns : Nat) : Dev := setEgr (reg up [(Reg.tsuNs, ns)]) 511 fun e => { e with gates := some l, pending := some (gl, 1500) }

theorem witness_Gates_pending :
    entryEnds (egrOf (waits gl2 700) 511) gl2 < gl2.cycle ∧ 0 + entryEnds (egrOf (waits gl2 700) 511) gl2 ≤ extTime (waits gl2 700) ∧
      0 + entryEnds (egrOf (waits gl2 700) 511) gl2 < 1500 ∧ (egrOf (waits gl2 700) 511).pending = some (gl, 1500) ∧
      entryEnds (egrOf (waits { gl with ext := 500 } 1000) 511) { gl with ext := 500 } = 1000 ∧ 0 + 1000 ≤ extTime (waits gl 1000) ∧
      500 ≤ 1500 - (0 + 1000) := by decide +kernel

/-! ## Ports, lanes, links and module buses -/

/-- A management port, port 508 in mode M on lanes 0 to 7, and a port with a mode and no link. -/
def mgmtPl : List Byte := toLe 2 513 ++ bs [1, 1, 1, 0, 0, 0] ++ toLe 2 10240 ++ bs [0, 0, 0, 1, 1, 0]
def portPl : List Byte := toLe 2 508 ++ bs [13, 3, 0, 0, 128, 0] ++ toLe 2 1518 ++ toLe 3 0xFAC688 ++ bs [255, 255, 0]
def dark : Dev := reg up [(Reg.port 511 + Reg.pMode, 9216 * 65536 + 2)]

theorem witness_PortSetWritesRegisters :
    Fits 0 0x101 0 mgmtPl ∧ mgmtPl.length = 16 ∧ le mgmtPl 0 2 = 513 ∧ mgmtFieldsOk mgmtPl = true ∧
      flag (sv 0 0x101 0 mgmtPl) (Reg.mgmt 1 + 4) 0 = false ∧
      Fits 0 0x101 0 portPl ∧ portPl.length = 16 ∧ lifelinePort (sv 0 0x101 0 portPl) 508 = false ∧ portFieldsOk portPl = true ∧
      absorbedSet (sv 0 0x101 0 portPl) 508 = false ∧ ((modeRow (pByte portPl 2)).map (modeOk 508 portPl)).getD true = true ∧
      ((modeRow (pByte portPl 2)).map fun r => (covered 508 r.lanes).filter (ownSet (sv 0 0x101 0 portPl))).getD [] = [] ∧
      ((modeRow (pByte portPl 2)).map (familiesAfter (sv 0 0x101 0 portPl) 508)).getD 0 ≤ 2 ∧
      safeUses (sv 0 0x101 0 portPl) 508 = false ∧ flag (sv 0 0x101 0 portPl) (psts 508) 0 = false := by decide +kernel

theorem witness_LanesTrain :
    Fits 0 0x102 0 (toLe 2 511 ++ [0, 0]) dark ∧ ownPath dark 511 = true ∧ (portRow dark 511).map (·.lanes) = some 1 ∧
      flag dark (psts 511) 0 = false ∧ noTraining dark 511 = false ∧ (∀ k ∈ [3], k ≤ 3) ∧ (∀ k ∈ (List.range 1).map (fun i => [3].getD i 0), k ≠ 0) := by
  decide +kernel

def bus (b : ModBus) : Dev := { up with modBus := [(15, b)] }

theorem witness_BusesRecover :
    alive up = true ∧ (busOf up 15).failed = false ∧ (busOf up 15).stuck = false ∧
      (busOf (bus { stuck := true, clears := 1 }) 15).stuck = true ∧ (busOf (bus { stuck := true, clears := 1 }) 15).clears < 2 ∧
      2 ≤ (busOf (bus { stuck := true, clears := 2 }) 15).clears ∧
      Fits 0 0x101 1 (bs [15, 0, 0, 0]) (bus { failed := true }) ∧ (busOf (bus { failed := true }) 15).failed = true := by decide +kernel

/-- Port 511 with its link up. -/
def lit : Dev := ports up [511]

theorem witness_LinksAndMacMergeFollowEvents :
    ownPath dark 511 = true ∧ flag dark (psts 511) 0 = false ∧ flag lit (psts 511) 0 = true ∧
      (portOf (setPort lit 511 fun q => { q with verify := some 2 }) 511).verify = some 2 ∧
      (portOf (setPort lit 511 fun q => { q with verify := some 3 }) 511).verify = some 3 ∧
      receives lit 511 = true ∧ portCounts lit 511 = true := by decide +kernel

/-- MGMT1 enabled with its link down, and up. -/
def mgmtDark : Dev := reg up [(Reg.mgmt 1, 9216 * 65536 + 1)]
def mgmtLit : Dev := reg mgmtDark [(Reg.mgmt 1 + 4, 7)]

theorem witness_ManagementLinks :
    mgmtOn mgmtDark 513 = true ∧ flag mgmtDark (Reg.mgmt 1 + 4) 0 = false ∧ flag mgmtLit (Reg.mgmt 1 + 4) 0 = true ∧
      fld mgmtLit (Reg.mgmt 1) 16 14 = 9216 ∧ fcsGood (zeros 64) = false ∧
      fcsGood (zeros 60 ++ fcsOf (zeros 60)) = true ∧ (zeros 60 ++ fcsOf (zeros 60)).length = 64 := by decide +kernel

/-- Table 02-10: the link of MGMT1 comes up, a frame of 64 bytes is counted, and the link falls. -/
theorem test_management_port :
    rd (linkUp 513 mgmtDark) (Reg.mgmt 1 + 4) = 7 ∧ rd (linkDown 513 false false mgmtLit) (Reg.mgmt 1 + 0x2C) = 1 ∧
      rd (frameReceive 513 (zeros 60 ++ fcsOf (zeros 60)) false false 0 0 ⟨0, 0, 0⟩ mgmtLit) (Reg.mgmt 1 + 0x14) = 64 ∧
      rd (frameReceive 513 (zeros 64) false false 0 0 ⟨0, 0, 0⟩ mgmtLit) (Reg.mgmt 1 + 0x1C) = 1 := by decide +kernel

/-! ## Time -/

def freqPl : List Byte := bs [0, 0, 0, 0] ++ toLe 4 65536000 ++ zeros 16
def slewPl : List Byte := bs [1, 0, 0, 0] ++ toLe 4 (2 ^ 32 - 1000000) ++ toLe 4 1000 ++ zeros 12
def stepPl : List Byte := bs [2, 0, 0, 0] ++ toLe 4 1000000000 ++ zeros 16
def setPl : List Byte := bs [3, 0, 0, 0] ++ toLe 6 1 ++ toLe 4 999999999 ++ zeros 2 ++ toLe 8 10000

theorem witness_TimeAdjust :
    Fits 0 0x501 0 freqPl ∧ le freqPl 0 1 = 0 ∧ signed 32 (le freqPl 4 4) = 65536000 ∧ selMode (sv 0 0x501 0 freqPl) = false ∧
      Fits 0 0x501 0 slewPl ∧ le slewPl 0 1 = 1 ∧ signed 32 (le slewPl 4 4) = -1000000 ∧ le slewPl 8 4 ≤ 1000 ∧
      phaseSel (sv 0 0x501 0 slewPl) = false ∧ stepArmed (sv 0 0x501 0 slewPl) = false ∧
      Fits 0 0x501 0 stepPl ∧ le stepPl 0 1 = 2 ∧ signed 32 (le stepPl 4 4) = 1000000000 ∧ stepPl.length = 24 := by decide +kernel

theorem witness_TimeAdjust_set :
    Fits 0 0x501 0 setPl ∧ setPl.length = 24 ∧ le setPl 1 3 = 0 ∧ le setPl 0 1 = 3 ∧ le setPl 16 8 = 10000 ∧ le setPl 14 2 = 0 ∧
      le setPl 10 4 < 1000000000 ∧ extTime (sv 0 0x501 0 setPl) + 10000 ≤ 10000 ∧
      nextSecond [{ origin := 10000, sec := 1, ns := 999999999 }] 1 = some 10001 := by decide +kernel

theorem witness_TsuCommandsAct :
    up.boot.fwRunning = true ∧ slewing (reg up [(Reg.tsuSts, 2)]) = true ∧ stepArmed (reg up [(Reg.tsuSts, 1)]) = true ∧
      (reg up [(Reg.tsuSts, 1)]).time.stepExt ≤ extTime (reg up [(Reg.tsuSts, 1)]) ∧
      Ahead ((reg up [(Reg.tsuSts, 1)]).onTime fun t => { t with stepExt := 1000 }) 1000 ∧ alive up = true ∧
      sub32 (extTime up % two32) (2 ^ 31 + 1) < 2 ^ 31 ∧ 2 ^ 31 ≤ sub32 (extTime up % two32) (2 ^ 31) := by decide +kernel

/-- An edge of PPS_IN1 has been seen at 0. -/
def edged : Dev := up.onTime fun t => { t with refs := [(1, { ppsAt := some 0 })] }

theorem witness_PulsesAndCalendarFollowTime :
    alive up = true ∧ flag (reg up [(Reg.ppsOutCfg, 1)]) Reg.ppsOutCfg 0 = true ∧ (-2000 : Int).natAbs ≤ 2000 ∧ up.pins.vstby = true ∧
      up.boot.fwRunning = true ∧ { up with boot := { up.boot with fwRunning := false } }.boot.fwRunning = false ∧ up.time.ppsSet = false ∧
      nextAtNs (extTime up) 1000 = 1000 ∧ Ahead up 1000 ∧ (refOf up 1).ppsAt = none ∧ (refOf edged 1).ppsAt = some 0 ∧
      edged.now ≤ ppsDue 0 (-2000) ∧ edged.now ≤ ppsDue 0 (-2001) ∧ 2000 < (-2001 : Int).natAbs ∧
      (up.onTime fun t => { t with calLoads := [(0, 0, 33)] }).time.calLoads = [(0, 0, 33)] ∧ stagePossible 0 33 = true ∧
      stagePossible 0 0 = false ∧ 7 < 8 := by decide +kernel

def refUp : Dev := reg lit [(Reg.refCfg 3, 460 * 4096 + 2 ^ 26 + 1022)]
def refPl : List Byte :=
  bs [1, 0, 0xE4, 0] ++ toLe 4 (10000 * 4096) ++ toLe 4 (10 * 4096) ++ toLe 4 (10 * 4096) ++ toLe 4 (10 * 4096) ++ toLe 4 65535 ++ toLe 4 0

/-- Reference 3 in a given state with these runs in and out of window. -/
def refIn (state inRun outRun : Nat) : Dev := reg refUp [(Reg.refSts 3, state + 16 * inRun + 512 * outRun)]

theorem witness_References_transitions :
    (2 * (0 : Int) - (median2 refUp 3).getD 0).natAbs ≤ 2 * fld refUp (Reg.refCfg 3) 12 14 ∧
      ¬(2 * (10000 : Int) - (median2 refUp 3).getD 0).natAbs ≤ 2 * fld refUp (Reg.refCfg 3) 12 14 ∧
      refState (refIn 0 15 0) 3 = 0 ∧ fld (refIn 0 15 0) (Reg.refSts 3) 4 5 + 1 = 16 ∧
      refState (refIn 1 0 2) 3 = 1 ∧ fld (refIn 1 0 2) (Reg.refSts 3) 9 4 + 1 = 3 ∧
      refState (refIn 2 2 0) 3 = 2 ∧ fld (refIn 2 2 0) (Reg.refSts 3) 4 5 + 1 = 3 ∧
      refState (refIn 2 0 7) 3 = 2 ∧ fld (refIn 2 0 7) (Reg.refSts 3) 9 4 + 1 = 8 := by decide +kernel

theorem witness_ReferencesAreQualified :
    alive refUp = true ∧ refEn refUp 3 = true ∧ flag refUp (Reg.refSts 3) 2 = false ∧ syncLock refUp 3 = true ∧
      refEn (reg up [(Reg.refCfg 3, 2 ^ 26)]) 3 = true ∧ syncLock (reg up [(Reg.refCfg 3, 2 ^ 26)]) 3 = false ∧
      flag (reg refUp [(Reg.refSts 3, 4)]) (Reg.refSts 3) 2 = true ∧ syncLock (reg refUp [(Reg.refSts 3, 4)]) 3 = true ∧
      Fits 0 0x502 0 refPl ∧ refPl.length = 28 ∧ refPayloadOk (sv 0 0x502 0 refPl) refPl = true := by decide +kernel

/-! ## The safety plane -/

def editing (d : Dev) : Dev := d.onSafe fun s => { s with edit := some { cfg := {}, last := 0 } }
def streamPl : List Byte := bs [0, 0, 1, 0] ++ toLe 2 4095 ++ bs [1, 1] ++ zeros 60
def vidPl : List Byte := bs [1, 0, 0, 0] ++ zeros 511 ++ [255]
def settingsPl : List Byte := bs [2, 0, 0, 0] ++ zeros 8
def telePl : List Byte := bs [1, 0, 0, 0] ++ bs [63, 1] ++ toLe 2 511 ++ bs [0, 0] ++ toLe 2 60 ++ zeros 264

theorem witness_SafetySessionEditsACopy :
    Fits 15 0x601 0 [] ∧ (sv 15 0x601 0 []).safe.edit = none ∧
      Fits 15 0x602 0 streamPl (editing up) ∧ le streamPl 2 2 = 1 ∧ streamPl.length = 68 ∧
      (∀ x ∈ chunks 1 64 (streamPl.drop 4), streamOk x = true) ∧
      Fits 15 0x602 0 vidPl (editing up) ∧ le vidPl 0 1 = 1 ∧ vidPl.length = 516 ∧
      Fits 15 0x602 0 settingsPl (editing up) ∧ le settingsPl 0 1 = 2 ∧ settingsPl.length = 12 ∧
      Fits 15 0x603 0 telePl (editing up) ∧ telePl.length = 276 ∧ (∀ x ∈ chunks 1 272 (telePl.drop 4), teleOk x = true) ∧
      Fits 15 0x604 2 [] (editing up) := by decide +kernel

def stepOne : Dev := up.onSafe fun s => { s with edit := some { cfg := {}, last := 0, armed := some (5, 0) } }

theorem witness_SafetyCommitsInTwoSteps :
    Fits 15 0x604 0 [] (editing up) ∧ safeCheck (sv 15 0x604 0 [] (editing up)) {} = none ∧
      Fits 15 0x604 1 (toLe 8 5) { stepOne with now := 10 * ps_s } ∧
      (stepOne.safe.edit).map (·.armed) = some (some (le (toLe 8 5) 0 8, 0)) ∧ { stepOne with now := 10 * ps_s }.now ≤ 0 + 10 * ps_s ∧
      safeFlag stepOne 10 = false ∧ safeFlag stepOne 21 = false ∧ bit (stopCfg stepOne) 0 = bit ({} : SafeCfg).stopCfg 0 ∧
      guardsStarted (reg stepOne [(Reg.safeSts, 2 ^ 17), (Reg.safeStopCfg, 1)]) = true ∧
      bit (stopCfg (reg stepOne [(Reg.safeSts, 2 ^ 17), (Reg.safeStopCfg, 1)])) 0 ≠ bit ({} : SafeCfg).stopCfg 0 ∧
      (up.onSafe fun s => { s with tsw := some 0, loaded := true }).safe.tsw = some 0 ∧ 0 ≤ extTime up := by decide +kernel

theorem witness_SafetyCommits_digest :
    safeDigest (fixBases {} 0) ≠ (stepOne.onSafe fun s => { s with startDigest := safeDigest (fixBases {} 0) + 1 }).safe.startDigest :=
  (Nat.succ_ne_self _).symm

/-- Guards started, claims 12 and 8. -/
def guarded : Dev := reg up [(Reg.safeSts, 2 ^ 17 + 0x8C)]

theorem witness_ClaimsFollowCausesAndTests :
    Fits 15 0x605 0 (bs [1, 15, 0, 0]) guarded ∧ claimArgs (cmd 0x605 0 (bs [1, 15, 0, 0])) = true ∧
      proofBit (cmd 0x605 0 (bs [1, 15, 0, 0])) = false ∧ 15 ≠ claim guarded 0 ∧ 15 ≠ defClaim guarded 0 ∧ testing guarded 1 = false ∧
      guardsStarted guarded = true ∧ fld guarded (Reg.guardSts 1) 0 9 = 0 ∧
      Fits 15 0x605 0 (bs [1, 0, 1, 0]) guarded ∧ proofBit (cmd 0x605 0 (bs [1, 0, 1, 0])) = true ∧ testing guarded 0 = false ∧ alive guarded = true ∧
      proofCount guarded < 3 ∧ claim guarded 0 ≠ 0 := by decide +kernel

theorem witness_Claims_limitAndTests :
    degradeEnd (guarded.onSafe fun s => { s with degradeFrom := some 0 }) = some (rd guarded Reg.safeDegradeCfg % 2 ^ 18 * ps_s) ∧
      0 = (if claim guarded 0 ≠ 0 then 0 else 1) ∧
      proofAt (guardOf (setGuard guarded 1 fun k => { k with forcedAt := some 0 }) 1) = some ps_s ∧ guarded.boot.fwRunning = true ∧
      testing (reg guarded [(Reg.guardSts 1, 2 ^ 10)]) 1 = true ∧ claim guarded 0 ≠ 0 ∧
      testing (reg guarded [(Reg.guardSts 1, 2 ^ 10), (Reg.safeSts, 2 ^ 17)]) 1 = true ∧
      claim (reg guarded [(Reg.guardSts 1, 2 ^ 10), (Reg.safeSts, 2 ^ 17)]) 0 = 0 := by decide +kernel

def stopDev : Dev := (reg guarded [(Reg.safeSts, 2 ^ 20 + 2 ^ 18 + 2 ^ 17 + 2 ^ 10 + 0x8C)]).onSafe fun s => { s with armedHk := true }

theorem witness_Stops_inputs :
    tpFilter stopDev ≤ 1000 ∧ levelStop stopDev false false = true ∧ stopSeen stopDev false = false ∧
      levelStop stopDev true false = true ∧ stopSeen stopDev true = false ∧
      levelStop stopDev false true = false ∧ stopSeen (reg stopDev [(Reg.safeSts, 2 ^ 11)]) false = true ∧
      levelStop (reg stopDev [(Reg.safeSts, 2 ^ 11)]) false true = false ∧ (reg stopDev [(Reg.safeSts, 2 ^ 11)]).safe.disc = none ∧
      (stopDev.onSafe fun s => { s with disc := some (false, true, 0, false) }).safe.disc = some (false, true, 0, false) := by
  decide +kernel

theorem witness_Stops_acknowledges :
    Fits 15 0x606 0 [] stopDev ∧ safeFlag stopDev 10 = true ∧ safeFlag stopDev 11 = false ∧ safeFlag stopDev 12 = false ∧
      safeFlag stopDev 13 = false ∧ safeFlag (reg stopDev [(Reg.safeSts, 2 ^ 11)]) 11 = true ∧
      up.pins.stopAckN = true ∧ { stopDev with pins := { stopDev.pins with stopAckN := false } }.pins.stopAckN = false ∧ 0 + 10 * ps_ms ≤ { stopDev with now := 10 * ps_ms }.now ∧ { stopDev with now := 10 * ps_ms }.now ≤ 0 + 5 * ps_s ∧
      (stopDev.onSafe fun s => { s with ackFallAt := some 0 }).safe.ackFallAt = some 0 ∧
      safeFlag (reg stopDev [(Reg.safeSts, 2 ^ 14)]) 14 = true ∧
      (stopDev.onSafe fun s => { s with ackRiseAt := some 0 }).safe.ackRiseAt = some 0 ∧ safeFlag stopDev (18 + 2) = true := by decide +kernel

/-- A telegram 63 with its seal, due on port 511. -/
def tele63 (b : List Byte) : Tele := { port := 511, kind := 1, len := 60, bytes := b, sealCrc := sealOf 63 511 1 60 b }
def teleDev (t : Tele) : Dev :=
  (ports stopDev [511]).onSafe fun s => { s with hk := { new := { s.cfg with teles := [(63, t)] } }, teleDue := [(63, 0)] }

theorem tele63_sealed (b : List Byte) : (tele63 b).sealCrc = sealOf 63 (tele63 b).port (tele63 b).kind (tele63 b).len (tele63 b).bytes := rfl
theorem tele63_now (t : Tele) : tfind (telesNow (teleDev t) 2) 63 = some t := rfl
theorem tele63_good (b : List Byte) : sealGood 63 (tele63 b) = true := by simp [sealGood, tele63]

theorem witness_Stops_telegrams :
    (63, 0) ∈ (teleDev (tele63 (zeros 256))).safe.teleDue ∧ (∀ e ∈ (teleDev (tele63 (zeros 256))).safe.teleDue, 0 ≤ e.2) ∧
      2 ∈ emitters (teleDev (tele63 (zeros 256))) ∧ portDead (teleDev (tele63 (zeros 256))) 511 = false ∧
      emitters (teleDev (tele63 (zeros 256))) = [0, 2] ∧ telesNow (teleDev (tele63 (zeros 256))) 0 = [] ∧ (tele63 (zeros 256)).kind &&& activeKinds (teleDev (tele63 (zeros 256))) ≠ 0 ∧
      tfind (teleDev (tele63 (zeros 256))).safe.teleAt 63 = none := by decide +kernel

/-! ## Reception and pauses -/

def ucast : List Byte := eth 0x001122334455 0x00AABBCCDDEE 0x0800 []

theorem witness_FramesAreReceived :
    receives (reg dark [(psts 511, 2)]) 511 = false ∧ portCounts dark 511 = true ∧ flag (reg dark [(psts 511, 2)]) (psts 511) 1 = true ∧
      receives lit 511 = true ∧ ucast.length = 64 ∧ cutLen lit 511 ucast = (ucast, false) ∧ (cutLen lit 511 (zeros 9217)).2 = true ∧
      macControl ucast = 0 ∧ tileMarks lit (newFrame lit 511 ucast (fcsGood ucast) false).tile (newFrame lit 511 ucast (fcsGood ucast) false)
        (newFrame lit 511 ucast (fcsGood ucast) false).vid = false ∧
      (ownedCells lit 15 ++ strayCells lit 15).length + cellsOf 64 ≤ tileCells ∧
      admitted lit 511 false = true ∧ gafDrops lit 511 ucast = false ∧ lit.boot.phase = .full ∧
      (filterFor lit 511 (be ucast 0 6) (newFrame lit 511 ucast (fcsGood ucast) false).vid).isNone = true ∧ lit.tel.mirrors = [] ∧
      admitted (setPort lit 511 fun q => { q with closedUntil := 1 }) 511 false = false ∧ portCounts lit 511 = true := by decide +kernel

def pfcIn : List Byte := eth 0x0180C2000001 0x00AABBCCDDEE 0x8808 (bs [1, 1, 0, 127])
def pauseIn : List Byte := eth 0x0180C2000001 0x00AABBCCDDEE 0x8808 (bs [0, 1, 255, 255])

theorem witness_PausesAreTakenAndSent :
    receives lit 511 = true ∧ portCounts lit 511 = true ∧ fcsGood pfcIn = true ∧ admitted lit 511 false = true ∧
      pfcIn.length ≤ fld lit (Reg.port 511 + Reg.pMode) 16 14 ∧ macControl pfcIn = 2 ∧ fcsGood pauseIn = true ∧
      macControl pauseIn = 1 ∧ macControl (pauseIn ++ zeros 9216) ≠ 0 ∧
      fld lit (Reg.port 511 + Reg.pMode) 16 14 < (pauseIn ++ zeros 9216).length ∧
      admitted (setPort lit 511 fun q => { q with closedUntil := 1 }) 511 false = false ∧
      tfind (egrOf (setEgr lit 511 fun e => { e with paused := [(7, 5)] }) 511).paused 7 = some 5 ∧
      tfind (lit.onBuf fun b => { b with xoff := [(8 * 511 + 7, 5)] }).buf.xoff (8 * 511 + 7) = some 5 := by decide +kernel

/-- VLAN 1 with every port a member, a known destination on port 510, and a frame from port 511 under number 0. -/
def macB : MacEnt := { dest := 510, fid := 1, mac := 0x001122334455 }
def frm : Frame := { bytes := ucast, len := 64, inPort := 511, vid := 1 }
def bridging : Dev :=
  knows (putPath { ports up [510, 511] with buf := { frames := [(0, frm)], nextFrame := 1 } } 1 1
    (bs [1, 0, 1, 0] ++ List.replicate 64 255 ++ zeros 64)) 3 macB

theorem witness_Unicast_bridged :
    frameOf bridging 0 = some frm ∧ frm.inPort < 512 ∧ 11 < 12 ∧ cplxOf frm.inPort = 3 ∧ macB.dest < 512 ∧ macB.router = false ∧ macB.isLag = false ∧ frm.cls < 7 ∧ frm.inject = none ∧
      (∀ n < 16, flag bridging (Reg.cplx (cplxOf 511) + Reg.ruleProfCfg n) 4 = false) ∧ bridging.tel.mirrors = [] ∧
      tileCause bridging frm = none ∧ vlanRefused bridging 3 frm = false ∧ isGroup (be frm.bytes 6 6) = false ∧
      macGet (macTab bridging 3) (vlanOf bridging 3 1).fid (be frm.bytes 6 6) = none ∧
      macGet (macTab bridging 3) (vlanOf bridging 3 1).fid (be frm.bytes 0 6) = some macB := by decide +kernel

theorem witness_Unicast_more :
    macB.dest ≠ frm.inPort ∧ lagOf bridging 3 511 = none ∧ portDead bridging 510 = false ∧ copiesOf bridging 0 = [] ∧ frm.learn = none ∧
      frm.tailIn = false ∧ frm.fcsOk = true ∧ frm.keyed = false ∧ frm.dead = false ∧ { frm with fcsOk := false }.fcsOk = false ∧
      voqPart bridging frm.tile (8 * 510 + 0) .reservation < bits (classCfg bridging frm.tile 0) 4 8 := by
  decide +kernel

/-! ## Trap queues and the DMA rings -/

def trapped : TrapFrame := { frame := frm, cause := 5, since := 0, buf := 0 }
def trapDev : Dev := { up with host := { up.host with trapQ := [(7, [trapped])] } }
/-- Trap ring 7 with 65,536 descriptors takes queue 7; one descriptor is posted or none. -/
def trapR (n : Nat) : Dev := reg trapDev [(Reg.ring false 7 + Reg.rCfg, 0x8030), (Reg.ring false 7 + Reg.rPost, n)]

theorem witness_TrappedFrames :
    trapQueue trapDev 7 = [trapped] ∧ trapRing trapDev 7 = none ∧ trapRing (trapR 1) 7 = some 7 ∧ 12 ≤ (zeros 12).length ∧
      dmaUp (trapR 1) = true ∧ descAt (trapR 1) false 7 (rd (trapR 1) (Reg.ring false 7 + Reg.rEvc)) = true ∧
      trapRing (trapR 0) 7 = some 7 ∧ descAt (trapR 0) false 7 (rd (trapR 0) (Reg.ring false 7 + Reg.rEvc)) = false := by decide +kernel

def injR (l : List (Nat × Nat)) : Dev := reg lit ((Reg.ring true 7 + Reg.rCfg, 0x26) :: l)

theorem witness_RingsAreEnabledAndPosted :
    barUp up = true ∧ ringOn (rd up (Reg.ring true 7 + Reg.rCfg)) = false ∧ ringOn (0xFFFFFFF0 &&& 0x3F) = true ∧
      ringOn (0xFFFFFFF0 &&& 0xFF3F) = true ∧ ringOn (rd (injR []) (Reg.ring true 7 + Reg.rCfg)) = true ∧ bit 0x10 5 = false ∧
      flag (injR []) (Reg.ring true 7 + Reg.rSts) 1 = false ∧
      2 ^ fld (injR []) (Reg.ring true 7 + Reg.rCfg) 0 5 < sub32 65 (rd (injR []) (Reg.ring true 7 + Reg.rEvc)) ∧
      sub32 64 (rd (injR []) (Reg.ring true 7 + Reg.rEvc)) ≤ 2 ^ fld (injR []) (Reg.ring true 7 + Reg.rCfg) 0 5 := by decide +kernel

/-- A descriptor for a 60-byte frame to port 511, class 6, and one to port 510, which is not set. -/
def injD (p : Nat) : List Byte := zeros 8 ++ toLe 4 (60 + 65536 * p + 6 * 2 ^ 25) ++ zeros 4
def injReady : Dev := injR [(Reg.ring true 7 + Reg.rPost, 1)]

theorem witness_Injected_fetched :
    dmaUp injReady = true ∧ injectNext injReady 7 = 0 ∧ descAt injReady true 7 0 = true ∧ (injD 511).length = 16 ∧
      (ucast.take 60).length = injectLen (injD 511) ∧ (coopAlloc injReady 63 (ceilDiv 60 256)).1 = 0 ∧
      injRefusal injReady (injD 511) (injFrame injReady 7 0 (injD 511) (ucast.take 60)) = 0 ∧
      injRefusal injReady (injD 510) (injFrame injReady 7 0 (injD 510) (ucast.take 60)) ≠ 0 := by decide +kernel

/-- The same descriptor with `MODE` 1. -/
def injLook : List Byte := zeros 8 ++ toLe 4 (60 + 65536 * 511 + 2 ^ 14) ++ zeros 4
def injDark : Dev := reg injReady [(psts 511, 0)]

theorem witness_Injected_forced :
    injReady.boot.phase ≠ .quiesced ∧ injMode (injD 511) = false ∧ portDead injDark 511 = true ∧ portDead injReady 511 = false ∧
      injRefusal injDark (injD 511) (injFrame injDark 7 0 (injD 511) (ucast.take 60)) = 0 ∧ descAt injDark true 7 0 = true ∧ dmaUp injDark = true ∧
      voqPart injReady (tileOf 511) (8 * 511 + injCls (injD 511)) .reservation <
        bits (classCfg injReady (tileOf 511) (injCls (injD 511))) 4 8 ∧
      injMode injLook = true ∧ injPort injLook = 511 ∧ (ucast.take 60).length = injectLen injLook ∧
      injRefusal injReady injLook (injFrame injReady 7 0 injLook (ucast.take 60)) = 0 ∧
      (filterFor injReady 511 (be (ucast.take 60) 0 6) (injFrame injReady 7 0 injLook (ucast.take 60)).vid).isNone = true := by decide +kernel

theorem witness_Injected_completed :
    tfind (tget [] { injReady with host := { injReady.host with inject := [(7, [(0, { desc := injD 511, res := some (0, 5) })])] } }.host.inject 7)
        (rd injReady (Reg.ring true 7 + Reg.rEvc)) = some { desc := injD 511, res := some (0, 5) } ∧
      ringOn (rd injReady (Reg.ring true 7 + Reg.rCfg)) = true ∧ flag injReady (Reg.ring true 7 + Reg.rSts) 1 = false ∧
      sub32 (rd injReady (Reg.ring true 7 + Reg.rPost)) 1 ≤ 2 ^ fld injReady (Reg.ring true 7 + Reg.rCfg) 0 5 ∧
      2 ^ fld (injR []) (Reg.ring true 7 + Reg.rCfg) 0 5 < sub32 (rd (injR []) (Reg.ring true 7 + Reg.rPost)) 1 := by decide +kernel

/-! ## Host accesses, interrupts and power states of the function -/

theorem witness_HostAccesses :
    (Access.mk 0 0x3FFFFFE 4 15 false 0 65535 2).wf = true ∧ barUp up = true ∧ 4 < 0x3FFFFFE % 4 + 4 ∧
      (Access.mk 0 0x10 4 15 true 0xFFFFFFFF 0 0).wf = true ∧ mapped 0 0x10 = true ∧ Reg.hostMask 0x10 = some 0xFFFFFFFF ∧ baseHeld up 0x10 = false ∧
      (Access.mk 0 0x18C 4 15 true 0x00140010 0 0).wf = true ∧ 0x18C = Reg.irqEn 35 ∧ mapped 0 0x18C = true ∧
      (Access.mk 0 0 4 15 false 0 0 0).wf = true ∧ (readBar0 up 0).isSome = true ∧
      (Access.mk 2 0x3FC 4 15 true 1 0 0).wf = true ∧ mapped 2 0x3FC = true ∧ 0x3FC % 16 = 12 ∧ bit 1 0 = true ∧
      (Access.mk 2 0x800 4 15 false 0 0 0).wf = true ∧ mapped 2 0x800 = true ∧
      (Access.mk 3 cfgMsix 4 8 true (2 ^ 31) 0 0).wf = true ∧ alive up = true ∧ cfgMsix / 4 * 4 = cfgMsix ∧ bit 8 3 = true ∧
      (Access.mk 3 0xFFF 4 15 false 0 0 0).wf = true ∧ (cfgWord (0xFFF / 4 * 4)).free = 0 ∧ (cfgWord 0x84).free = 0 ∧
      (Access.mk 0 0x26207FC 4 15 false 0 0 0).wf = true ∧ 0x262_0000 ≤ 0x26207FC ∧ mapped 0 0x26207FC = true := by decide +kernel

/-- Table 11-1: BAR0 of 64 MiB and BAR2 of 4 KiB, both 64-bit and not prefetchable, as a host sizes them; no BAR at 0x20 and no ROM. -/
theorem test_bars_size :
    let w := fun a => cfgWrite up a 15 0xFFFFFFFF
    cfgHeld (w 0x10) 0x10 = 0xFC000004 ∧ cfgHeld (w 0x14) 0x14 = 0xFFFFFFFF ∧ cfgHeld (w 0x18) 0x18 = 0xFFFFF004 ∧
      cfgHeld (w 0x20) 0x20 = 0 ∧ cfgHeld (w 0x30) 0x30 = 0 ∧ cfgHeld up 0x08 = 0x028000B0 := by decide +kernel

def irq33 : Dev := reg up [(Reg.irqEn 33, 1)]
def unmasked : Dev := { irq33 with host := { irq33.host with masked := [] } }

theorem witness_ArmingAndUnmasking :
    barUp irq33 = true ∧ (2 ^ 32 - 31) % 64 = 33 ∧ irqSummary irq33 33 = true ∧ canSend irq33 33 = false ∧ irqSummary unmasked 33 = true ∧
      canSend unmasked 33 = true ∧ irqSummary irq33 35 = false ∧ 36 ≤ 63 ∧
      33 ∈ { irq33 with host := { irq33.host with pba := [33] } }.host.pba ∧ irq33.host.busMaster = true := by decide +kernel

def someRsp : Rsp := { status := 0, len := 0, tag := 0, vintage := 1, detail := 0xFFFF, reason := 0, payload := [] }
def holding : Dev := setChan up 15 fun c => { c with held := [(someRsp, true)] }

theorem witness_HostInterface :
    alive up = true ∧ (∀ ch < 16, (chanOf up ch).held = []) ∧ up.host.d3 = false ∧ up.host.busMaster = true ∧
      (∀ k < 16, k ≠ 15 → (chanOf holding k).held = []) ∧ (chanOf holding 15).held = [(someRsp, true)] ∧ chanErr holding 15 = false := by
  decide +kernel

/-! ## The mailbox itself -/

def enabled (l : List (Nat × Nat)) : Dev := reg up ((Reg.chan 15 + Reg.mCfg, 1) :: l)
def getInfoSlot : List Byte := bs [0, 0, 0x10, 0] ++ zeros 28

theorem witness_Channels :
    barUp (enabled []) = true ∧ chanEn (enabled []) 15 = true ∧ chanErr (enabled []) 15 = false ∧
      sub32 64 (mreg (enabled []) 15 Reg.mRspAck) ≤ 64 ∧ 64 < sub32 65 (mreg (enabled []) 15 Reg.mRspAck) ∧
      sub32 (mreg (enabled [(Reg.chan 15 + Reg.mPost, 64)]) 15 Reg.mPost) (mreg (enabled [(Reg.chan 15 + Reg.mPost, 64)]) 15 Reg.mTaken) = 64 ∧
      getInfoSlot.length = 32 ∧ opcodes.contains (parseSlot getInfoSlot []).opcode = true ∧
      opcodes.contains (parseSlot (zeros 32) []).opcode = false ∧ (chanOf (enabled []) 15).inflight = [] ∧
      (chanOf (enabled []) 15).discard = 0 ∧ (chanOf (enabled []) 15).held = [] ∧
      bit (rd (enabled [(Reg.ccEvtRoute 15, 2 ^ 8 + 31)]) (Reg.ccEvtRoute 15)) 8 = true ∧ (coreOf (enabled []) 3).stopped = false ∧
      (coreOf ((enabled []).onCc fun c => { c with core := [(3, { stopped := true })] }) 3).stopped = true ∧
      lockWaits (sv 15 0x001 0 []) 15 (cmd 0x001 0 []) = false := by decide +kernel

theorem witness_Channels_faults :
    holdsLock (sv 0 0x301 0 rule17) 0 = false ∧
      holdsLock (sv 0 0x301 0 rule17 (up.onFwd fun w => { w with ruleJob := some (0, 7) })) 0 = true ∧
      rulesWritten (sv 0 0x301 0 rule17) 0 (cmd 0x301 0 rule17) = 0 ∧
      rulesWritten (sv 0 0x301 0 rule17 (up.onFwd fun w => { w with ruleJob := some (0, 7) })) 0 (cmd 0x301 0 rule17) = 17 ∧
      up.boot.fwRunning = true ∧ Fits 0 0x001 0 [] := by decide +kernel

theorem witness_Channels_enable :
    flag up (Reg.chan 15 + Reg.mCfg) 0 = false ∧ (chanOf up 15).inflight = [] ∧ (chanOf (sv 15 0x001 0 []) 15).inflight ≠ [] ∧
      flag (sv 15 0x001 0 []) (Reg.chan 15 + Reg.mCfg) 0 = false ∧ flag (enabled []) (Reg.chan 15 + Reg.mCfg) 0 = true ∧
      Served (sv 15 0x001 0 []) 15 (cmd 0x001 0 []) := by decide +kernel

/-! ## Threads -/

/-- A thread in a given state with stack window 0 to 4,096, sp 0x100, x3 = 1, and a vector at 0x80. -/
def thrDev (n : Nat) (t : Thr) (l : List (Nat × Nat)) : Dev :=
  reg (setThr up n fun _ => { t with x := [(2, 0x100), (3, 1)] })
    ([(Reg.thr n + Reg.tStkHi, 4096), (Reg.thr n + Reg.tTvec, 0x80)] ++ l)

def r31 (d : Nat) (l : List (Nat × Nat)) : Dev := thrDev 31 { state := .running, depth := d } l

theorem witness_ThreadingInstructions :
    isState (r31 3 []) 31 .running = true ∧ (thrOf (r31 3 []) 31).depth ≠ 0 ∧ xr (r31 3 []) 31 2 = 0x100 ∧
      frameOk (r31 3 []) 31 0x100 0x100 = true ∧
      treg (r31 0 [(Reg.thr 31 + Reg.tEvtPend, 1)]) 31 Reg.tEvtPend &&& xr (r31 0 [(Reg.thr 31 + Reg.tEvtPend, 1)]) 31 3 ≠ 0 ∧
      treg (r31 0 []) 31 Reg.tEvtPend &&& xr (r31 0 []) 31 3 = 0 ∧
      Executes (r31 3 []) 31 ∧ diff32 (ccCycle (r31 0 [])) (xr (r31 0 []) 31 3) < 0 ∧
      0 ≤ diff32 (ccCycle (r31 0 [])) (xr (r31 0 []) 31 4) ∧ treg (r31 0 []) 31 Reg.tEvtPend &&& xr (r31 0 []) 31 4 = 0 ∧
      (∀ h < 8, isState (r31 0 []) (8 * 3 + h) .ready = false) ∧
      isState (setThr (r31 0 []) 24 fun t => { t with state := .ready }) (8 * 3 + 0) .ready = true ∧
      flag (r31 0 [(Reg.rgnPost 3, 2 ^ 31)]) (Reg.rgnPost (31 - 28)) (0xFFFFFFFF % 32) = true ∧
      (coreOf (r31 0 []) (0xFFFFFFFF % 32 / 8)).stopped = false ∧
      (coreOf ((r31 0 []).onCc fun c => { c with core := [(3, { stopped := true })] }) (0xFFFFFFFF % 32 / 8)).stopped = true := by
  decide +kernel

theorem witness_Threading_wake :
    (thrOf (thrDev 31 { state := .waiting } [(Reg.thr 31 + Reg.tEvtPend, 1), (Reg.thr 31 + Reg.tEvtMask, 1)]) 31).state = .waiting ∧
      pendMasked (thrDev 31 { state := .waiting } [(Reg.thr 31 + Reg.tEvtPend, 1), (Reg.thr 31 + Reg.tEvtMask, 1)]) 31 ≠ 0 ∧
      pendMasked (thrDev 31 { state := .waiting, timed := true } []) 31 = 0 ∧
      (thrOf (thrDev 31 { state := .waiting, timed := true } []) 31).timed = true := by decide +kernel

theorem witness_Traps :
    isState (r31 2 []) 31 .running = true ∧ (thrOf (r31 2 []) 31).depth < 3 ∧ 32 ≤ xr (r31 2 []) 31 2 ∧
      frameOk (r31 2 []) 31 0x100 (0x100 - 32) = true ∧ treg (r31 2 []) 31 Reg.tTvec ≠ 0 ∧ (thrOf (r31 3 []) 31).depth = 3 ∧
      8 ≤ 8 ∧ 31 ≠ 0 ∧ (coreOf (r31 3 []) 0).stopped = false ∧ isGuest 31 = true ∧ (thrOf (r31 2 []) 31).ie = true ∧
      (thrOf (thrDev 31 { state := .running, sampleHeld := true } []) 31).sampleHeld = true ∧
      (thrOf (thrDev 31 { state := .running, sampleDue := true } []) 31).sampleDue = true ∧
      (thrOf (thrDev 31 { state := .running, sampleDue := true, skid := 6 } []) 31).skid ≤ 6 ∧
      6 ≤ (thrOf (thrDev 31 { state := .running, sampleDue := true, skid := 5 } []) 31).skid + 1 ∧ (thrOf (r31 0 []) 31).sampleDue = false ∧
      treg (r31 0 [(Reg.thr 31 + Reg.tSampleCfg, 0x111)]) 31 Reg.tSampleCfg = 0x111 ∧ bit 0x111 4 = true ∧ bits 0x111 8 24 ≠ 0 ∧
      bits 0x111 0 4 ∈ [1, 3, 4] := by
  decide +kernel

def r27 (d : Nat) : Dev := thrDev 27 { state := .running, depth := d } []

/-- A load of the word at an address. -/
def ldw (a : Nat) : ThrAccess := ⟨.load, a, 4, 5, false, 0, false, 0⟩

theorem witness_Traps_unmapped :
    isState (r27 2) 27 .running = true ∧ (ldw 0x5000_0000).wf = true ∧
      guestMay (r27 2) 27 0x5000_0000 4 (accRgn .load) = true ∧ 0x5000_0000 % 4 = 0 ∧ thrTarget (coreNum 27) 0x5000_0000 = none ∧
      (thrOf (r27 2) 27).depth < 3 ∧ frameOk (r27 2) 27 (xr (r27 2) 27 2) (xr (r27 2) 27 2 - 32) = true ∧
      treg (r27 2) 27 Reg.tTvec ≠ 0 ∧ guestMay (r27 2) 27 0x5000_0002 2 (accRgn .fetch) = true ∧ thrTarget (coreNum 27) 0x5000_0002 = none := by
  decide +kernel

/-- Table 10-1: the own scratchpad's windows, core 2's clear window through port B, the cooper's ports and the register space; the holes
between them. -/
theorem test_address_map :
    thrTarget 3 0x7FFFC = some (.pad 3 0 0x7FFFC false) ∧ thrTarget 3 0x8_0000 = none ∧ thrTarget 3 0x30_0010 = some (.pad 3 3 0x10 false) ∧
      thrTarget 3 0x10B0_0004 = some (.pad 2 3 4 true) ∧ thrTarget 0 0x2100_01FC = some (.alloc 127) ∧ thrTarget 0 0x2100_0200 = none ∧
      thrTarget 0 0x2100_1000 = some .free ∧ thrTarget 1 0x40_0010 = some (.reg (Reg.core 1 + 0x10) true) ∧
      thrTarget 0 0x4082_5000 = some (.reg (Reg.port 37) false) ∧ thrTarget 0 0x5000_0000 = none := by decide +kernel

/-- R575, Table 10-4: custom-0 words; funct3 4, and funct7 1, are illegal instructions. -/
theorem test_thread_words :
    threadWord 5 (fun i => 100 + i) 0x0000000B = some (.tret 5) ∧ threadWord 5 (fun i => 100 + i) 0x0041928B = some (.twait 5 5 3 4) ∧
      threadWord 5 (fun i => 100 + i) 0x0000200B = some (.tyield 5) ∧ threadWord 5 (fun i => 100 + i) 0x0041B00B = some (.tpost 5 103 104) ∧
      threadWord 5 (fun i => 100 + i) 0x0000400B = some (.trap 5 2 0x0000400B) ∧
      threadWord 5 (fun i => 100 + i) 0x0200000B = some (.trap 5 2 0x0200000B) ∧ threadWord 5 (fun i => 100 + i) 0x00000013 = none := by
  decide +kernel

/-- The cellarmaster runs and thread 31 is in a given state. -/
def cmAnd (t : ThrState) : Dev := setThr (thrDev 0 { state := .running } []) 31 fun x => { x with state := t }

theorem witness_ThreadsStallStartAndStop :
    isState (r31 0 []) 31 .running = true ∧ isState (thrDev 31 { state := .stalled } []) 31 .stalled = true ∧
      (thrOf (thrDev 31 { state := .stalled } []) 31).stopping = false ∧
      (thrOf (thrDev 31 { state := .stalled, stopping := true } []) 31).stopping = true ∧
      isState (cmAnd .off) 0 .running = true ∧ isState (cmAnd .off) 31 .off = true ∧ isState (cmAnd .ready) 31 .off = false ∧
      isState (cmAnd .ready) 31 .stalled = false ∧ isState (cmAnd .stalled) 31 .stalled = true ∧ isState (cmAnd .faulted) 31 .faulted = true ∧
      (coreOf (cmAnd .off) 3).stopped = false ∧ (coreOf ((cmAnd .off).onCc fun c => { c with core := [(3, { stopped := true })] }) 3).stopped = true ∧
      isState (r27 0) 27 .running = true ∧ guestMay (r27 0) 27 (0x4000_0000 + thrCmdAddr 0) 4 1 = true ∧ (thrOf (r27 0) 27).depth < 3 ∧
      32 ≤ xr (r27 0) 27 2 ∧ frameOk (r27 0) 27 (xr (r27 0) 27 2) (xr (r27 0) 27 2 - 32) = true ∧ treg (r27 0) 27 Reg.tTvec ≠ 0 ∧
      guestMay (r31 0 []) 31 (0x4000_0000 + thrCmdAddr 31) 4 1 = false ∧ 0x7FFFC + 4 ≤ spmSize ∧
      guestMay (r27 0) 27 (0x1000_0000 + 0x40_0000 * coreNum 27 + 0x7FFFC) 4 1 = true := by decide +kernel

def flt27 (l : List Nat) : Dev := setThr (cmAnd .off) 27 fun x => { x with state := .faulted, faults := l }

theorem witness_FaultedThreadsAreRestarted :
    isState (cmAnd .off) 0 .running = true ∧ isState (r27 0) 27 .running = true ∧ (cmAnd .off).boot.fwRunning = true ∧ isState (cmAnd .off) 0 .faulted = false ∧
      isState (cmAnd .off) 0 .off = false ∧ (thrOf (cmAnd .off) 0).restartAt = none ∧ cmAlive (flt27 [0]) = true ∧
      isState (flt27 [0]) 27 .faulted = true ∧ (thrOf (flt27 [0]) 27).left = false ∧ (coreOf (flt27 [0]) 3).stopped = false ∧ recentFaults (flt27 [0, 0, 0]) 27 < 4 ∧
      4 ≤ recentFaults (flt27 [0, 0, 0, 0]) 27 := by decide +kernel

/-! ## Scratchpads, core clocks, the cooper and guests -/

theorem witness_WindowsChangeScratchpadWords :
    524284 % 4 = 0 ∧ isState (thrDev 27 { state := .running } []) 27 .running = true ∧
      guestMay (thrDev 27 { state := .running } []) 27 (0x20_0000 + 524284) 4 0 = true ∧
      guestMay (thrDev 27 { state := .running } []) 27 (0x20_0000 + 524287) 1 1 = true ∧
      guestMay (thrDev 27 { state := .running } []) 27 (0x30_0000 + 524284) 4 0 = true ∧
      guestMay (thrDev 27 { state := .running } []) 27 (0x30_0000 + 524286) 2 1 = true ∧
      guestMay (r27 0) 27 524284 4 1 = true ∧ guestMay (r27 0) 27 524284 4 0 = true ∧ (524284 + 2) % 4 + 2 ≤ 4 ∧ 4 < 524282 % 4 + 4 ∧ 524282 + 4 ≤ 524288 ∧ guestMay (r27 0) 27 (0x20_0000 + 524282) 4 1 = true ∧
      guestMay (r27 0) 27 (0x30_0000 + 524282) 4 1 = true ∧ guestMay (r31 0 []) 31 (0x20_0000 + 524284) 4 1 = false ∧
      guestMay (r27 2) 27 (0x20_0000 + 524287) 1 0 = true ∧ guestMay (r27 2) 27 (0x30_0000 + 524286) 2 0 = true ∧ Executes (r27 2) 27 ∧
      (thrOf (r27 2) 27).depth < 3 ∧ 32 ≤ xr (r27 2) 27 2 ∧ frameOk (r27 2) 27 (xr (r27 2) 27 2) (xr (r27 2) 27 2 - 32) = true ∧
      treg (r27 2) 27 Reg.tTvec ≠ 0 := by decide +kernel

def core3 (c : Core) (l : List (Nat × Nat)) : Dev := reg { up with cc := { thr := [], core := [(3, c)] } } l

/-- Thread 31 waits, with a masked event pending or without. -/
def waiting31 (b : Nat) : Dev :=
  reg { up with cc := { thr := [(31, { state := .waiting })], core := [] } } [(Reg.thr 31 + Reg.tEvtPend, b), (Reg.thr 31 + Reg.tEvtMask, 1)]

theorem witness_CoresSleepWakeAndTest :
    alive up = true ∧ (coreOf (core3 { region := 8191 } []) 3).retained = false ∧ (coreOf (core3 { region := 8191 } []) 3).region < 8192 ∧
      (coreOf (core3 {} []) 3).stopped = false ∧ coreBusy (core3 {} []) 3 = false ∧ flag (core3 {} []) (Reg.core 3 + Reg.corePwr) 0 = true ∧
      (∀ h < 8, isState (core3 {} []) (8 * 3 + h) .waiting = false) ∧
      (coreOf (waiting31 0) 3).stopped = false ∧ coreBusy (waiting31 0) 3 = false ∧ flag (waiting31 0) (Reg.core 3 + Reg.corePwr) 0 = true ∧
      isState (waiting31 0) (8 * 3 + 7) .waiting = true ∧ pendMasked (waiting31 0) (8 * 3 + 7) = 0 ∧ (thrOf (waiting31 0) 31).timed = false ∧
      coreBusy (waiting31 1) 3 = false ∧ pendMasked (waiting31 1) (8 * 3 + 7) ≠ 0 ∧
      (coreOf (core3 { stopped := true } []) 3).stopped = true ∧ (coreOf (core3 { stopped := true } []) 3).retained = false ∧
      (coreOf (core3 { stopped := true } []) 3).wakeAt = none ∧ (coreOf (core3 { stopped := true } []) 3).posts = [] ∧
      (coreOf (core3 { stopped := true } []) 3).cmds = [] ∧
      flag (core3 { stopped := true } [(Reg.core 3 + Reg.corePwr, 3)]) (Reg.core 3 + Reg.corePwr) 1 = true ∧
      (coreOf (core3 { stopped := true, posts := [(31, 5)] } []) 3).posts = [(31, 5)] ∧ coreNum 31 = 3 ∧
      (coreOf (core3 { stopped := true, cmds := [(31, .start)] } []) 3).cmds = [(31, .start)] ∧
      isState (core3 { stopped := true, cmds := [(31, .start)] } []) 31 .off = true ∧
      3 ∉ up.buf.failed ∧ 3 ∉ up.buf.running ∧ tget [] up.buf.rackQ 3 = [] ∧ barUp up = true ∧
      flag (reg up [(Reg.perfUserPerm, 2 ^ 31)]) Reg.perfUserPerm 31 = true ∧ (coreOf (reg up [(Reg.perfUserPerm, 2 ^ 31)]) 3).stopped = false ∧
      flag (core3 { stopped := true } [(Reg.perfUserPerm, 2 ^ 31)]) Reg.perfUserPerm 31 = true ∧ (coreOf (core3 { stopped := true } [(Reg.perfUserPerm, 2 ^ 31)]) 3).stopped = true ∧ flag up Reg.perfUserPerm 31 = false := by decide +kernel

theorem witness_CooperLendsBuffers :
    (32 ≤ 63 ∧ alive up = true) ∧ (27 < 28 ∧ isState (thrDev 27 { state := .running } []) 27 .running = true) ∧
      coopUse up 63 + poolSize (coopPool 64) ≤ fld up (Reg.coopQuota 63) 0 15 * 1024 ∧
      firstFree (coopPool 64) 0 ((up.cc.held.filter fun e => decide (e.2.pool = coopPool 64)).map (·.1)) = some 0xB0_0000 ∧
      fld (reg up [(Reg.coopQuota 63, 15)]) (Reg.coopQuota 63) 0 15 * 1024 < coopUse (reg up [(Reg.coopQuota 63, 15)]) 63 + poolSize (coopPool 64) ∧
      guestMay (thrDev 27 { state := .running } []) 27 (0x2100_0000 + 4 * 64) 4 0 = true ∧
      guestMay (thrDev 27 { state := .running } []) 27 0x2100_1000 4 1 = true ∧
      guestMay (r27 2) 27 (0x2100_0000 + 4 * 128) 4 0 = true ∧ isState (r27 2) 27 .running = true ∧ (thrOf (r27 2) 27).depth < 3 ∧
      32 ≤ xr (r27 2) 27 2 ∧ frameOk (r27 2) 27 (xr (r27 2) 27 2) (xr (r27 2) 27 2 - 32) = true ∧ treg (r27 2) 27 Reg.tTvec ≠ 0 ∧
      isState (r31 0 []) 31 .running = true ∧ guestMay (r31 0 []) 31 (0x2100_0000 + 4 * 64) 4 0 = false ∧
      62 < 63 ∧ up.cc.held = [] ∧ 64 ≤ fld up (Reg.coopQuota 62) 0 15 ∧ 64 ≤ fld up (Reg.coopQuota 63) 0 15 ∧
      64 < 65 ∧ tfind (up.onCc fun c => { c with held := [(0, { req := 63, pool := 0 })] }).cc.held 0 = some { req := 63, pool := 0 } ∧
      tfind up.cc.held 0 = none := by decide +kernel

/-- Requester 0 holds every 16 KiB buffer. -/
def drained : Dev := up.onCc fun c => { c with held := (List.range 320).map fun i => (0xB0_0000 + 0x4000 * i, { req := 0, pool := 3 }) }

theorem witness_Cooper_poolEmpty :
    coopUse drained 63 + poolSize (coopPool 64) ≤ fld drained (Reg.coopQuota 63) 0 15 * 1024 ∧
      firstFree (coopPool 64) 0 ((drained.cc.held.filter fun e => decide (e.2.pool = coopPool 64)).map (·.1)) = none ∧ alive drained = true := by
  decide +kernel

def loadPl : List Byte := bs [3, 0, 0xFC, 0x7F, 0x13, 0, 0, 0]
def startPl : List Byte := bs [3, 0, 0, 0] ++ toLe 4 0x7_8000 ++ toLe 4 0x7_8100 ++ toLe 4 0x7_F000 ++ toLe 4 0x8_0000 ++ toLe 4 0 ++ zeros 64
def stopPl : List Byte := bs [3, 1] ++ zeros 86

theorem witness_GuestSlots :
    Fits 14 0x901 0 loadPl ∧ le loadPl 2 2 = slotSize - 4 ∧ slotFree (sv 14 0x901 0 loadPl) 3 = true ∧
      (coreOf (sv 14 0x901 0 loadPl) 3).retained = false ∧ (coreOf (sv 14 0x902 0 startPl) 3).stopped = false ∧ (coreOf (r31 0 []) 3).stopped = false ∧
      Fits 14 0x902 0 startPl ∧ startPl.length = 88 ∧ stopBit (cmd 0x902 0 startPl) = false ∧ guestPayloadOk startPl = true ∧
      badRgn startPl = none ∧ guestVecOk 3 startPl = true ∧ slotFree (sv 14 0x902 0 startPl) 3 = true ∧
      Fits 14 0x902 0 stopPl (r31 0 []) ∧ stopPl.length = 88 ∧ stopBit (cmd 0x902 0 stopPl) = true ∧
      isState (r31 0 []) (28 + 3) .off = false ∧ isState (r31 0 []) (28 + 3) .stalled = false := by decide +kernel

/-! ## The cellar, guards and output stages -/

def seg (s : Segment) (d : Dev := up) : Dev := d.onBuf fun b => { b with segs := [(segKey 15 4094, s)] }
def full4 : Segment := { written := 0, laid := 4096 }
def oneRack : Segment := { racks := [{ stack := 3, rack := 0, seq := 0 }] }

/-- A copy of frame 0 on its way from port 511 to port 511's tile in class 6. -/
def cp : Copy := { frame := 0, tile := 15, port := 511, cls := 6, cells := 1, part := .shared, tenant := 0 }
def inBuf (x : Frame) (c : Copy) (d : Dev := lit) : Dev := d.onBuf fun b => { b with frames := [(0, x)], copies := [(0, c)], nextFrame := 1, nextCopy := 1 }

/-- A staged copy that a full rack holds; the stacks' controllers run or not. -/
def staged4 (run : List Nat) : Dev :=
  (seg { full4 with recs := [{ copy := 0, len := 4096, packed := false, start := 0 }] } (inBuf frm { cp with loc := .staging })).onBuf fun b =>
    { b with running := run }

theorem witness_Cellar_racks :
    rackReady (staged4 []) 15 4094 = true ∧ tileInTurn (staged4 []) 15 (staged4 []).buf.rackTile (rackReady (staged4 [])) = true ∧
      inTurn (staged4 []) 15 4094 (tget 0 (staged4 []).buf.rackVoq 15) (rackReady (staged4 []) 15) = true ∧
      nextStack (layOut (staged4 []) 15 4094) 15 = some 0 ∧ 0 ∉ (staged4 []).buf.running ∧ 0 ∈ (staged4 [0]).buf.running ∧
      { copy := 0, len := 4096, packed := false, start := 0 } ∈ (segOf (layOut (staged4 []) 15 4094) 15 4094).recs ∧
      0 + 4096 ≤ (segOf (layOut (staged4 []) 15 4094) 15 4094).written + 4096 ∧
      copyOf (layOut (staged4 []) 15 4094) 0 = some { cp with loc := .staging } ∧ { cp with loc := .staging }.voq = 4094 ∧
      tileInTurn (seg oneRack) 15 (seg oneRack).buf.refillTile (wantsRack (seg oneRack)) = true ∧
      tget [] (up.onBuf fun b => { b with rackQ := [(3, [(0, 0)])] }).buf.rackQ 3 ≠ [] ∧ rackReady (seg full4) 15 4094 = true ∧ inTurn (seg full4) 15 4094 (tget 0 (seg full4).buf.rackVoq 15) (rackReady (seg full4) 15) = true ∧
      nextStack (seg full4) 15 = some 0 ∧ nextStack ((seg full4).onBuf fun b => { b with failed := [0, 1, 2, 3] }) 15 = none ∧
      rackReady ((seg full4).onBuf fun b => { b with failed := [0, 1, 2, 3] }) 15 4094 = true ∧
      spilled (seg oneRack) 15 4094 = true ∧ wantsRack (seg oneRack) 15 4094 = true ∧
      inTurn (seg oneRack) 15 4094 (tget 0 (seg oneRack).buf.refillVoq 15) (wantsRack (seg oneRack) 15) = true ∧
      nextRack (seg oneRack) 15 4094 = some { stack := 3, rack := 0, seq := 0 } := by decide +kernel

/-- Table 05-5 by hand: rack 5 of stack 2 follows, tile 15, VOQ 4,094, the first of 3 records begins at byte 7. -/
theorem test_rackDesc_fields :
    let k : Rack := { stack := 3, rack := 0, seq := 8, firstRec := some 7, recCount := 3 }
    rackDesc { racks := [k, { stack := 2, rack := 5, seq := 9 }] } 15 4094 k =
      [5, 0, 0, 3, 0xEF, 0xFF, 0, 0, 7, 0x70, 0, 0, 0, 0, 0, 0, 8, 0, 0, 0] ++ zeros 12 := by decide +kernel

def back : Dev :=
  seg { recs := [{ copy := 0, len := 4096, packed := false, start := 0 }], racks := [{ stack := 3, rack := 0, seq := 0, asked := true }] }
    (inBuf frm { cp with loc := .cellar })

theorem witness_Cellar_refill :
    spilled back 15 4094 = true ∧ (segOf back 15 4094).recs = [{ copy := 0, len := 4096, packed := false, start := 0 }] ∧
      (segOf back 15 4094).racks = [{ stack := 3, rack := 0, seq := 0, asked := true }] ∧ 0 + 4096 ≤ 4096 * (0 + 1) ∧
      risingFrom 0 back.buf.copies = true ∧ copyOf back 0 = some { cp with loc := .cellar } ∧ { cp with loc := .cellar }.voq = 4094 ∧
      (∀ e ∈ back.buf.copies, e.2.tile = 15 ∧ e.2.voq = 4094 ∧ e.2.loc = .cellar → e.1 = 0) ∧
      voqDepth back 15 4094 + cp.cells ≤ rd back (Reg.tile 15 + Reg.spillCfg (4094 % 8)) % 65536 ∧
      frameOf back 0 = some frm ∧ lossless back frm.inPort 6 = false ∧
      fcsGood (copyBytes back { cp with loc := .cellar }) = true ∧ ([] : List Nat).contains 0 = false ∧ [0].contains 0 = true ∧
      racksUsed (up.onBuf fun b => { b with usedRacks := [] }) 3 = [] ∧ racksUsed (back.onBuf fun b => { b with usedRacks := [(3, [0])] }) 3 ≠ [] := by
  decide +kernel

/-- Stream 4,095 on port 511, and a TC7 frame of it; a device whose guards hold the configuration. -/
def st7 : Stream :=
  { inPort := 511, da := 0x001122334455, vid := 1, maxLen := 64, budget := 1, cycle := 1000, opn := 0, cls := 1000, egress := [some 511] }
def frm7 : Frame := { frm with cls := 7, tailIn := true }
def safeDev (s : Stream) : Dev :=
  (reg (inBuf frm7 cp) [(Reg.safeSts, 2 ^ 17 + 0x8C)]).onSafe fun a => { a with guards := [(1, { banks := { new := { a.cfg with streams := [(4095, s)] } } })] }

theorem witness_GuardsDecideFrames :
    frameOf (safeDev st7) 0 = some frm7 ∧ frm7.keyed = false ∧ frm7.dead = false ∧ guardDecides (safeDev st7) 0 = true ∧
      guardDecides (safeDev st7) 1 = true ∧ decided (safeDev st7) 0 0 = false ∧ decided (safeDev st7) 1 0 = false ∧
      (guardCfg (safeDev st7) 1 0).streams = [(4095, st7)] ∧ frm7.sentTo = [] ∧ { frm7 with sentTo := [511] }.sentTo = [511] ∧ st7.inPort = frm7.inPort ∧ st7.da = be frm7.bytes 0 6 ∧ st7.vid = frm7.vid ∧
      frm7.len ≤ st7.maxLen ∧ windowOf frm7.arrivalExt st7.baseExt st7.cycle st7.opn st7.cls st7.tol = 0 ∧ 1 ≤ st7.budget ∧
      st7.rtag = false ∧ tfind (guardOf (safeDev st7) 1).windows 4095 = none ∧ claim (safeDev st7) 1 ≠ 0 ∧
      portDead (safeDev st7) 511 = false := by decide +kernel

theorem witness_Guards_otherFrames :
    (guardCfg (safeDev { st7 with inPort := 0 }) 1 0).streams.find?
        (fun e => decide (e.2.inPort = frm7.inPort ∧ e.2.da = be frm7.bytes 0 6 ∧ e.2.vid = frm7.vid)) = none ∧
      (guardCfg (safeDev { st7 with inPort := 0 }) 1 0).streams.find? (fun e => decide (e.2.da = be frm7.bytes 0 6 ∧ e.2.vid = frm7.vid)) =
        some (4095, { st7 with inPort := 0 }) ∧
      (guardCfg (safeDev { st7 with vid := 2 }) 1 0).streams.find? (fun e => decide (e.2.da = be frm7.bytes 0 6 ∧ e.2.vid = frm7.vid)) = none ∧
      claim (reg (safeDev st7) [(Reg.safeSts, 2 ^ 17)]) 1 = 0 := by decide +kernel

/-- The guards' words for frame 0, whose copy has landed at the output stage; claims in `SAFE_STS`. -/
def word : DecWord := decWord (safeDev st7) 1 4095 st7 frm7 true
def cp7 : Copy := { cp with cls := 7, part := .tc7, loc := .landed, landed := 1 }
def staged7 (claims : Nat) (v w : Option DecWord) : Dev :=
  let g := fun x : Option DecWord => ({ words := (x.map fun y => (0, y)).toList } : Guard)
  (reg (inBuf frm7 cp7) [(Reg.safeSts, 2 ^ 17 + claims)]).onSafe fun s => { s with guards := [(0, g v), (1, g w)] }

theorem witness_OutputStagesArbitrate :
    atStage (staged7 0x8C (some word) (some word)) 0 = some (cp7, frm7) ∧ claim (staged7 0x8C (some word) (some word)) 0 = 12 ∧
      claim (staged7 0x8C (some word) (some word)) 1 = 8 ∧ wordAt (staged7 0x8C (some word) (some word)) 0 0 511 = some word ∧
      wordAt (staged7 0x8C (some word) (some word)) 1 0 511 = some word ∧ word.ports.contains 511 = true ∧ word.forward = true ∧
      word.queue = 7 ∧ word.digest = frameDigest word.stream frm7 := by decide +kernel

theorem witness_OutputStages_more :
    claim (staged7 0x0C (some word) none) 1 = 0 ∧ wordAt (staged7 0x0C (some word) none) 0 0 511 = some word ∧
      word ≠ { word with tagged := 1 } ∧ wordAt (staged7 0x8C (some word) (some { word with tagged := 1 })) 1 0 511 = some { word with tagged := 1 } ∧
      claim (staged7 0 none none) 0 = 0 ∧ claim (staged7 0 none none) 1 = 0 ∧ claim (staged7 0x88 none none) 0 = claim (staged7 0x88 none none) 1 ∧
      claim (staged7 0x88 none none) 0 ≠ 0 ∧ wordAt (staged7 0x8C (some word) none) 1 0 511 = none ∧
      atStage (staged7 0 none none) 0 = some (cp7, frm7) := by decide +kernel

/-- Both words are there, guard 1's 200 ns after the frame and guard 0's word. -/
def late7 : Dev :=
  (staged7 0x8C (some word) (some word)).onSafe fun s => { s with guards := s.guards.map fun g => (g.1, { g.2 with wordAt := [(0, 200000 * g.1)] }) }

theorem witness_OutputStages_times :
    wordInTime (staged7 0x8C (some word) (some word)) 0 cp7 = some word ∧ wordInTime (staged7 0x8C (some word) (some word)) 1 cp7 = some word ∧
      wordInTime (staged7 0x0C (some word) none) 0 cp7 = some word ∧
      wordInTime (staged7 0x8C (some word) (some { word with tagged := 1 })) 1 cp7 = some { word with tagged := 1 } ∧
      wordInTime (staged7 0x80 none (some word)) 1 cp7 = some word ∧ claim (staged7 0x80 none (some word)) 1 = 8 ∧
      claim (staged7 0x80 none (some word)) 0 = 0 ∧ sentLast (staged7 0x80 none (some word)) 511 word.stream frm7 = false ∧
      sentLast ((staged7 0x80 none (some word)).onSafe fun s => { s with lastSent := [(sentKey 511 4095, frm7.arrival)] }) 511 word.stream frm7 =
        true ∧
      atStage late7 0 = some (cp7, frm7) ∧ claim late7 0 = 12 ∧ claim late7 1 = 8 ∧ wordAt late7 0 0 511 = some word ∧
      wordAt late7 1 0 511 = some word ∧
      max cp7.landedAt (tget 0 (guardOf late7 0).wordAt 0) + 100000 < tget 0 (guardOf late7 1).wordAt 0 ∧ wordInTime late7 1 cp7 = none := by
  decide +kernel

/-! ## Trellis and egress -/

def grant : Grant := { src := 127, dst := 127, pass := .tc7, ready := 0 }
def waiting7 : Dev := (inBuf frm7 { cp with cls := 7, part := .tc7 }).onTrl fun t => { t with matching := [[grant], [], [], [], []] }
def landing : Dev := (inBuf frm { cp with loc := .crossing, sent := 1 }).onTrl fun t => { t with flight := [{ src := 127, dst := 127, pieces := [{ copy := 0, frame := 0, mirror := false, first := 0, cells := 1, bytes := 64 }] }] }

theorem witness_Slots_inPlace : InPlace waiting7 ∧ InPlace landing := by unfold InPlace; decide +kernel

theorem witness_SlotsSendBunchesThatLand :
    alive waiting7 = true ∧ waiting7.trl.matching.head? = some [grant] ∧ waiting7.trl.matching.length ≤ 5 ∧ waiting7.buf.copies = [(0, { cp with cls := 7, part := .tc7 })] ∧
      portDead waiting7 511 = false ∧ frameOf waiting7 0 = some frm7 ∧ frm7.fcsOk = true ∧ grant.src < 128 ∧ grant.src / 8 = 15 ∧
      grant.dst / 8 = tileOf 511 ∧ fitCells 32 0 1 (heldLen waiting7 { cp with cls := 7, part := .tc7 }) 0 0 0 = (1, 1, 64) ∧ up.trl.matching.length ≤ 5 ∧
      landing.trl.flight.find? (fun q => decide (q.dst / 8 = 15)) = some { src := 127, dst := 127, pieces := [{ copy := 0, frame := 0, mirror := false, first := 0, cells := 1, bytes := 64 }] } ∧
      copyOf landing 0 = some { cp with loc := .crossing, sent := 1 } ∧ cp.part ≠ .tc7 ∧
      0 < 0 + 1 ∧ { cp with loc := .crossing }.landed = 0 := by decide +kernel

/-- The same bunch holds a TC7 piece of a copy of n cells, all in tile 15's TC7 pool but the last; or its copy is gone. -/
def landing7 (n : Nat) : Dev :=
  (inBuf frm7 { cp with cls := 7, part := .tc7, loc := .crossing, cells := n, sent := n, landed := n - 1 }).onTrl fun t =>
    { t with flight := [{ src := 127, dst := 127, pieces := [{ copy := 0, frame := 0, mirror := false, first := n - 1, cells := 1, bytes := 64 }] }] }

theorem witness_Slots_landings :
    tc7Use (landing7 2047) 15 + 1 = 2048 ∧ 2048 < tc7Use (landing7 2048) 15 + 1 ∧ InPlace (landing7 2048) ∧
      ((landing7 1).onBuf fun b => { b with copies := [] }).trl.flight.find? (fun q => decide (q.dst / 8 = 15)) = (landing7 1).trl.flight.head? ∧
      (copyOf ((landing7 1).onBuf fun b => { b with copies := [] }) 0).isNone = true ∧ 0 ≤ 0 ∧ 0 < 0 + 1 := by
  unfold InPlace; decide +kernel

def landed : Copy := { cp with loc := .landed, sent := 1, landed := 1 }

theorem witness_Boundaries_join :
    copyOf (inBuf frm landed) 0 = some landed ∧ canJoin (inBuf frm landed) landed = true ∧ firstLeft (inBuf frm landed) 0 landed = true ∧
      portDead (inBuf frm landed) 511 = false ∧ (egrOf (inBuf frm landed) 511).preempt = none := by decide +kernel

def atPort (f : EgrPort → EgrPort) (d : Dev := lit) : Dev := setEgr d 511 f

theorem witness_Boundaries_control :
    portDead (atPort (fun e => { e with tele := [63] }) (teleDev (tele63 (zeros 256)))) 511 = false ∧
      (egrOf (atPort (fun e => { e with tele := [63] }) (teleDev (tele63 (zeros 256)))) 511).express = none ∧
      (egrOf (atPort (fun e => { e with tele := [63] }) (teleDev (tele63 (zeros 256)))) 511).tele = [63] ∧
      (egrOf (atPort fun e => { e with ctl := [.respond] }) 511).express = none ∧ (egrOf (atPort fun e => { e with ctl := [.respond] }) 511).preempt = none ∧
      gateDue lit 511 = none ∧
      (egrOf (atPort fun e => { e with ctl := [.respond] }) 511).ctl = [.respond] ∧
      (egrOf (atPort fun e => { e with ctl := [.pfc 127 65535] }) 511).ctl = [.pfc 127 65535] ∧
      (∀ k < 8, queueOf (atPort fun e => { e with ctl := [.respond] }) 511 k = []) ∧ portCounts lit 511 = true := by decide +kernel

def cp5 : Copy := { cp with cls := 5, loc := .queued, sent := 1, landed := 1 }
def queued5 : Dev := atPort (fun e => { e with queues := [(5, [0])] }) (inBuf { frm with cls := 5, tailIn := true } cp5)

/-- A TC7 frame and a respond frame wait together; then a control frame beside a frame of TC5; then TC6 and TC5. -/
def claims7 : Dev := reg lit [(Reg.safeSts, 2 ^ 17 + 0x8C), (Reg.port 511 + Reg.pSts, 47)]
def word7 : DecWord := { word with due := stampExt claims7 511 true }
def q7 : Copy := { cp7 with loc := .queued, accepted := some (word7, word7) }
def queued7 : Dev := atPort (fun e => { e with ctl := [.respond], queues := [(7, [0])] }) (inBuf frm7 q7 claims7)
def both56 : Dev :=
  atPort (fun e => { e with queues := [(6, [0]), (5, [1])] })
    ((inBuf { frm with cls := 6, tailIn := true } { cp with loc := .queued, sent := 1, landed := 1 }).onBuf fun b =>
      { b with copies := b.copies ++ [(1, { cp5 with frame := 1 })], frames := b.frames ++ [(1, { frm with cls := 5, tailIn := true })] })

theorem queued7_inTime : tooLate q7 (stampExt queued7 511 true) = false := by
  have h : stampExt queued7 511 true = stampExt claims7 511 true := rfl
  have s (x : Nat) : diff32 x x = 0 := by
    have : sub32 x x = 0 := by unfold sub32 two32; omega
    rw [diff32, this]; decide
  simp [tooLate, q7, word7, h, s]

theorem queued7_stands : copyOf queued7 0 = some q7 := rfl

theorem queued7_starts : headDiscard queued7 511 0 q7 frm7 = none := by
  have h : portDead queued7 511 = false := by decide +kernel
  have u : tfind queued7.safe.lastSent (sentKey 511 ((q7.accepted.map (·.1.stream)).getD 0)) = none := rfl
  have c : q7.cls = 7 := rfl
  simp [headDiscard, sentLast, h, c, u, queued7_inTime]

/-- TC5 and TC4 wait with their tags; and a frame of TC5 of 300 bytes is on the preemptable MAC while a TC7 frame waits. -/
def tagged45 : Dev :=
  atPort (fun e => { e with queues := [(5, [0]), (4, [1])], head := [(5, 0), (4, 1)], fin := [(5, 10), (4, 11)] })
    ((inBuf { frm with cls := 5, tailIn := true } cp5).onBuf fun b =>
      { b with copies := b.copies ++ [(1, { cp5 with cls := 4, frame := 1 })], frames := b.frames ++ [(1, { frm with cls := 4, tailIn := true })] })
def cut5 : Copy := { cp5 with frame := 1, cells := 5, sent := 5, landed := 5, loc := .sending, bytes := some (zeros 300) }
def cutting7 : Dev :=
  setEgr (queued7.onBuf fun b => { b with copies := b.copies ++ [(1, cut5)], frames := b.frames ++ [(1, { frm with cls := 5, len := 300 })] })
    511 fun e => { e with preempt := some 1 }

theorem cutting7_starts : headDiscard cutting7 511 0 q7 frm7 = none := by
  have h : portDead cutting7 511 = false := by decide +kernel
  have u : tfind cutting7.safe.lastSent (sentKey 511 ((q7.accepted.map (·.1.stream)).getD 0)) = none := rfl
  have c : q7.cls = 7 := rfl
  have t : tooLate q7 (stampExt cutting7 511 true) = false := queued7_inTime
  simp [headDiscard, sentLast, h, c, u, t]

theorem cutting7_stands : copyOf cutting7 0 = some q7 ∧ frameOf cutting7 q7.frame = some frm7 ∧ copyOf cutting7 1 = some cut5 := ⟨rfl, rfl, rfl⟩

theorem witness_Boundaries_preempt :
    (egrOf cutting7 511).express = none ∧ (egrOf cutting7 511).preempt = some 1 ∧ gateDue cutting7 511 = none ∧ (egrOf cutting7 511).tele = [] ∧
      mmActive cutting7 511 = true ∧ 64 + minFrag cutting7 511 + cut5.fragBytes ≤ (copyBytes cutting7 cut5).length ∧
      queueOf cutting7 511 7 = [0] ∧ portCounts cutting7 511 = true ∧ portDead cutting7 511 = false := by decide +kernel

theorem witness_Boundaries_weighted :
    mmActive tagged45 511 = false ∧ eligible tagged45 511 6 = false ∧ (∀ k < 4, eligible tagged45 511 k = false) ∧
      eligible tagged45 511 5 = true ∧ eligible tagged45 511 4 = true ∧ tfind (egrOf tagged45 511).head 5 = (queueOf tagged45 511 5).head? ∧
      ¬signed 48 (11 + 2 ^ 48 - 10) < 0 ∧ ¬signed 48 (10 + 2 ^ 48 - 10) < 0 ∧
      (headDiscard tagged45 511 0 cp5 { frm with cls := 5, tailIn := true }).isNone = true ∧ queueOf tagged45 511 7 = [] ∧
      tagged45.tel.mirrors = [] := by decide +kernel

theorem witness_Boundaries_order :
    (egrOf queued7 511).tele = [] ∧ queueOf queued7 511 7 = [0] ∧ q7.mirror = none ∧
      frameOf queued7 0 = some frm7 ∧ frm7.parse.ptpOff = none ∧ frm7.inject = none ∧
      (egrOf queued7 511).ctl = [.respond] ∧ gateDue queued7 511 = none ∧ portDead queued7 511 = false ∧
      queueOf (setEgr queued5 511 fun e => { e with ctl := [.respond] }) 511 7 = [] ∧
      queueOf (setEgr queued5 511 fun e => { e with ctl := [.respond] }) 511 5 = [0] ∧
      eligible both56 511 6 = true ∧ eligible both56 511 5 = true ∧ preemptable both56 511 6 = mmActive both56 511 ∧
      headDiscard both56 511 0 { cp with loc := .queued, sent := 1, landed := 1 } { frm with cls := 6, tailIn := true } = none ∧ q7.cls = 7 := by decide +kernel

theorem witness_Boundaries_start :
    (egrOf queued5 511).tele = [] ∧ (egrOf queued5 511).ctl = [] ∧ mmActive queued5 511 = false ∧ queueOf queued5 511 5 = [0] ∧
      (∀ k < 8, k ≠ 5 → queueOf queued5 511 k = []) ∧ (∀ k < 7, k ≠ 5 → eligible queued5 511 k = false) ∧ eligible queued5 511 5 = true ∧ copyOf queued5 0 = some cp5 ∧ cp5.mirror = none ∧
      (headDiscard queued5 511 0 cp5 { frm with cls := 5, tailIn := true }).isNone = true ∧ frm.parse.ptpOff = none ∧
      queued5.tel.mirrors = [] := by decide +kernel

def sending : Dev := atPort (fun e => { e with express := some 0 }) (inBuf { frm with tailIn := true } { cp with loc := .sending, sent := 1, landed := 1 })
/-- The frame in transmission is a PAUSE frame. -/
def pausing : Dev :=
  atPort (fun e => { e with express := some 0 })
    (inBuf { frm with bytes := pauseIn, tailIn := true } { cp with loc := .sending, sent := 1, landed := 1 })

theorem witness_Boundaries_pause :
    macControl (copyBytes pausing { cp with loc := .sending, sent := 1, landed := 1 }) = 1 ∧
      macControl (copyBytes sending { cp with loc := .sending, sent := 1, landed := 1 }) = 0 ∧
      canEnd pausing { cp with loc := .sending, sent := 1, landed := 1 } = true := by decide +kernel

def held5 : Dev :=
  atPort (fun e => { e with preempt := some 0 }) (inBuf frm { cp5 with loc := .preempted } (reg lit [(Reg.port 511 + Reg.pSts, 47)]))

theorem witness_Boundaries_endAndResume :
    (egrOf sending 511).express = some 0 ∧ portDead sending 511 = false ∧ (∀ k ∈ sending.buf.copies, k.2.lifeline = false) ∧
      copyOf sending 0 = some { cp with loc := .sending, sent := 1, landed := 1 } ∧ canEnd sending { cp with loc := .sending, sent := 1, landed := 1 } = true ∧
      cp.corked = false ∧ cp.holes = [] ∧ (egrOf sending 511).tele = [] ∧ (egrOf sending 511).ctl = [] ∧ portCounts sending 511 = true ∧ (egrOf held5 511).preempt = some 0 ∧ portDead held5 511 = false ∧ mmActive held5 511 = true ∧
      copyOf held5 0 = some { cp5 with loc := .preempted } ∧ bit (gatesAt (egrOf held5 511) (extTime held5)).1.gates 5 = true ∧
      flag held5 (stsAddr 511) 8 = false ∧ expressWaits held5 511 = false ∧ restFits held5 511 { cp5 with loc := .preempted } = true ∧
      gateDue held5 511 = none := by decide +kernel

/-! ## Parity and audits -/

def l2a : Nat := Reg.portL2Cfg 511
def badPar : Dev := { (reg up [(Reg.parHist 15, l2a)]) with host := { up.host with parBad := [l2a], parQ := [(42, [l2a])] } }

theorem witness_ParityFaults :
    l2a < 0x4000000 ∧ (Reg.kind l2a = some .cfg ∨ Reg.kind l2a = some .mcfg) ∧ alive up = true ∧ l2a ∉ up.host.parBad ∧
      ¬(0x30_0000 ≤ l2a ∧ l2a < 0x40_0000) ∧ (tget [] up.host.parQ (parIsland up l2a).1).length < 4 ∧
      4 ≤ (tget [] { up with host := { up.host with parQ := [((parIsland up l2a).1, [0, 0, 0, 0])] } }.host.parQ (parIsland up l2a).1).length ∧
      tget [] badPar.host.parQ 42 = [l2a] ∧ l2a ∈ badPar.host.parBad ∧ Reg.hostWritten l2a = false ∧ rd badPar (Reg.parHist 15) = l2a := by
  decide +kernel

def aged (ns : Nat) : Dev := { (reg (inBuf frm cp) [(Reg.tsuNs, ns)]) with now := 10 * ps_ms }

theorem witness_Audits_inPlace : InPlace (aged 0) ∧ InPlace (up.onBuf fun b => { b with running := [3] }) := by
  unfold InPlace; decide +kernel

theorem witness_AuditPasses :
    alive (aged 0) = true ∧ (aged 0).boot.releasedAt + ((aged 0).buf.overPass + 1) * (10 * ps_ms) ≤ (aged 0).now ∧
      (aged 0).buf.copies = [(0, cp)] ∧ (waitKey cp).isSome = true ∧ cp.tile < 16 ∧ overAge (aged 100000001) 15 cp = true ∧
      overAge (aged 100000000) 15 cp = false ∧ linksFound (aged 0) (joinLinks [(49151, [0])] []) ≠ [] ∧
      linksFound (aged 0) (joinLinks [] []) = [] ∧ (∀ c ∈ [49151], c < 49152) ∧ (∀ c ∈ [4161535], c < 4161536) ∧
      3 ∈ (up.onBuf fun b => { b with running := [3] }).buf.running := by decide +kernel

/-! ## Telemetry and the black box -/

theorem witness_SnapshotsTotalsAndLogs :
    Fits 14 0x701 0 [] ∧ tfind (sv 14 0x701 0 []).tel.snapWait 14 = none ∧ snapBusy (reg up [(Reg.snapSts, 1)]) = true ∧ snapMerges up = false ∧
      snapMerges (reg up [(Reg.snapSts, 1)]) = true ∧
      (reg up [(Reg.snapSts, 1)]).tel.shot = none ∧
      (up.onTel fun t => { t with shot := some ([], [], 5), snapWait := [(14, 1)] }).tel.shot = some ([], [], 5) ∧
      (rd up Reg.snapSeq + 1) % two32 = 1 ∧ rd (reg up [(Reg.snapSeq, 1)]) Reg.totalsSnap ≠ rd (reg up [(Reg.snapSeq, 1)]) Reg.snapSeq ∧
      sub32 (rd (reg up [(Reg.tile 15 + Reg.tasteEvc, 1)]) (Reg.tile 15 + Reg.tasteEvc)) (rd (reg up [(Reg.tile 15 + Reg.tasteEvc, 1)]) (Reg.tile 15 + Reg.tasteAck)) = 1 ∧
      bits (tsuNs (reg up [(Reg.tsuNs, 2 ^ 27)])) 27 5 ≠ up.fwd.hhWindow := by decide +kernel

def mirPl : List Byte := bs [15, 1, 2, 6] ++ zeros 68 ++ toLe 2 511 ++ toLe 2 64 ++ zeros 36
def bbPl : List Byte := bs [0, 0, 0, 0] ++ toLe 4 1 ++ toLe 2 511 ++ bs [0, 0]
def rec1 : BbRec := { seq := 1, ns := 0, cal := 0, island := 42, code := 1, args := zeros 16 }
def bbDev : Dev := up.onTel fun t => { t with ring := [(1, rec1)], bbQ := [(42, [(1, [])])], trigDue := [1, 7], heldTrig := [(2, 8), (3, 9)] }

theorem witness_MirrorsAndTheBlackBox :
    Fits 14 0x702 0 mirPl lit ∧ mirPl.length = 112 ∧ mirrorOk (sv 14 0x702 0 mirPl lit) mirPl = true ∧
      Fits 14 0x703 0 bbPl bbDev ∧ bbPl.length = 12 ∧ le bbPl 4 4 = 1 ∧ le bbPl 8 2 = 511 ∧ (ringRec bbDev 1).isSome = true ∧
      hkOn bbDev = true ∧ tget [] bbDev.tel.bbQ 42 = [(1, [])] ∧ tget [] up.tel.bbQ 42 = [] ∧ 7 ∈ bbDev.tel.trigDue ∧ 1 ∈ bbDev.tel.trigDue ∧
      bbDev.tel.copy = none ∧ (bbDev.onTel fun t => { t with copy := some (2, 0) }).tel.copy = some (2, 0) ∧
      bbDev.tel.heldTrig.getLast? = some (3, 9) ∧ up.tel.heldTrig = [] := by decide +kernel

/-! ## Health and beacons -/

def inPhase (p : Phase) (b : Boot := {}) : Dev := { boot := { b with phase := p } }

def beaconing : Dev := { lit with host := { lit.host with cfg := [{ ty := 24, idx := 0, val := bs [0, 0, 0, 0, 1] }] } }
def beaconIn : Frame := { frm with bytes := eth 0x0180C200000E 0x020000000001 0x88B5 (bs [1, 0]) }
def beaconQ : Dev := { up with host := { up.host with trapQ := [(7, [{ frame := beaconIn, cause := 5, since := 0, buf := 0 }])] } }

theorem witness_HealthAndPeers :
    (List.replicate 37 95).length = 37 ∧ (∀ x ∈ List.replicate 37 95, x ≤ 150) ∧ (List.replicate 37 94).foldl max 0 < 95 ∧
      95 ≤ (List.replicate 37 99).foldl max 0 ∧ (List.replicate 37 99).foldl max 0 < 100 ∧ 108 ≤ (List.replicate 37 108).foldl max 0 ∧
      up.health.steps = [] ∧ up.health.excluded = [] ∧ Fits 14 0x801 0 (bs [1, 0, 0, 0]) ∧ plan.wf = true ∧ up.boot.phase = .full ∧
      hkOn (inPhase .reset) = true ∧ be (eth 0x0180C200000E 0x020000000001 0x88B5 (bs [2, 0])) 14 1 ≠ 1 ∧
      tget 0 beaconing.health.beaconAt 511 < beaconDue beaconing 511 ∧ beaconsOn beaconing = true ∧ portDead beaconing 511 = false ∧
      voqPart beaconing (tileOf 511) (8 * 511 + 6) .reservation < bits (classCfg beaconing (tileOf 511) 6) 4 8 ∧ trapRing beaconQ 7 = none ∧ be beaconIn.bytes 14 1 = 1 ∧
      beaconIn.inPort = 511 ∧ (up.onHealth fun h => { h with bridge := [{ mac := 1, port := 7, seen := 0 }] }).health.bridge ≠ [] := by
  decide +kernel

/-! ## Supplies, resets and bring-up -/

/-- A report departs, the readback itself noted. -/
def seen (d : Dev) (clock : Bool) (n mv : Nat) (fails : Bool) : Bool := departs (noteReadback d clock n mv fails) clock n mv fails

theorem witness_SuppliesAndResets :
    { ({} : Dev) with pins := { vstby := false } }.pins.vstby = false ∧ up.pins.vstby = true ∧ (inPhase .standby).boot.phase = .standby ∧
      hkOn up = true ∧ { up with pins := { up.pins with pwrFailN := false } }.pins.pwrFailN = false ∧ up.tel.copy = none ∧ up.pins.resetN = true ∧
      hkOn State.reset.dev = true ∧ State.reset.dev.pins.resetN = false ∧ State.reset.dev.boot.monitor = false ∧ up.pins.pwrFailN = true ∧
      { up with boot := { up.boot with monitor := true } }.boot.monitor = true ∧ 42 ≠ 38 ∧ 42 ≠ 39 ∧ 10 < 11 ∧ fallUnserved up = false ∧
      seen up true 42 0 false = true ∧ seen up false 10 0 false = true ∧ seen up false 10 3000 false = false ∧
      seen up false 0 746 false = true ∧ seen up false 0 745 false = false ∧ seen up false 0 694 false = true ∧
      seen (reg up [(Reg.avsVout, 740)]) false 0 746 false = false ∧ seen up false 0 0 true = false ∧
      seen (up.onHealth fun h => { h with avsFails := 2 }) false 0 0 true = true ∧ up.safe.loaded = false ∧
      { up with boot := { up.boot with monitor := true } }.boot.invalid = [] := by decide +kernel

/-- R796: `VDD_HK` alone releases nothing; the report that leaves no rail invalid starts the 10 ms. -/
theorem test_rails_become_valid :
    (monitorRelease { vddHkUp (inPhase .standby) with pins := { resetN := true } }).boot.monitor = true ∧
      (vddHkUp (inPhase .standby)).boot.invalid = [0, 1, 2, 3, 4, 5, 6, 8, 9] ∧
      (monitorDeparture false 9 3300 false { (inPhase .reset { monitor := true, invalid := [9] }) with now := 77 }).boot.monitorAt = 77 ∧
      (monitorDeparture false 9 0 false (inPhase .full { invalid := [] })).boot.invalid = [9] := by decide +kernel

def starting : Dev := inPhase .lifeline { fwRunning := true, startDone := false }

theorem witness_BringUp :
    (inPhase .lifeline).boot.phase = .lifeline ∧ (inPhase .lifeline).boot.lifeline = false ∧ (inPhase .lifeline).safe.armedHk = false ∧
      (inPhase .lifeline).boot.fwRunning = false ∧ flag (inPhase .lifeline) Reg.hkFault 1 = false ∧ starting.boot.fwRunning = true ∧
      (∀ c < 4, (coreOf (inPhase .lifeline) c).stopped = false) ∧ (∀ n < 28, 1 ≤ n → isState (inPhase .lifeline) n .off = true) ∧
      starting.safe.cfg.teles = [] ∧ starting.fwd.ruleJob = none ∧ selfTestsPassed starting = true ∧
      selfTestsPassed (reg starting [(Reg.guardSts 1, 1)]) = false ∧ owedPorts starting = [] ∧
      owedPorts (reg starting [(Reg.mgmt 1, 9216 * 65536 + 1)]) = [513] ∧ alive (inPhase .quiesced) = true ∧
      (inPhase .quiesced).safe.armedHk = false ∧ starting.boot.startDone = false ∧ guardsStarted starting = false ∧ starting.host.msgs = [] ∧
      (inPhase .lifeline { fwRunning := true, startDone := true }).boot.startDone = true := by decide +kernel

theorem witness_BringUp_startConfig :
    parseRecs startShape 1 [0] 0 = .error 0 ∧ parseRecs startShape 0 [] 0 = .ok [] ∧ (∀ r ∈ ([] : List CfgRec), r.ty ≠ 46) ∧
      ∃ e, startApply starting [] = .ok e :=
  ⟨rfl, rfl, by decide, by
    have h : (match startApply starting [] with
      | .ok _ => true
      | .error _ => false) = true := by decide +kernel
    revert h
    cases startApply starting [] with
    | ok e => intro _; exact ⟨e, rfl⟩
    | error x => intro h; cases h⟩

end Sys2Proof.Tests
end

section
/-! Counters, states and switching of the hardware threads: what each operation of chapter 10 leaves alone (R568 to R574, Table 10-12). -/

namespace Sys2Proof.Machine

open Sys2Proof

variable {d t u : Dev}

/-! ## Threads and cores as parts of the control complex -/

theorem thrOf_setThr (d : Dev) (p q : Nat) (f : Thr → Thr) :
    thrOf (setThr d p f) q = if q = p then f (thrOf d p) else thrOf d q := tget_tmod ..

theorem coreOf_setCore (d : Dev) (p q : Nat) (f : Core → Core) :
    coreOf (setCore d p f) q = if q = p then f (coreOf d p) else coreOf d q := tget_tmod ..

@[simp] theorem thrOf_setCore (d : Dev) (c n : Nat) (f : Core → Core) : thrOf (setCore d c f) n = thrOf d n := rfl
@[simp] theorem coreOf_setThr (d : Dev) (n c : Nat) (f : Thr → Thr) : coreOf (setThr d n f) c = coreOf d c := rfl

theorem setThr_same {x : Piece} (d : Dev) (n : Nat) (f : Thr → Thr) (h : x ≠ .cc) : Same x d (setThr d n f) := by
  cases x <;> simp_all [Same]

theorem setCore_same {x : Piece} (d : Dev) (c : Nat) (f : Core → Core) (h : x ≠ .cc) : Same x d (setCore d c f) := by
  cases x <;> simp_all [Same]

/-! ## Where the performance counters lie (Table 10-12) -/

/-- A register that is no performance counter of a thread that `p` picks. -/
def NoPerf (p : Nat → Prop) (a : Nat) : Prop := ∀ m e, p m → e < 16 → a ≠ Reg.perf m e

theorem noPerf_core (p : Nat → Prop) (c : Nat) {o : Nat} (h : o < 0x1000) : NoPerf p (Reg.core c + o) := by
  intro m e _ he
  simp only [Reg.core, Reg.perf]
  omega

theorem noPerf_thr (p : Nat → Prop) (n : Nat) {o : Nat} (h : o < 0x40) : NoPerf p (Reg.thr n + o) := by
  rw [show Reg.thr n + o = Reg.core (n / 8) + (0x40 * (n % 8) + o) from Nat.add_assoc ..]
  exact noPerf_core p _ (by omega)

theorem NoPerf.anti {p q : Nat → Prop} {a : Nat} (h : NoPerf p a) (hq : ∀ m, q m → p m) : NoPerf q a :=
  fun m e hm he => h m e (hq m hm) he

/-! ## Bookkeeping -/

/-- From d to t nothing but the counters, times and samples of core c's threads moved on. -/
structure Tallied (c : Nat) (d t : Dev) : Prop where
  parts : ∀ x, x ≠ .cc → Same x d t
  state : ∀ m, (thrOf t m).state = (thrOf d m).state
  pc : ∀ m, (thrOf t m).pc = (thrOf d m).pc
  other : ∀ m, coreNum m ≠ c → thrOf t m = thrOf d m
  core : ∀ k, coreOf t k = coreOf d k
  held : t.cc.held = d.cc.held
  reg : ∀ a, NoPerf (coreNum · = c) a → rd t a = rd d a

theorem Tallied.refl (c : Nat) (d : Dev) : Tallied c d d :=
  ⟨fun x _ => Same.refl x d, fun _ => rfl, fun _ => rfl, fun _ _ => rfl, fun _ => rfl, rfl, fun _ _ => rfl⟩

theorem Tallied.trans {c : Nat} (h : Tallied c d t) (g : Tallied c t u) : Tallied c d u where
  parts x hx := Same.trans (h.parts x hx) (g.parts x hx)
  state m := (g.state m).trans (h.state m)
  pc m := (g.pc m).trans (h.pc m)
  other m hm := (g.other m hm).trans (h.other m hm)
  core k := (g.core k).trans (h.core k)
  held := g.held.trans h.held
  reg a ha := (g.reg a ha).trans (h.reg a ha)

theorem Tallied.ite {c : Nat} {p : Prop} [Decidable p] (h : Tallied c d t) (g : Tallied c d u) : Tallied c d (if p then t else u) := by
  split
  · exact h
  · exact g

/-- A change of a thread beside its state and pc. -/
theorem tallied_setThr (d : Dev) (n : Nat) {f : Thr → Thr} (hf : ∀ x, (f x).state = x.state ∧ (f x).pc = x.pc) :
    Tallied (coreNum n) d (setThr d n f) where
  parts _ hx := setThr_same d n f hx
  state m := by rw [thrOf_setThr]; split <;> simp_all
  pc m := by rw [thrOf_setThr]; split <;> simp_all
  other m hm := thrOf_setThr_ne d f fun h => hm (h ▸ rfl)
  core _ := rfl
  held := rfl
  reg _ _ := rfl

theorem tallied_cntAdd (d : Dev) (n : Nat) {e : Nat} (k : Nat) (he : e < 16) : Tallied (coreNum n) d (cntAdd d (Reg.perf n e) k) where
  parts x _ := cntAdd_same d x _ _
  state _ := by simp
  pc _ := by simp
  other _ _ := by simp
  core _ := by simp
  held := by simp
  reg a ha := rd_cntAdd_ne d k (ha n e rfl he)

@[simp] theorem sampleRaise_state (k : Nat) (x : Thr) : (sampleRaise k x).state = x.state := by
  unfold sampleRaise; split <;> [rfl; (split <;> rfl)]

@[simp] theorem sampleRaise_pc (k : Nat) (x : Thr) : (sampleRaise k x).pc = x.pc := by
  unfold sampleRaise; split <;> [rfl; (split <;> rfl)]

/-- A sample's countdown, on its way or run out. -/
theorem countdown_keeps (x : Thr) (k left next again skid : Nat) :
    (if k < left then { x with sampleLeft := next } else sampleRaise skid { x with sampleLeft := again }).state = x.state ∧
      (if k < left then { x with sampleLeft := next } else sampleRaise skid { x with sampleLeft := again }).pc = x.pc := by
  split <;> simp

/-- Occurrences of an event count in its register and move the thread's sample on (R620 to R622). -/
theorem tallied_perfAdd (d : Dev) (n : Nat) {e : Nat} (k : Nat) (he : e < 16) : Tallied (coreNum n) d (perfAdd d n e k) := by
  have skid (e : Dev) (b : Bool) : Tallied (coreNum n) e (if b then setThr e n fun t => { t with skid := t.skid + k } else e) :=
    .ite (tallied_setThr e n fun _ => ⟨rfl, rfl⟩) (.refl _ e)
  unfold perfAdd
  refine (tallied_cntAdd d n k he).trans ((skid _ (e = 1 && (thrOf (cntAdd d (Reg.perf n e) k) n).sampleDue)).trans ?_)
  exact .ite (.refl _ _) (tallied_setThr _ n fun x => countdown_keeps ..)

theorem rd_perfAdd (d : Dev) (n e k a : Nat) : rd (perfAdd d n e k) a = rd (cntAdd d (Reg.perf n e) k) a := by
  unfold perfAdd
  dsimp only
  split <;> split <;> rfl

theorem cycleEvent_lt {x : ThrState} {e : Nat} (h : cycleEvent x = some e) : e < 16 := by
  cases x <;> simp [cycleEvent] at h <;> omega

/-- A thread's cycles are brought up to date. -/
theorem tallied_flushThr (d : Dev) (n : Nat) : Tallied (coreNum n) d (flushThr d n) := by
  unfold flushThr
  dsimp only
  refine (tallied_setThr d n (f := fun t => { t with since := d.now }) fun _ => ⟨rfl, rfl⟩).trans ?_
  split
  · exact .refl _ _
  · split
    · exact tallied_perfAdd _ n _ (cycleEvent_lt (by assumption))
    · exact .refl _ _

/-- The counters read after it depend on registers, time and the control complex alone. -/
theorem rd_flushThr_congr {d e : Dev} (n a : Nat) (hn : e.now = d.now) (hc : e.cc = d.cc) (hr : ∀ b, rd e b = rd d b) :
    rd (flushThr e n) a = rd (flushThr d n) a := by
  have ht : thrOf e n = thrOf d n := by simp only [thrOf, hc]
  have hk : coreOf e (coreNum n) = coreOf d (coreNum n) := by simp only [coreOf, hc]
  have hk' (x : Dev) (f : Thr → Thr) : coreOf (setThr x n f) (coreNum n) = coreOf x (coreNum n) := rfl
  simp only [flushThr, hk', hk, ht, hn]
  split
  · simp [hr]
  · cases cycleEvent (thrOf d n).state <;> simp [rd_perfAdd, rd_cntAdd, hr]

theorem coreNum_slot (c : Nat) {h : Nat} (hh : h < 8) : coreNum (8 * c + h) = c := by unfold coreNum; omega

theorem tallied_flushCore (d : Dev) (c : Nat) : Tallied c d (flushCore d c) := by
  have fold (l : List Nat) (hl : ∀ h ∈ l, h < 8) (d : Dev) : Tallied c d (l.foldl (fun d h => flushThr d (8 * c + h)) d) := by
    induction l generalizing d with
    | nil => exact .refl c d
    | cons h r ih =>
      have first := tallied_flushThr d (8 * c + h)
      rw [coreNum_slot c (hl h (by simp))] at first
      exact first.trans (ih (fun x hx => hl x (by simp [hx])) _)
  exact fold _ (fun h hh => List.mem_range.mp hh) d

/-! ## Switching -/

/-- From d to t only threads' states and bookkeeping and the times of the cores' last switches changed: no clock, scratchpad or held signal,
and no register but performance counters. -/
structure Switched (d t : Dev) : Prop where
  parts : ∀ x, x ≠ .cc → Same x d t
  core : ∀ k, ∃ l i, coreOf t k = { coreOf d k with last := l, idleAt := i }
  reg : ∀ a, NoPerf (fun _ => True) a → rd t a = rd d a

theorem Tallied.switched {c : Nat} (h : Tallied c d t) : Switched d t :=
  ⟨h.parts, fun k => ⟨_, _, h.core k⟩, fun a ha => h.reg a (ha.anti fun _ _ => trivial)⟩

theorem Switched.refl (d : Dev) : Switched d d := (Tallied.refl 0 d).switched

theorem Switched.trans (h : Switched d t) (g : Switched t u) : Switched d u where
  parts x hx := Same.trans (h.parts x hx) (g.parts x hx)
  core k := by
    obtain ⟨l, i, hk⟩ := h.core k
    obtain ⟨l', i', gk⟩ := g.core k
    exact ⟨l', i', by rw [gk, hk]⟩
  reg a ha := (g.reg a ha).trans (h.reg a ha)

theorem Switched.ite {p : Prop} [Decidable p] (h : Switched d t) (g : Switched d u) : Switched d (if p then t else u) := by
  split
  · exact h
  · exact g

theorem Switched.stopped (h : Switched d t) (k : Nat) : (coreOf t k).stopped = (coreOf d k).stopped := by
  obtain ⟨l, i, e⟩ := h.core k; rw [e]

theorem switched_setThr (d : Dev) (n : Nat) (f : Thr → Thr) : Switched d (setThr d n f) :=
  ⟨fun _ hx => setThr_same d n f hx, fun _ => ⟨_, _, rfl⟩, fun _ _ => rfl⟩

theorem switched_setCore (d : Dev) (c : Nat) {f : Core → Core} (hf : ∀ k, ∃ l i, f k = { k with last := l, idleAt := i }) :
    Switched d (setCore d c f) where
  parts _ hx := setCore_same d c f hx
  core k := by
    rw [coreOf_setCore]
    split
    · rename_i h
      rw [h]
      exact hf _
    · exact ⟨_, _, rfl⟩
  reg _ _ := rfl

/-- The times that a change of state notes at its core. -/
theorem switched_setState (d : Dev) (n : Nat) (s : ThrState) : Switched d (setState d n s) := by
  have noted (e : Dev) {f : Core → Core} (b : Bool) (hf : ∀ k, ∃ l i, f k = { k with last := l, idleAt := i }) :
      Switched e (if b then setCore e (coreNum n) f else e) := .ite (switched_setCore e _ hf) (.refl e)
  unfold setState
  exact (tallied_flushThr d n).switched.trans
    ((switched_setThr _ n _).trans ((noted _ _ fun _ => ⟨_, _, rfl⟩).trans (noted _ _ fun _ => ⟨_, _, rfl⟩)))

/-- A change of state is one of the thread named, counted up to then. -/
theorem thrOf_setState (d : Dev) (n m : Nat) (s : ThrState) :
    thrOf (setState d n s) m = if m = n then { thrOf (flushThr d n) n with state := s } else thrOf (flushThr d n) m := by
  unfold setState
  dsimp only
  split <;> split <;> exact thrOf_setThr (flushThr d n) n m fun t => { t with state := s }

theorem setState_state (d : Dev) (n m : Nat) (s : ThrState) :
    (thrOf (setState d n s) m).state = if m = n then s else (thrOf d m).state := by
  rw [thrOf_setState]
  split
  · rfl
  · exact (tallied_flushThr d n).state m

theorem setState_pc (d : Dev) (n m : Nat) (s : ThrState) : (thrOf (setState d n s) m).pc = (thrOf d m).pc := by
  rw [← (tallied_flushThr d n).pc m, thrOf_setState]
  split <;> simp_all

/-- A core switches to a READY thread or stays as it is. -/
theorem dispatch_cases (d : Dev) (c : Nat) : dispatch d c = d ∨
    ∃ n, isState d n .ready = true ∧ dispatch d c = setThr (setState d n .running) n fun t => { t with runAt := d.now } := by
  unfold dispatch
  dsimp only
  split
  · exact .inl rfl
  · split
    · rename_i n hn
      exact .inr ⟨n, by simpa using List.find?_some hn, rfl⟩
    · exact .inl rfl

theorem switched_dispatch (d : Dev) (c : Nat) : Switched d (dispatch d c) := by
  obtain h | ⟨n, -, h⟩ := dispatch_cases d c <;> rw [h]
  · exact .refl d
  · exact (switched_setState d n _).trans (switched_setThr _ n _)

theorem dispatch_pc (d : Dev) (c m : Nat) : (thrOf (dispatch d c) m).pc = (thrOf d m).pc := by
  obtain h | ⟨n, -, h⟩ := dispatch_cases d c <;> rw [h]
  rw [thrOf_setThr]
  split <;> simp_all [setState_pc]

/-- A thread that is READY or RUNNING stays one of the two. -/
theorem dispatch_going (d : Dev) (c : Nat) {m : Nat} (hm : Going d m) : Going (dispatch d c) m := by
  obtain h | ⟨n, -, h⟩ := dispatch_cases d c <;> rw [h]
  · exact hm
  · have hs : (thrOf (setThr (setState d n .running) n fun t => { t with runAt := d.now }) m).state =
        if m = n then .running else (thrOf d m).state := by
      rw [← setState_state d n m .running, thrOf_setThr]
      split <;> simp_all
    unfold Going
    rw [hs]
    split
    · exact .inr rfl
    · exact hm

/-! ## Thread commands (Table 10-3) -/

theorem switched_moveThr (d : Dev) (n : Nat) (s : ThrState) : Switched d (moveThr d n s) :=
  (switched_setState d n s).trans (switched_dispatch _ _)

theorem switched_setX (d : Dev) (n i v : Nat) : Switched d (setX d n i v) := by
  unfold setX
  split
  · exact .refl d
  · exact switched_setThr d n _

theorem switched_startThr (d : Dev) (n : Nat) : Switched d (startThr d n) :=
  (switched_setThr d n _).trans ((switched_setX _ n _ _).trans (switched_moveThr _ n _))

theorem switched_stopThr (d : Dev) (n : Nat) : Switched d (stopThr d n) := by
  unfold stopThr
  split
  · exact .refl d
  · split
    · exact switched_setThr d n _
    · exact switched_moveThr d n _

theorem switched_doCmd (d : Dev) (n : Nat) (c : ThrCmd) : Switched d (doCmd d n c) := by
  cases c with
  | start => exact .ite (switched_startThr d n) (.refl d)
  | stop => exact switched_stopThr d n
  | restart => exact .ite ((switched_setThr d n _).trans (switched_startThr _ n)) (.refl d)

theorem switched_doCmds (d : Dev) (l : List (Nat × ThrCmd)) : Switched d (l.foldl (fun d e => doCmd d e.1 e.2) d) := by
  induction l generalizing d with
  | nil => exact .refl d
  | cons e r ih => exact (switched_doCmd d e.1 e.2).trans (ih _)

theorem startThr_going (d : Dev) (n : Nat) : Going (startThr d n) n := by
  unfold startThr moveThr
  exact dispatch_going _ _ (.inl (by rw [setState_state, if_pos rfl]))

theorem startThr_pc (d : Dev) (n : Nat) : (thrOf (startThr d n) n).pc = BitVec.ofNat 32 (treg d n Reg.tRestartVec) := by
  simp [startThr, moveThr, dispatch_pc, setState_pc, setX]

/-! ## Event bits and reports -/

theorem rd_lt (d : Dev) {a : Nat} (h : Reg.reset a < two32) : rd d a < two32 := by
  unfold rd
  split
  · exact BitVec.isLt _
  · exact h

@[simp] theorem orBits_cc (d : Dev) (n b : Nat) : (orBits d n b).cc = d.cc := rfl

theorem coreOf_orBitsAll (d : Dev) (l : Tab Nat) (c : Nat) : coreOf (l.foldl (fun d e => orBits d e.1 e.2) d) c = coreOf d c := by
  induction l generalizing d with
  | nil => rfl
  | cons e r ih => exact ih _

/-- A post writes no register but an event word (R575, R34). -/
theorem rd_postBits (d : Dev) (n b : Nat) {a : Nat} (h : a ≠ Reg.thr n + Reg.tEvtPend) : rd (postBits d n b) a = rd d a := by
  unfold postBits
  split
  · rfl
  · exact rd_wr_ne d _ h

theorem postBits_region (d : Dev) (n b k : Nat) : (coreOf (postBits d n b) k).region = (coreOf d k).region := by
  unfold postBits
  split
  · simp only [wakeRequest, coreOf_setCore]
    split <;> simp_all
  · rfl

theorem rd_raiseEvt (d : Dev) (s : Nat) {a : Nat} (h : ∀ n, a ≠ Reg.thr n + Reg.tEvtPend) : rd (raiseEvt d s) a = rd d a := by
  unfold raiseEvt
  dsimp only
  split
  · exact rd_postBits d _ _ (h _)
  · rfl

theorem raiseEvt_region (d : Dev) (s k : Nat) : (coreOf (raiseEvt d s) k).region = (coreOf d k).region := by
  unfold raiseEvt
  dsimp only
  split
  · exact postBits_region ..
  · rfl

@[simp] theorem bb_cc (d : Dev) (i c : Nat) (l : List Byte) : (bb d i c l).cc = d.cc := by
  unfold bb
  dsimp only
  split <;> simp

theorem rd_bb (d : Dev) (i c : Nat) (l : List Byte) {a : Nat} (h : a ≠ Reg.bbLost) : rd (bb d i c l) a = rd d a := by
  unfold bb
  dsimp only
  split
  · rfl
  · exact rd_cnt_ne d h

@[simp] theorem note_cc (d : Dev) (k : Nat) (l : List Byte) : (note d k l).cc = d.cc := by
  unfold note
  split
  · rfl
  · dsimp only
    split <;> simp

theorem rd_note (d : Dev) (k : Nat) (l : List Byte) {a : Nat} (h : a ≠ Reg.fwEvc) (h' : a ≠ Reg.ntfLost) :
    rd (note d k l) a = rd d a := by
  unfold note
  split
  · rfl
  · dsimp only
    split
    · rw [rd_cnt_ne _ h, rd_onHost]
    · exact rd_cnt_ne d h'

@[simp] theorem healthEvent_cc (d : Dev) (h : Nat) (l : List Byte) : (healthEvent d h l).cc = d.cc := by simp [healthEvent]

theorem rd_healthEvent (d : Dev) (k : Nat) (l : List Byte) {a : Nat} (h : a ≠ Reg.bbLost) (h1 : a ≠ Reg.fwEvc) (h2 : a ≠ Reg.ntfLost) :
    rd (healthEvent d k l) a = rd d a := by
  rw [healthEvent, rd_note _ _ _ h1 h2, rd_bb _ _ _ _ h]

end Sys2Proof.Machine
end

section
/-! The sleep of a control core and of a cellar controller, the background test and the user page (R34, R35, R39, R574, R608 to R612, R625). -/

namespace Sys2Proof.Machine

open Sys2Proof

variable {d t : Dev} {s : State}

/-! ## How a command ends -/

theorem ends_of_runIf {c : Instr} {f : Dev → Dev} {p : Dev → Prop} (hx : exec c s = s.runIf c.wf f) (hw : c.wf = true)
    (hp : p (settle (f (begun s)))) : Ends c s p := ⟨_, hx.trans (runIf_true hw), rfl, hp⟩

theorem begun_same (s : State) (x : Piece) : Same x s.dev (begun s) := by cases x <;> simp [Same]

/-- The frame of a command: what it leaves, the delivery of interrupts leaves. -/
theorem onlyParts_settle {l : List Piece} (h : ∀ x, x ∉ l → Same x (begun s) t) : OnlyParts l s.dev (settle t) :=
  fun x hx => Same.trans (begun_same s x) (Same.trans (h x hx) (settle_same t x))

theorem not_mem_three {a b c x : Piece} (h : x ∉ [a, b, c]) : x ≠ a ∧ x ≠ b ∧ x ≠ c := by simpa using h

/-! ## Time passes -/

/-- Time has run from d on to a deadline: beside `now`, the TSU and what firmware acknowledges nothing has changed. -/
structure Waited (due : Nat) (d e : Dev) : Prop where
  due : due ≤ e.now
  parts : ∀ x, x ≠ .now → x ≠ .time → Same x d e
  reg : ∀ a, 0x20_0000 ≤ a → Reg.fwAcked (a - 4) = false → rd e a = rd d a

theorem waited_reach (d : Dev) (u : Nat) : Waited u d (reach d u) where
  due := (reach_now d u).1
  parts _ h1 h2 := reach_same d u h1 h2
  reg a ha h := by
    refine rd_reach d u ?_ ?_ ?_ (.inr h) <;> simp only [Reg.tsuNs, Reg.tsuWrap, Reg.tsuSlewLeft, Reg.tsu] <;> omega

section
variable {u : Nat} {e : Dev} (w : Waited u d e)
include w

theorem Waited.cc : e.cc = d.cc := w.parts .cc (by decide) (by decide)
theorem Waited.buf : e.buf = d.buf := w.parts .buf (by decide) (by decide)
theorem Waited.thr (n : Nat) : thrOf e n = thrOf d n := by simp only [thrOf, w.cc]
theorem Waited.core (c : Nat) : coreOf e c = coreOf d c := by simp only [coreOf, w.cc]

theorem Waited.coreReg {c o : Nat} (hc : c < 4) (ho : o ∈ [Reg.spmTestEvc, Reg.coreWakeCnt]) :
    rd e (Reg.core c + o) = rd d (Reg.core c + o) := by
  have unacked : ∀ c < 4, ∀ o ∈ [Reg.spmTestEvc, Reg.coreWakeCnt], Reg.fwAcked (Reg.core c + o - 4) = false := by decide
  exact w.reg _ (by simp only [Reg.core]; omega) (unacked c hc o ho)

theorem Waited.treg {n o : Nat} (hn : n < 32) (ho : o ∈ [Reg.tRestartVec, Reg.tEvtPend, Reg.tEvtMask]) : treg e n o = treg d n o := by
  have unacked : ∀ n < 32, ∀ o ∈ [Reg.tRestartVec, Reg.tEvtPend, Reg.tEvtMask], Reg.fwAcked (Reg.thr n + o - 4) = false := by decide
  exact w.reg _ (by simp only [Reg.thr, Reg.core]; omega) (unacked n hn o ho)

theorem Waited.pendMasked {n : Nat} (hn : n < 32) : pendMasked e n = pendMasked d n := by
  simp only [Machine.pendMasked, w.treg hn (o := Reg.tEvtPend) (by simp), w.treg hn (o := Reg.tEvtMask) (by simp)]

end

/-! ## The background test (R608 to R610) -/

/-- The region that the test had come to is tested. -/
def regionTested (d : Dev) (c : Nat) : Dev := setCore d c fun k => { k with testAt := d.now, region := (k.region + 1) % 8192 }

/-- The cellarmaster reports a failing word (Table 10-8). -/
def testReported (d : Dev) (c : Nat) : Dev :=
  let args := toLe 4 c ++ toLe 4 (rd d (Reg.core c + Reg.spmTestLast))
  if cmAlive d then healthEvent (bb d 33 0x32 args) 13 args else d

theorem spmTest_passed {c : Nat} (ha : alive d = true) (hr : (coreOf d c).retained = false) :
    ∃ e, Waited ((coreOf d c).testAt + ps_ms) d e ∧ spmTest c none d = regionTested e c := by
  exact ⟨_, waited_reach .., if_neg (by simp [ha, hr])⟩

theorem spmTest_failed {c : Nat} (i : Nat) (ha : alive d = true) (hr : (coreOf d c).retained = false) :
    ∃ e, Waited ((coreOf d c).testAt + ps_ms) d e ∧ spmTest c (some i) d =
      testReported (raiseEvt (cnt (wr (regionTested e c) (Reg.core c + Reg.spmTestLast) (64 * (coreOf d c).region + 4 * (i % 16)))
        (Reg.core c + Reg.spmTestEvc)) 29) c := by
  exact ⟨_, waited_reach .., if_neg (by simp [ha, hr])⟩

@[simp] theorem testReported_cc (d : Dev) (c : Nat) : (testReported d c).cc = d.cc := by
  unfold testReported; dsimp only; split <;> simp

/-- A report leaves the cores' own registers alone. -/
theorem rd_testReported (d : Dev) (c k o : Nat) : rd (testReported d c) (Reg.core k + o) = rd d (Reg.core k + o) := by
  have ne {a : Nat} (h : a < 0x264_0000) : Reg.core k + o ≠ a := by simp only [Reg.core]; omega
  unfold testReported
  dsimp only
  split
  · rw [rd_healthEvent _ _ _ (ne (by decide)) (ne (by decide)) (ne (by decide)), rd_bb _ _ _ _ (ne (by decide))]
  · rfl

/-- An event word lies among the threads' registers, below the core's own. -/
theorem core_ne_evtPend (c n : Nat) {o : Nat} (h : 0x200 ≤ o ∧ o < 0x1000) : Reg.core c + o ≠ Reg.thr n + Reg.tEvtPend := by
  simp only [Reg.core, Reg.thr, Reg.tEvtPend]; omega

theorem core_ne_irqMsgCnt (c o : Nat) : Reg.core c + o ≠ Reg.irqMsgCnt := by simp only [Reg.core, Reg.irqMsgCnt]; omega

theorem backgroundTest_passes {c : Nat} (hc : c < 4) (ha : alive s.dev = true) (hr : (coreOf s.dev c).retained = false) :
    Ends (.spmBackgroundTest c none) s fun t =>
      (coreOf t c).region = ((coreOf s.dev c).region + 1) % 8192 ∧ (coreOf s.dev c).testAt + ps_ms ≤ t.now ∧
        (coreOf t c).testAt = t.now ∧ OnlyParts [.now, .time, .cc] s.dev t := by
  obtain ⟨e, w, he⟩ := spmTest_passed (d := begun s) (c := c) ha hr
  refine ends_of_runIf (f := spmTest c none) rfl (decide_eq_true hc) ?_
  rw [he]
  refine ⟨?_, ?_, ?_, onlyParts_settle fun x hx => ?_⟩
  · simp [regionTested, w.core]
  · rw [settle_now]
    exact w.due
  · simp [regionTested]
  · obtain ⟨h1, h2, h3⟩ := not_mem_three hx
    exact Same.trans (w.parts x h1 h2) (setCore_same e c _ h3)

theorem backgroundTest_reports {c i : Nat} (hc : c < 4) (ha : alive s.dev = true) (hr : (coreOf s.dev c).retained = false) (hi : i < 16)
    (hg : (coreOf s.dev c).region < 8192) :
    Ends (.spmBackgroundTest c (some i)) s fun t =>
      (coreOf t c).region = ((coreOf s.dev c).region + 1) % 8192 ∧
        rd t (Reg.core c + Reg.spmTestLast) = 64 * (coreOf s.dev c).region + 4 * i ∧
        rd t (Reg.core c + Reg.spmTestEvc) = (rd s.dev (Reg.core c + Reg.spmTestEvc) + 1) % two32 := by
  obtain ⟨e, w, he⟩ := spmTest_failed (d := begun s) (c := c) i ha hr
  refine ends_of_runIf (f := spmTest c (some i)) rfl (decide_eq_true hc) ?_
  rw [he, coreOf_begun]
  have apart : Reg.core c + Reg.spmTestLast ≠ Reg.core c + Reg.spmTestEvc := by simp [Reg.spmTestLast, Reg.spmTestEvc]
  have through (f : Dev) {o : Nat} (ho : 0x200 ≤ o ∧ o < 0x1000) :
      rd (settle (testReported (raiseEvt f 29) c)) (Reg.core c + o) = rd f (Reg.core c + o) := by
    rw [rd_settle _ (core_ne_irqMsgCnt c o), rd_testReported, rd_raiseEvt _ _ fun n => core_ne_evtPend c n ho]
  have core (f : Dev) : coreOf (testReported f c) c = coreOf f c := by simp only [coreOf, testReported_cc]
  refine ⟨?_, ?_, ?_⟩
  · rw [coreOf_settle, core, raiseEvt_region, coreOf_cnt, coreOf_wr, regionTested, coreOf_setCore_self, w.core, coreOf_begun]
  · rw [through _ (by decide), rd_cnt_ne _ apart, rd_wr_self, Nat.mod_eq_of_lt hi]
    exact Nat.mod_eq_of_lt (by simp only [two32]; omega)
  · rw [through _ (by decide), rd_cnt_self, rd_wr_ne _ _ apart.symm, regionTested, rd_setCore, w.coreReg hc (by simp), rd_begun]

/-! ## A core's clock stops (R574, R39) -/

/-- Whether a wait ends on a core with no timer that runs is a matter of its pending events alone. -/
theorem waitEnds_quiet {c : Nat} (hq : ∀ h < 8, isState d (8 * c + h) .waiting = true →
    pendMasked d (8 * c + h) = 0 ∧ (thrOf d (8 * c + h)).timed = false) : waitEnds d c = false := by
  simp only [waitEnds, List.any_eq_false, List.mem_range, Bool.and_eq_true, not_and]
  intro h hh hw
  obtain ⟨hp, ht⟩ := hq h hh hw
  simp [hp, ht]

theorem waitEnds_pending {c h : Nat} (hh : h < 8) (hw : isState d (8 * c + h) .waiting = true) (hp : pendMasked d (8 * c + h) ≠ 0) :
    waitEnds d c = true := by
  simp only [waitEnds, List.any_eq_true, List.mem_range]
  exact ⟨h, hh, by simp [hw, hp]⟩

/-- The clock of an idle core stops 256 cycles after it became idle, its threads' cycles counted, unless a wait ends by then. -/
theorem coreClockStop_idle {c : Nat} (ha : alive d = true) (hs : (coreOf d c).stopped = false) (hb : coreBusy d c = false)
    (hp : flag d (Reg.core c + Reg.corePwr) 0 = true) :
    ∃ e f, Waited ((coreOf d c).idleAt + 256 * 1000) d e ∧ Tallied c e f ∧ coreClockStop c d =
      if waitEnds e c then e else setCore f c fun k => { k with stopped := true, stoppedAt := e.now } := by
  exact ⟨_, _, waited_reach .., tallied_flushCore .., if_neg (by simp [ha, hs, hb, hp])⟩

theorem clockStop_idle {c : Nat} (hc : c < 4) (ha : alive s.dev = true) (hs : (coreOf s.dev c).stopped = false)
    (hb : coreBusy s.dev c = false) (hp : flag s.dev (Reg.core c + Reg.corePwr) 0 = true)
    (hq : ∀ h < 8, isState s.dev (8 * c + h) .waiting = true →
      pendMasked s.dev (8 * c + h) = 0 ∧ (thrOf s.dev (8 * c + h)).timed = false) :
    Ends (.coreClockStop c) s fun t =>
      (coreOf t c).stopped = true ∧ (coreOf s.dev c).idleAt + 256 * 1000 ≤ t.now ∧ (coreOf t c).stoppedAt = t.now ∧
        (∀ n, (thrOf t n).state = (thrOf s.dev n).state) ∧ OnlyParts [.now, .time, .cc] s.dev t := by
  obtain ⟨e, f, w, tally, he⟩ := coreClockStop_idle (d := begun s) ha hs hb hp
  have quiet : waitEnds e c = false := waitEnds_quiet fun h hh hw => by
    rw [w.pendMasked (by omega), w.thr]
    rw [isState, w.thr] at hw
    exact hq h hh hw
  have now : f.now = e.now := tally.parts .now (by decide)
  refine ends_of_runIf (f := coreClockStop c) rfl (decide_eq_true hc) ?_
  rw [he, quiet, if_neg Bool.false_ne_true]
  refine ⟨by simp, ?_, by simp [now], fun n => ?_, onlyParts_settle fun x hx => ?_⟩
  · rw [settle_now, setCore_now, now]
    exact w.due
  · rw [thrOf_settle, thrOf_setCore, tally.state, w.thr, thrOf_begun]
  · obtain ⟨h1, h2, h3⟩ := not_mem_three hx
    exact Same.trans (w.parts x h1 h2) (Same.trans (tally.parts x h3) (setCore_same f c _ h3))

/-- A signal that arrives before the clock has stopped cancels the stop. -/
theorem clockStop_waits {c h : Nat} (hc : c < 4) (ha : alive s.dev = true) (hs : (coreOf s.dev c).stopped = false)
    (hb : coreBusy s.dev c = false) (hp : flag s.dev (Reg.core c + Reg.corePwr) 0 = true) (hh : h < 8)
    (hw : isState s.dev (8 * c + h) .waiting = true) (hq : pendMasked s.dev (8 * c + h) ≠ 0) :
    Ends (.coreClockStop c) s fun t => t.cc = s.dev.cc ∧ OnlyParts [.now, .time] s.dev t := by
  obtain ⟨e, f, w, -, he⟩ := coreClockStop_idle (d := begun s) ha hs hb hp
  have ends : waitEnds e c = true := waitEnds_pending hh (by rw [isState, w.thr]; exact hw) (by rw [w.pendMasked (by omega)]; exact hq)
  refine ends_of_runIf (f := coreClockStop c) rfl (decide_eq_true hc) ?_
  rw [he, ends, if_pos rfl]
  refine ⟨by rw [settle_cc, w.cc, begun_cc], onlyParts_settle fun x hx => ?_⟩
  simp only [List.mem_cons, List.not_mem_nil, or_false, not_or] at hx
  exact w.parts x hx.1 hx.2

/-! ## Retention (R611) -/

theorem spmRetentionEntry_stopped {c : Nat} (hs : (coreOf d c).stopped = true) (hr : (coreOf d c).retained = false)
    (hw : (coreOf d c).wakeAt = none) (hp : flag d (Reg.core c + Reg.corePwr) 1 = true) :
    ∃ e, Waited (max (coreOf d c).stoppedAt (coreOf d c).portBAt + 100 * ps_us) d e ∧
      spmRetentionEntry c d = setCore e c fun k => { k with retained := true } := by
  exact ⟨_, waited_reach .., if_neg (by simp [hs, hr, hw, hp])⟩

theorem scratchpad_retains {c : Nat} (hc : c < 4) (hs : (coreOf s.dev c).stopped = true) (hr : (coreOf s.dev c).retained = false)
    (hw : (coreOf s.dev c).wakeAt = none) (hp : flag s.dev (Reg.core c + Reg.corePwr) 1 = true) :
    Ends (.spmRetentionEntry c) s fun t =>
      (coreOf t c).retained = true ∧ max (coreOf s.dev c).stoppedAt (coreOf s.dev c).portBAt + 100 * ps_us ≤ t.now ∧
        (coreOf t c).spm = (coreOf s.dev c).spm ∧ OnlyParts [.now, .time, .cc] s.dev t := by
  obtain ⟨e, w, he⟩ := spmRetentionEntry_stopped (d := begun s) hs hr hw hp
  refine ends_of_runIf (f := spmRetentionEntry c) rfl (decide_eq_true hc) ?_
  rw [he]
  refine ⟨by simp, ?_, by simp [w.core], onlyParts_settle fun x hx => ?_⟩
  · rw [settle_now, setCore_now]
    exact w.due
  · obtain ⟨h1, h2, h3⟩ := not_mem_three hx
    exact Same.trans (w.parts x h1 h2) (setCore_same e c _ h3)

/-! ## A core wakes (R34, R35, R39, R42) -/

/-- Core c's clock has started: nothing of the core is stopped or retained, what its crossings hold waits still, and the wake counts. -/
structure Woken (c : Nat) (d e : Dev) : Prop where
  parts : ∀ x, x ≠ .now → x ≠ .time → x ≠ .cc → Same x d e
  core : ∃ i j, coreOf e c = { coreOf d c with stopped := false, retained := false, idleAt := i, portBAt := j }
  state : ∀ n, (thrOf e n).state = (thrOf d n).state
  treg : ∀ n < 32, ∀ o ∈ [Reg.tRestartVec, Reg.tEvtPend, Reg.tEvtMask], treg e n o = treg d n o
  count : rd e (Reg.core c + Reg.coreWakeCnt) = (rd d (Reg.core c + Reg.coreWakeCnt) + 1) % two32

theorem woken_of_waited {c u : Nat} {e f : Dev} {i j : Nat} (hc : c < 4) (w : Waited u d e) (tally : Tallied c e f) :
    Woken c d (cnt (setCore f c fun k => { k with stopped := false, retained := false, idleAt := i, portBAt := j })
      (Reg.core c + Reg.coreWakeCnt)) where
  parts x h1 h2 h3 := Same.trans (w.parts x h1 h2) (Same.trans (tally.parts x h3) (Same.trans (setCore_same f c _ h3) (cnt_same _ x _)))
  core := ⟨i, j, by rw [coreOf_cnt, coreOf_setCore_self, tally.core, w.core]⟩
  state n := by rw [thrOf_cnt, thrOf_setCore, tally.state, w.thr]
  treg n hn o ho := by
    have low : o < 0x40 := (by decide : ∀ o ∈ [Reg.tRestartVec, Reg.tEvtPend, Reg.tEvtMask], o < 0x40) o ho
    have apart : Reg.thr n + o ≠ Reg.core c + Reg.coreWakeCnt := by
      simp only [Reg.thr, Reg.core, Reg.coreWakeCnt]; omega
    rw [← w.treg hn ho, Machine.treg, rd_cnt_ne _ apart, rd_setCore, tally.reg _ (noPerf_thr _ n low), Machine.treg]
  count := by rw [rd_cnt_self, rd_setCore, tally.reg _ (noPerf_core _ c (by decide)), w.coreReg hc (by simp)]

/-- A wake starts the clock, delivers what was held and switches. -/
theorem wakeCore_wakes {c : Nat} (hc : c < 4) (hs : (coreOf d c).stopped = true) :
    ∃ e, Woken c d e ∧ wakeCore d c = dispatch (deliver e c) c := by
  exact ⟨_, woken_of_waited hc (waited_reach ..) (tallied_flushCore ..), if_neg (by simp [hs])⟩

theorem wakeCore_awake {c : Nat} (hs : (coreOf d c).stopped = false) : wakeCore d c = d := by simp [wakeCore, hs]

/-- A core whose crossings hold nothing more. -/
def emptied (d : Dev) (c : Nat) : Dev := setCore d c fun k => { k with wakeAt := none, posts := [], cmds := [] }

/-- What a core's crossings held arrives: the posts, then the thread commands. -/
theorem deliver_eq (d : Dev) (c : Nat) : deliver d c =
    (coreOf d c).cmds.foldl (fun d e => doCmd d e.1 e.2) ((coreOf d c).posts.foldl (fun d e => orBits d e.1 e.2) (emptied d c)) := rfl

/-- Core k has woken as core k': it runs, has kept its scratchpad, and nothing is held for it. -/
structure Awake (k k' : Core) : Prop where
  stopped : k'.stopped = false
  retained : k'.retained = false
  spm : k'.spm = k.spm
  posts : k'.posts = []
  cmds : k'.cmds = []

/-- What is delivered to a core that has woken leaves it so. -/
theorem Woken.awake {c : Nat} {e f g : Dev} (w : Woken c d e) (hf : f.cc = (emptied e c).cc) (sw : Switched f g) :
    Awake (coreOf d c) (coreOf g c) := by
  obtain ⟨i, j, core⟩ := w.core
  obtain ⟨l, m, last⟩ := sw.core c
  rw [show coreOf f c = coreOf (emptied e c) c by simp only [coreOf, hf], emptied, coreOf_setCore_self, core] at last
  rw [last]
  exact ⟨rfl, rfl, rfl, rfl, rfl⟩

theorem Woken.posts {c : Nat} {e : Dev} (w : Woken c d e) : (coreOf e c).posts = (coreOf d c).posts := by
  obtain ⟨i, j, core⟩ := w.core; rw [core]

theorem Woken.cmds {c : Nat} {e : Dev} (w : Woken c d e) : (coreOf e c).cmds = (coreOf d c).cmds := by
  obtain ⟨i, j, core⟩ := w.core; rw [core]

theorem deliver_stopped (d : Dev) (c : Nat) : (coreOf (deliver d c) c).stopped = (coreOf d c).stopped := by
  rw [deliver_eq, (switched_doCmds _ _).stopped c, coreOf_orBitsAll, emptied, coreOf_setCore_self]

theorem wakeCore_stopped {c : Nat} (hc : c < 4) (hs : (coreOf d c).stopped = true) : (coreOf (wakeCore d c) c).stopped = false := by
  obtain ⟨e, w, he⟩ := wakeCore_wakes hc hs
  obtain ⟨i, j, core⟩ := w.core
  rw [he, (switched_dispatch _ c).stopped c, deliver_stopped, core]

theorem islandWake_core {c : Nat} (hc : c < 4) (ha : alive d = true) : islandWake c d = wakeCore d c := by
  simp [islandWake, hc, ha]

/-- How a wake ends on a core whose crossings held what `deliver` brings, up to a last switch. -/
theorem ends_wake {c : Nat} {p : Dev → Prop} (hc : c < 4) (ha : alive s.dev = true) (hs : (coreOf s.dev c).stopped = true)
    (h : ∀ e, Woken c (begun s) e → p (settle (dispatch (deliver e c) c))) : Ends (.islandWake c) s p := by
  obtain ⟨e, w, he⟩ := wakeCore_wakes (d := begun s) hc hs
  refine ends_of_runIf (f := islandWake c) rfl (decide_eq_true (by omega)) ?_
  rw [islandWake_core (d := begun s) hc ha, he]
  exact h e w

theorem islandWake_quiet {c : Nat} (hc : c < 4) (ha : alive s.dev = true) (hs : (coreOf s.dev c).stopped = true)
    (hp : (coreOf s.dev c).posts = []) (hk : (coreOf s.dev c).cmds = []) : Ends (.islandWake c) s fun t =>
      (coreOf t c).stopped = false ∧ (coreOf t c).retained = false ∧ (coreOf t c).spm = (coreOf s.dev c).spm ∧
        rd t (Reg.core c + Reg.coreWakeCnt) = (rd s.dev (Reg.core c + Reg.coreWakeCnt) + 1) % two32 ∧
        OnlyParts [.now, .time, .cc] s.dev t := by
  refine ends_wake hc ha hs fun e w => ?_
  have he : deliver e c = emptied e c := by rw [deliver_eq, w.posts, w.cmds, coreOf_begun, hp, hk]; rfl
  have sw := switched_dispatch (emptied e c) c
  have awake := w.awake rfl sw
  rw [he, coreOf_settle]
  refine ⟨awake.stopped, awake.retained, awake.spm, ?_, onlyParts_settle fun x hx => ?_⟩
  · rw [rd_settle _ (core_ne_irqMsgCnt c _), sw.reg _ (noPerf_core _ c (by decide)), emptied, rd_setCore, w.count, rd_begun]
  · obtain ⟨h1, h2, h3⟩ := not_mem_three hx
    exact Same.trans (w.parts x h1 h2 h3) (Same.trans (setCore_same e c _ h3) (sw.parts x h3))

theorem thr_ne_irqMsgCnt (n o : Nat) : Reg.thr n + o ≠ Reg.irqMsgCnt := by
  rw [Reg.thr, Nat.add_assoc]
  exact core_ne_irqMsgCnt _ _

theorem islandWake_posts {c n b : Nat} (hc : c < 4) (ha : alive s.dev = true) (hs : (coreOf s.dev c).stopped = true) (hn : coreNum n = c)
    (hb : b < two32) (hp : (coreOf s.dev c).posts = [(n, b)]) (hk : (coreOf s.dev c).cmds = []) : Ends (.islandWake c) s fun t =>
      (coreOf t c).stopped = false ∧ treg t n Reg.tEvtPend = treg s.dev n Reg.tEvtPend ||| b ∧ (coreOf t c).posts = [] := by
  refine ends_wake hc ha hs fun e w => ?_
  have he : deliver e c = orBits (emptied e c) n b := by rw [deliver_eq, w.posts, w.cmds, coreOf_begun, hp, hk]; rfl
  have sw := switched_dispatch (orBits (emptied e c) n b) c
  have awake := w.awake (orBits_cc ..) sw
  have h32 : n < 32 := by unfold coreNum at hn; omega
  have pend : rd e (Reg.thr n + Reg.tEvtPend) = treg s.dev n Reg.tEvtPend := w.treg n h32 Reg.tEvtPend (by simp)
  have small : treg s.dev n Reg.tEvtPend < 2 ^ 32 := rd_lt _ ((by decide : ∀ n < 32, Reg.reset (Reg.thr n + Reg.tEvtPend) < two32) n h32)
  rw [he, coreOf_settle]
  refine ⟨awake.stopped, ?_, awake.posts⟩
  rw [treg, rd_settle _ (thr_ne_irqMsgCnt n _), sw.reg _ (noPerf_thr _ n (by decide)), orBits, rd_wr_self, emptied, rd_setCore, pend,
    Nat.mod_eq_of_lt hb]
  exact Nat.mod_eq_of_lt (Nat.or_lt_two_pow small hb)

theorem islandWake_starts {c n : Nat} (hc : c < 4) (ha : alive s.dev = true) (hs : (coreOf s.dev c).stopped = true) (hn : coreNum n = c)
    (hp : (coreOf s.dev c).posts = []) (hk : (coreOf s.dev c).cmds = [(n, .start)]) (ho : isState s.dev n .off = true) :
    Ends (.islandWake c) s fun t =>
      (coreOf t c).stopped = false ∧ Going t n ∧ (thrOf t n).pc = BitVec.ofNat 32 (treg s.dev n Reg.tRestartVec) ∧
        (coreOf t c).cmds = [] := by
  refine ends_wake hc ha hs fun e w => ?_
  have off : isState (emptied e c) n .off = true := by rw [isState, emptied, thrOf_setCore, w.state]; exact ho
  have he : deliver e c = startThr (emptied e c) n := by
    rw [deliver_eq, w.posts, w.cmds, coreOf_begun, hp, hk]
    exact if_pos off
  have sw := (switched_startThr (emptied e c) n).trans (switched_dispatch _ c)
  have awake := w.awake rfl sw
  have vec : treg (emptied e c) n Reg.tRestartVec = treg s.dev n Reg.tRestartVec :=
    w.treg n (by unfold coreNum at hn; omega) Reg.tRestartVec (by simp)
  have going := dispatch_going _ c (startThr_going (emptied e c) n)
  rw [he, coreOf_settle]
  refine ⟨awake.stopped, ?_, ?_, awake.cmds⟩
  · unfold Going
    rw [thrOf_settle]
    exact going
  · rw [thrOf_settle, dispatch_pc, startThr_pc, vec]

/-! ## A cellar controller wakes (R34 to R38) -/

/-- A controller that no rack waits for starts, and the wake counts. -/
theorem stackUp_quiet {c : Nat} (hf : c ∉ d.buf.failed) (hr : c ∉ d.buf.running) (hq : tget [] d.buf.rackQ c = []) :
    ∃ u e, Waited u d e ∧ stackUp d c = cnt (e.onBuf fun b => { b with
      running := (List.range 4).filter fun i => b.running.contains i || decide (i = c)
      stackWake := tdel b.stackWake c
      rackQ := tdel b.rackQ c }) Reg.cellarWakeCnt := by
  have w := waited_reach d ((tfind d.buf.stackWake c).getD d.now + 300000)
  refine ⟨_, _, w, (if_neg (by simp [hf, hr])).trans ?_⟩
  dsimp only
  rw [w.buf, hq]
  rfl

theorem islandWake_cellar {c : Nat} (hc : c < 4) (ha : alive s.dev = true) (hf : c ∉ s.dev.buf.failed) (hr : c ∉ s.dev.buf.running)
    (hq : tget [] s.dev.buf.rackQ c = []) : Ends (.islandWake (4 + c)) s fun t =>
      c ∈ t.buf.running ∧ rd t Reg.cellarWakeCnt = (rd s.dev Reg.cellarWakeCnt + 1) % two32 ∧ t.buf.copies = s.dev.buf.copies ∧
        OnlyParts [.now, .time, .buf] s.dev t := by
  obtain ⟨u, e, w, he⟩ := stackUp_quiet (d := begun s) hf hr hq
  have wake : islandWake (4 + c) (begun s) = stackUp (begun s) c := by
    simp [islandWake, show alive (begun s) = true from ha]
  refine ends_of_runIf (f := islandWake (4 + c)) rfl (decide_eq_true (by omega)) ?_
  rw [wake, he]
  refine ⟨by simp [hc], ?_, by simp [w.buf], onlyParts_settle fun x hx => ?_⟩
  · rw [rd_settle _ (by decide), rd_cnt_self, rd_onBuf, w.reg _ (by decide) (by decide), rd_begun]
  · obtain ⟨h1, h2, h3⟩ := not_mem_three hx
    refine Same.trans (w.parts x h1 h2) (Same.trans ?_ (cnt_same _ x _))
    cases x <;> simp_all [Same]

/-! ## The user page (R625) -/

theorem perfUserPage_shows {n e : Nat} (hb : barUp d = true) (hp : flag d Reg.perfUserPerm n = true) :
    perfUserPage n e d = readData (flushThr (wakeCore d (coreNum n)) n) (rd (flushThr (wakeCore d (coreNum n)) n) (Reg.perf n e)) := by
  simp [perfUserPage, hb, hp]

theorem perfUserPage_denies {n e : Nat} (hb : barUp d = true) (hp : flag d Reg.perfUserPerm n = false) :
    perfUserPage n e d = cnt (readData d 0) Reg.perfDenied := by
  simp [perfUserPage, hb, hp]

@[simp] theorem readData_chan (d : Dev) (v : Nat) : (readData d v).host.chan = d.host.chan := rfl
@[simp] theorem coreOf_readData (d : Dev) (v c : Nat) : coreOf (readData d v) c = coreOf d c := rfl

theorem readData_same {x : Piece} (d : Dev) (v : Nat) (h : x ≠ .host) : Same x d (readData d v) := by
  cases x <;> simp_all [Same]

/-- A read of a user page brings the thread's counters up to date, and nothing else beside the data read. -/
theorem userPage_shows {n e : Nat} (hn : n < 32) (he : e < 16) (hb : barUp s.dev = true) (hp : flag s.dev Reg.perfUserPerm n = true)
    (hs : (coreOf s.dev (coreNum n)).stopped = false) : Ends (.perfUserPageRead n e) s fun t =>
      t.host.rdata = readPerf s.dev n e ∧ OnlyCore (coreNum n) [] s.dev t ∧ OnlyParts [.cc, .host] s.dev t := by
  refine ends_of_runIf (f := perfUserPage n e) rfl (decide_eq_true ⟨hn, he⟩) ?_
  have tally := tallied_flushThr (begun s) n
  have count : rd (flushThr (begun s) n) (Reg.perf n e) = readPerf s.dev n e :=
    rd_flushThr_congr n _ (begun_now s) (begun_cc s) (rd_begun s)
  rw [perfUserPage_shows (d := begun s) hb hp, wakeCore_awake (d := begun s) hs, count]
  generalize flushThr (begun s) n = f at tally
  refine ⟨by simp, ⟨fun m hm => ?_, fun k _ => ?_, ?_, fun a ha hc _ => ?_⟩, onlyParts_settle fun x hx => ?_⟩
  · rw [thrOf_settle]
    exact tally.other m hm
  · rw [coreOf_settle, coreOf_readData, tally.core, coreOf_begun]
  · rw [settle_cc, readData_cc]
    exact tally.held
  · rw [rd_settle _ ha, rd_readData, tally.reg a, rd_begun]
    rintro m i hm hi rfl
    rw [← hm] at hc
    simp only [Reg.perf, Reg.core, coreNum] at hc
    omega
  · simp only [List.mem_cons, List.not_mem_nil, or_false, not_or] at hx
    exact Same.trans (tally.parts x hx.1) (readData_same f _ hx.2)

/-- A read that is permitted wakes a stopped core first (R40). -/
theorem userPage_wakes {n e : Nat} (hn : n < 32) (he : e < 16) (hb : barUp s.dev = true) (hp : flag s.dev Reg.perfUserPerm n = true)
    (hs : (coreOf s.dev (coreNum n)).stopped = true) : Ends (.perfUserPageRead n e) s fun t =>
      (coreOf t (coreNum n)).stopped = false ∧ t.host.rdata = rd t (Reg.perf n e) := by
  have woken := wakeCore_stopped (d := begun s) (c := coreNum n) (by unfold coreNum; omega) hs
  refine ends_of_runIf (f := perfUserPage n e) rfl (decide_eq_true ⟨hn, he⟩) ?_
  rw [perfUserPage_shows (d := begun s) hb hp]
  generalize wakeCore (begun s) (coreNum n) = w at woken
  have tally := tallied_flushThr w n
  generalize flushThr w n = f at tally
  have apart : Reg.perf n e ≠ Reg.irqMsgCnt := by
    rw [Reg.perf, Nat.add_assoc, Nat.add_assoc]
    exact core_ne_irqMsgCnt _ _
  refine ⟨?_, ?_⟩
  · rw [coreOf_settle, coreOf_readData, tally.core, woken]
  · rw [settle_host_rdata, readData_rdata, rd_settle _ apart, rd_readData]

theorem userPage_denies {n e : Nat} (hn : n < 32) (he : e < 16) (hb : barUp s.dev = true) (hp : flag s.dev Reg.perfUserPerm n = false) :
    Ends (.perfUserPageRead n e) s fun t =>
      t.host.rdata = 0 ∧ rd t Reg.perfDenied = (rd s.dev Reg.perfDenied + 1) % two32 ∧ OnlyParts [.host] s.dev t ∧
        OnlyRegs [Reg.perfDenied] s.dev t := by
  refine ends_of_runIf (f := perfUserPage n e) rfl (decide_eq_true ⟨hn, he⟩) ?_
  rw [perfUserPage_denies (d := begun s) hb hp]
  refine ⟨by simp, ?_, onlyParts_settle fun x hx => ?_, fun a h1 h2 => ?_⟩
  · rw [rd_settle _ (by decide), rd_cnt_self, rd_readData, rd_begun]
  · exact Same.trans (readData_same (begun s) 0 (by simpa using hx)) (cnt_same _ x _)
  · rw [rd_settle _ h1, rd_cnt_ne _ (by simpa using h2), rd_readData, rd_begun]

/-! ## The statement -/

/-- Settles O45: clause by clause, the test, the stop of a core's clock, retention, wakes and the user page. -/
theorem coresSleepWakeAndTest : Obligations.CoresSleepWakeAndTest := by
  intro s c hc ha
  refine ⟨fun hr => ⟨backgroundTest_passes hc ha hr, fun i hi hg => backgroundTest_reports hc ha hr hi hg⟩,
    fun hs hb hp => ⟨clockStop_idle hc ha hs hb hp, fun h hh => clockStop_waits hc ha hs hb hp hh⟩,
    fun hs => ⟨scratchpad_retains hc hs, islandWake_quiet hc ha hs, fun n b => islandWake_posts hc ha hs, fun n => islandWake_starts hc ha hs⟩,
    islandWake_cellar hc ha,
    fun n e hn he hb => ⟨fun hp => ⟨userPage_shows hn he hb hp, userPage_wakes hn he hb hp⟩, userPage_denies hn he hb⟩⟩

end Sys2Proof.Machine
end

section
/-! Frames that compose: from one device to another only named parts and registers move. One rule per shared operation; a command's
frame is the composition of the rules of what it does. -/

namespace Sys2Proof.Machine

open Sys2Proof

variable {d t u : Dev} {ps : List Piece} {rs : Nat → Prop}

/-- What the mailbox needs of the host interface beside the channels: the host's access and the vintage. -/
def SameAccess (d t : Dev) : Prop :=
  t.host.busMaster = d.host.busMaster ∧ t.host.d3 = d.host.d3 ∧ t.host.vintage = d.host.vintage

/-- The stacks of the cellar that run, and those that failed their training. -/
def SameStacks (x y : Buf) : Prop := y.running = x.running ∧ y.failed = x.failed

/-- From d to t only parts of `ps` moved, and only registers of `rs`; the host's access, the vintage and the cellar's stacks stayed. -/
structure Moves (ps : List Piece) (rs : Nat → Prop) (d t : Dev) : Prop where
  parts : OnlyParts ps d t
  regs : ∀ a, ¬rs a → rd t a = rd d a
  access : SameAccess d t
  cellar : SameStacks d.buf t.buf

theorem SameStacks.refl (x : Buf) : SameStacks x x := ⟨rfl, rfl⟩

theorem SameStacks.trans {x y z : Buf} (h : SameStacks x y) (g : SameStacks y z) : SameStacks x z := ⟨g.1.trans h.1, g.2.trans h.2⟩

theorem SameAccess.refl (d : Dev) : SameAccess d d := ⟨rfl, rfl, rfl⟩

theorem SameAccess.trans (h : SameAccess d t) (g : SameAccess t u) : SameAccess d u :=
  ⟨g.1.trans h.1, g.2.1.trans h.2.1, g.2.2.trans h.2.2⟩

theorem Moves.refl (d : Dev) : Moves ps rs d d := ⟨fun x _ => Same.refl x d, fun _ _ => rfl, .refl d, .refl d.buf⟩

theorem Moves.trans (h : Moves ps rs d t) (g : Moves ps rs t u) : Moves ps rs d u :=
  ⟨fun x hx => Same.trans (h.parts x hx) (g.parts x hx), fun a ha => (g.regs a ha).trans (h.regs a ha), h.access.trans g.access,
    h.cellar.trans g.cellar⟩

theorem Moves.mono {ps' : List Piece} {rs' : Nat → Prop} (h : Moves ps rs d t) (hp : ps ⊆ ps') (hr : ∀ a, rs a → rs' a) :
    Moves ps' rs' d t :=
  ⟨fun x hx => h.parts x fun hm => hx (hp hm), fun a ha => h.regs a fun hm => ha (hr a hm), h.access, h.cellar⟩

theorem Moves.ite {p : Prop} [Decidable p] (h : Moves ps rs d t) (g : Moves ps rs d u) : Moves ps rs d (if p then t else u) := by
  split
  · exact h
  · exact g

theorem Moves.foldl {α : Type} {f : Dev → α → Dev} (l : List α) (h : ∀ d, ∀ x ∈ l, Moves ps rs d (f d x)) (d : Dev) :
    Moves ps rs d (l.foldl f d) := by
  induction l generalizing d with
  | nil => exact .refl d
  | cons x r ih => exact (h d x (by simp)).trans (ih (fun d y hy => h d y (by simp [hy])) _)

/-! ## What a frame says of the parts that commands read -/

section
variable (h : Moves ps rs d t)
include h

theorem Moves.now (hp : .now ∉ ps) : t.now = d.now := h.parts .now hp
theorem Moves.boot (hp : .boot ∉ ps) : t.boot = d.boot := h.parts .boot hp
theorem Moves.buf (hp : .buf ∉ ps) : t.buf = d.buf := h.parts .buf hp
theorem Moves.egr (hp : .egr ∉ ps) (p : Nat) : egrOf t p = egrOf d p := by
  have e : t.egr = d.egr := h.parts .egr hp
  simp only [egrOf, e]
theorem Moves.port (hp : .ports ∉ ps) (p : Nat) : portOf t p = portOf d p := by
  have e : t.ports = d.ports := h.parts .ports hp
  simp only [portOf, e]
theorem Moves.fld {a : Nat} (ha : ¬rs a) (lo w : Nat) : fld t a lo w = fld d a lo w := by simp only [Machine.fld, h.regs a ha]
theorem Moves.flag {a : Nat} (ha : ¬rs a) (i : Nat) : flag t a i = flag d a i := by simp only [Machine.flag, h.regs a ha]

end

/-! ## How a frame ends a command -/

variable {s : State}

theorem Moves.onlyParts (h : Moves ps rs (begun s) t) : OnlyParts ps s.dev (settle t) := onlyParts_settle h.parts

theorem Moves.rd_ends (h : Moves ps rs (begun s) t) {a : Nat} (hi : a ≠ Reg.irqMsgCnt) (ha : ¬rs a) : rd (settle t) a = rd s.dev a := by
  rw [rd_settle _ hi, h.regs a ha, rd_begun]

theorem Moves.onlyRegs {l : List Nat} (h : Moves ps (· ∈ l) (begun s) t) : OnlyRegs l s.dev (settle t) :=
  fun _ hi ha => h.rd_ends hi ha

/-! ## The shared operations -/

theorem moves_wr (d : Dev) {a : Nat} (v : Nat) (ha : rs a) : Moves ps rs d (wr d a v) :=
  ⟨fun x _ => wr_same d x a v, fun _ hb => rd_wr_ne d v fun e => hb (e ▸ ha), .refl d, .refl d.buf⟩

theorem moves_setFld (d : Dev) {a : Nat} (lo w v : Nat) (ha : rs a) : Moves ps rs d (setFld d a lo w v) := moves_wr d _ ha
theorem moves_setFlag (d : Dev) {a : Nat} (i : Nat) (b : Bool) (ha : rs a) : Moves ps rs d (setFlag d a i b) := moves_wr d _ ha

theorem moves_cntAdd (d : Dev) {a : Nat} (n : Nat) (ha : rs a) : Moves ps rs d (cntAdd d a n) :=
  ⟨fun x _ => cntAdd_same d x a n, fun b hb => rd_cntAdd_ne d n fun e => hb (e ▸ ha), by simp [SameAccess], by simp [SameStacks]⟩

theorem moves_cnt (d : Dev) {a : Nat} (ha : rs a) : Moves ps rs d (cnt d a) := moves_cntAdd d 1 ha
theorem moves_tcnt (d : Dev) {k o : Nat} (ha : rs (Reg.tile k + o)) : Moves ps rs d (tcnt d k o) := moves_cnt d ha

theorem cnt48_same (d : Dev) (x : Piece) (a n : Nat) : Same x d (cnt48 d a n) := by cases x <;> simp [Same]

theorem moves_cnt48 (d : Dev) {a : Nat} (n : Nat) (ha : rs a) (ha4 : rs (a + 4)) : Moves ps rs d (cnt48 d a n) :=
  ⟨fun x _ => cnt48_same d x a n, fun b hb => rd_cnt48_ne d n (fun e => hb (e ▸ ha)) fun e => hb (e ▸ ha4), by simp [SameAccess], by simp [SameStacks]⟩

/-- A register of port p that counting at an offset may write: the counter, and `PORT_HALF_EVC` (R96). -/
theorem moves_pcntAdd (d : Dev) {p o : Nat} (n : Nat) (ha : rs (Reg.port p + o)) (hh : rs (Reg.port p + Reg.pHalfEvc)) :
    Moves ps rs d (pcntAdd d p o n) :=
  .ite ((moves_cntAdd d n ha).trans (.ite (moves_cnt _ hh) (.refl _))) (.refl d)

theorem moves_pcnt (d : Dev) {p o : Nat} (ha : rs (Reg.port p + o)) (hh : rs (Reg.port p + Reg.pHalfEvc)) :
    Moves ps rs d (pcnt d p o) := moves_pcntAdd d 1 ha hh

theorem moves_pcnt48 (d : Dev) {p o : Nat} (n : Nat) (ha : rs (Reg.port p + o)) (ha4 : rs (Reg.port p + o + 4))
    (hh : rs (Reg.port p + Reg.pHalfEvc)) : Moves ps rs d (pcnt48 d p o n) :=
  .ite ((moves_cnt48 d n ha ha4).trans (.ite (moves_cnt _ hh) (.refl _))) (.refl d)

theorem moves_setPort (d : Dev) (p : Nat) (f : PortSt → PortSt) (hp : .ports ∈ ps) : Moves ps rs d (setPort d p f) :=
  ⟨fun x hx => by cases x <;> simp_all [Same], fun _ _ => rfl, .refl d, .refl d.buf⟩

theorem moves_setEgr (d : Dev) (p : Nat) (f : EgrPort → EgrPort) (hp : .egr ∈ ps) : Moves ps rs d (setEgr d p f) :=
  ⟨fun x hx => by cases x <;> simp_all [Same], fun _ _ => rfl, .refl d, .refl d.buf⟩

/-- A change of the buffer that leaves the stacks; it is plain at its uses that it does. -/
theorem moves_onBuf (d : Dev) (f : Buf → Buf) (hp : .buf ∈ ps) (hf : SameStacks d.buf (f d.buf) := by exact ⟨rfl, rfl⟩) :
    Moves ps rs d (d.onBuf f) :=
  ⟨fun x hx => by cases x <;> simp_all [Same], fun _ _ => rfl, .refl d, hf⟩

theorem moves_onBoot (d : Dev) (f : Boot → Boot) (hp : .boot ∈ ps) : Moves ps rs d (d.onBoot f) :=
  ⟨fun x hx => by cases x <;> simp_all [Same], fun _ _ => rfl, .refl d, .refl d.buf⟩

theorem moves_onSafe (d : Dev) (f : Safe → Safe) (hp : .safe ∈ ps) : Moves ps rs d (d.onSafe f) :=
  ⟨fun x hx => by cases x <;> simp_all [Same], fun _ _ => rfl, .refl d, .refl d.buf⟩

theorem moves_onHealth (d : Dev) (f : Health → Health) (hp : .health ∈ ps) : Moves ps rs d (d.onHealth f) :=
  ⟨fun x hx => by cases x <;> simp_all [Same], fun _ _ => rfl, .refl d, .refl d.buf⟩

theorem moves_onTel (d : Dev) (f : Telem → Telem) (hp : .tel ∈ ps) : Moves ps rs d (d.onTel f) :=
  ⟨fun x hx => by cases x <;> simp_all [Same], fun _ _ => rfl, .refl d, .refl d.buf⟩

/-- A change of the host interface that leaves the channels, the host's access and the vintage. -/
theorem moves_onHost (d : Dev) {f : HostIf → HostIf} (hf : (f d.host).chan = d.host.chan) (ha : SameAccess d (d.onHost f))
    (hp : .host ∈ ps) : Moves ps rs d (d.onHost f) :=
  ⟨fun x hx => by cases x <;> simp_all [Same], fun _ _ => rfl, ha, .refl d.buf⟩

theorem moves_fresh (d : Dev) : Moves ps rs d (fresh d).2 := ⟨fun x _ => by cases x <;> simp [Same], fun _ _ => rfl, .refl d, .refl d.buf⟩

theorem moves_bb (d : Dev) (i c : Nat) (l : List Byte) (hp : .tel ∈ ps) (ha : rs Reg.bbLost) : Moves ps rs d (bb d i c l) :=
  .ite (moves_onTel d _ hp) (moves_cnt d ha)

theorem moves_note (d : Dev) (k : Nat) (l : List Byte) (hp : .host ∈ ps) (ha : rs Reg.fwEvc) (hl : rs Reg.ntfLost) :
    Moves ps rs d (note d k l) :=
  .ite (.refl d) (.ite ((moves_onHost d rfl ⟨rfl, rfl, rfl⟩ hp).trans (moves_cnt _ ha)) (moves_cnt d hl))

theorem moves_healthEvent (d : Dev) (k : Nat) (l : List Byte) (ht : .tel ∈ ps) (hp : .host ∈ ps) (hb : rs Reg.bbLost)
    (ha : rs Reg.fwEvc) (hl : rs Reg.ntfLost) : Moves ps rs d (healthEvent d k l) :=
  (moves_bb d _ _ _ ht hb).trans (moves_note _ _ _ hp ha hl)

/-- Time that runs to a deadline; what it does to registers `Waited` says. -/
theorem Waited.moves {due : Nat} (w : Waited due d t) (hn : .now ∈ ps) (ht : .time ∈ ps) : Moves ps (fun _ => True) d t := by
  have host : Same .host d t := w.parts .host (by decide) (by decide)
  simp only [Same] at host
  exact ⟨fun x hx => w.parts x (fun e => hx (e ▸ hn)) fun e => hx (e ▸ ht), fun _ ha => absurd trivial ha,
    by simp only [SameAccess, host, and_self], by rw [w.parts .buf (by decide) (by decide)]; exact .refl _⟩

/-! ## Counting on a port -/

theorem rd_pcntAdd {p o n : Nat} (hc : portCounts d p = true) (ho : o ≠ Reg.pHalfEvc) :
    rd (pcntAdd d p o n) (Reg.port p + o) = (rd d (Reg.port p + o) + n) % two32 := by
  have ne : Reg.port p + o ≠ Reg.port p + Reg.pHalfEvc := fun e => ho (Nat.add_left_cancel e)
  simp only [pcntAdd, hc, if_true]
  split
  · rw [rd_cnt_ne _ ne, rd_cntAdd_self]
  · rw [rd_cntAdd_self]

theorem rd_pcnt {p o : Nat} (hc : portCounts d p = true) (ho : o ≠ Reg.pHalfEvc) :
    rd (pcnt d p o) (Reg.port p + o) = (rd d (Reg.port p + o) + 1) % two32 := rd_pcntAdd hc ho

/-- Whether a port counts is a matter of its `PORT_MODE` alone. -/
theorem ownPath_congr {d e : Dev} {p : Nat} (h : rd e (Reg.port p + Reg.pMode) = rd d (Reg.port p + Reg.pMode)) :
    ownPath e p = ownPath d p := by simp only [ownPath, h]

end Sys2Proof.Machine
end

section
/-! Lane training and the module management buses (R57 to R59, R98 to R104). -/

namespace Sys2Proof.Machine

open Sys2Proof

variable {d t : Dev} {s : State} {ps : List Piece} {rs : Nat → Prop}

/-! ## Buses -/

@[simp] theorem busOf_setBus_self (d : Dev) (b : Nat) (x : ModBus) : busOf (setBus d b x) b = x := tget_tput_self ..
theorem busOf_setBus_ne (d : Dev) {b c : Nat} (x : ModBus) (h : c ≠ b) : busOf (setBus d b x) c = busOf d c := tget_tput_ne _ _ x h
@[simp] theorem setBus_now (d : Dev) (b : Nat) (x : ModBus) : (setBus d b x).now = d.now := rfl

theorem moves_setBus (d : Dev) (b : Nat) (x : ModBus) (hp : .modBus ∈ ps) : Moves ps rs d (setBus d b x) :=
  ⟨fun y hy => by cases y <;> simp_all [Same, setBus], fun _ _ => rfl, .refl d, .refl d.buf⟩

theorem Moves.bus (h : Moves ps rs d t) (hp : .modBus ∉ ps) (b : Nat) : busOf t b = busOf d b := by
  have e : t.modBus = d.modBus := h.parts .modBus hp
  simp only [busOf, e]

@[simp] theorem busOf_begun (s : State) (b : Nat) : busOf (begun s) b = busOf s.dev b := rfl
@[simp] theorem busOf_settle (d : Dev) (b : Nat) : busOf (settle d) b = busOf d b := by simp only [busOf, settle_modBus]

/-- The bus as `failBus` leaves it, and the reports that follow. -/
theorem failBus_reports (d : Dev) (b : Nat) : Moves [.host, .tel] (fun _ => True)
    (setBus d b { busOf d b with failed := true, stuck := false }) (failBus d b) :=
  (moves_healthEvent _ _ _ (by simp) (by simp) trivial trivial trivial).trans (moves_note _ _ _ (by simp) trivial trivial)

theorem busOf_failBus (d : Dev) (b c : Nat) :
    busOf (failBus d b) c = if c = b then { busOf d b with failed := true, stuck := false } else busOf d c := by
  rw [(failBus_reports d b).bus (by simp)]
  split
  · subst c; simp
  · exact busOf_setBus_ne d _ (by assumption)

theorem moves_failBus (d : Dev) (b : Nat) : Moves [.modBus, .host, .tel] (fun _ => True) d (failBus d b) :=
  (moves_setBus d b _ (by simp)).trans ((failBus_reports d b).mono (by simp) fun _ h => h)

/-- The bus is found stuck 100 µs on. -/
theorem modBusStuck_runs {b : Nat} (ha : alive d = true) (hf : (busOf d b).failed = false) (hs : (busOf d b).stuck = false) :
    ∃ e, Waited (d.now + 100 * ps_us) d e ∧ modBusStuck b d = setBus e b { stuck := true, nextAt := e.now } :=
  ⟨_, waited_reach .., if_neg (by simp [ha, hf, hs])⟩

theorem modBusStuck_marks {b : Nat} (hb : b < 16) (ha : alive s.dev = true) (hf : (busOf s.dev b).failed = false)
    (hs : (busOf s.dev b).stuck = false) : Ends (.modBusStuck b) s fun t =>
      (busOf t b).stuck = true ∧ (busOf t b).clears = 0 ∧ (busOf t b).nextAt = t.now ∧ s.dev.now + 100 * ps_us ≤ t.now ∧
        OnlyParts [.now, .time, .modBus] s.dev t := by
  obtain ⟨e, w, he⟩ := modBusStuck_runs (d := begun s) ha hf hs
  refine ends_of_runIf (f := modBusStuck b) rfl (decide_eq_true hb) ?_
  rw [he, busOf_settle, busOf_setBus_self, settle_now, setBus_now]
  exact ⟨rfl, rfl, rfl, w.due, ((w.moves (by simp) (by simp)).trans (moves_setBus _ b _ (by simp))).onlyParts⟩

/-! ### A clear of a stuck bus -/

/-- The bus with one more clear on its pins. -/
def ModBus.cleared (x : ModBus) : ModBus := { x with clears := x.clears + 1, pulses := x.pulses + 9, stops := x.stops + 1 }

/-- A clear runs for `clearTime` from when it was due; then the bus is free, tried again 1 ms later, or given up. -/
theorem modBusClear_runs {b : Nat} (released : Bool) (h : (busOf d b).stuck = true) :
    ∃ e, Waited ((busOf d b).nextAt + clearTime b) d e ∧ modBusClear b released d =
      if released then setBus e b { pulses := (busOf d b).cleared.pulses, stops := (busOf d b).cleared.stops }
      else if 3 ≤ (busOf d b).cleared.clears then failBus (setBus e b (busOf d b).cleared) b
      else setBus e b { (busOf d b).cleared with nextAt := e.now + ps_ms } :=
  ⟨_, waited_reach .., if_neg (by simp [h])⟩

theorem modBusClear_recovers {b : Nat} (hb : b < 16) (hs : (busOf s.dev b).stuck = true) : Ends (.modBusClear b true) s fun t =>
    busOf t b = { pulses := (busOf s.dev b).pulses + 9, stops := (busOf s.dev b).stops + 1 } ∧
      (busOf s.dev b).nextAt + clearTime b ≤ t.now ∧ OnlyParts [.now, .time, .modBus] s.dev t := by
  obtain ⟨e, w, he⟩ := modBusClear_runs (d := begun s) true hs
  refine ends_of_runIf (f := modBusClear b true) rfl (decide_eq_true hb) ?_
  rw [he, if_pos rfl, busOf_settle, busOf_setBus_self, settle_now, setBus_now]
  exact ⟨rfl, w.due, ((w.moves (by simp) (by simp)).trans (moves_setBus _ b _ (by simp))).onlyParts⟩

theorem modBusClear_goesOn {b : Nat} (hb : b < 16) (hs : (busOf s.dev b).stuck = true) (hc : (busOf s.dev b).clears < 2) :
    Ends (.modBusClear b false) s fun t =>
      (busOf t b).clears = (busOf s.dev b).clears + 1 ∧ (busOf t b).nextAt = t.now + ps_ms ∧ (busOf t b).failed = (busOf s.dev b).failed ∧
        (busOf t b).pulses = (busOf s.dev b).pulses + 9 ∧ (busOf t b).stops = (busOf s.dev b).stops + 1 ∧
        (busOf s.dev b).nextAt + clearTime b ≤ t.now ∧ OnlyParts [.now, .time, .modBus] s.dev t := by
  obtain ⟨e, w, he⟩ := modBusClear_runs (d := begun s) false hs
  have few : ¬3 ≤ (busOf (begun s) b).cleared.clears := by
    simp only [ModBus.cleared, busOf_begun]; omega
  refine ends_of_runIf (f := modBusClear b false) rfl (decide_eq_true hb) ?_
  rw [he, if_neg Bool.false_ne_true, if_neg few, settle_now, busOf_settle, busOf_setBus_self, setBus_now]
  exact ⟨rfl, rfl, rfl, rfl, rfl, w.due, ((w.moves (by simp) (by simp)).trans (moves_setBus _ b _ (by simp))).onlyParts⟩

theorem modBusClear_thirdFails {b : Nat} (hb : b < 16) (hs : (busOf s.dev b).stuck = true) (hc : 2 ≤ (busOf s.dev b).clears) :
    Ends (.modBusClear b false) s fun t => (busOf t b).failed = true ∧ (busOf t b).stuck = false ∧
      (busOf t b).pulses = (busOf s.dev b).pulses + 9 ∧ (busOf t b).stops = (busOf s.dev b).stops + 1 ∧
        OnlyParts [.now, .time, .modBus, .host, .tel] s.dev t := by
  obtain ⟨e, w, he⟩ := modBusClear_runs (d := begun s) false hs
  have third : 3 ≤ (busOf (begun s) b).cleared.clears := by
    simp only [ModBus.cleared, busOf_begun]; omega
  refine ends_of_runIf (f := modBusClear b false) rfl (decide_eq_true hb) ?_
  rw [he, if_neg Bool.false_ne_true, if_pos third, busOf_settle, busOf_failBus, if_pos rfl, busOf_setBus_self]
  exact ⟨rfl, rfl, rfl, rfl, ((w.moves (by simp) (by simp)).trans
    ((moves_setBus _ b _ (by simp)).trans ((moves_failBus _ b).mono (by simp) fun _ h => h))).onlyParts⟩

/-- A device that stretches the clock too long fails its bus, and no other (R103). -/
theorem modBusStretchLimit_fails {b : Nat} (hb : b < 16) (ha : alive s.dev = true) (hf : (busOf s.dev b).failed = false) :
    Ends (.modBusStretchLimit b) s fun t =>
      (busOf t b).failed = true ∧ (∀ c, c ≠ b → busOf t c = busOf s.dev c) ∧ OnlyParts [.modBus, .host, .tel] s.dev t := by
  refine ends_of_runIf (f := modBusStretchLimit b) rfl (decide_eq_true hb) ?_
  have run : modBusStretchLimit b (begun s) = failBus (begun s) b := if_neg (by simp [show alive (begun s) = true from ha, hf])
  rw [run]
  refine ⟨by simp [busOf_failBus], fun c hc => ?_, (moves_failBus (begun s) b).onlyParts⟩
  rw [busOf_settle, busOf_failBus, if_neg hc, busOf_begun]

/-- `BUS_RECOVER` of a failed bus makes it as new (R104). -/
theorem busRecover_restores {ch b : Nat} {sl : Slot} (hc : ch < 16) (hs : Served s.dev ch sl) (ha : Accepted s.dev ch sl 0x101 1)
    (hl : sl.len = 4) (hb : b = le sl.payload 0 1) (hb16 : b < 16) (hz : le sl.payload 1 3 = 0) (hf : (busOf s.dev b).failed = true) :
    Ends (.busRecover ch) s fun t =>
      AnsweredOk s.dev t ch sl [] ∧ busOf t b = {} ∧ (∀ c, c ≠ b → busOf t c = busOf s.dev c) ∧
        OnlyParts [.chan, .cc, .modBus] s.dev t ∧ OnlyRegsBeside ch [] s.dev t := by
  have flag : slotFlag 0 sl = true := by
    obtain ⟨-, -, hfl, -⟩ := ha
    simp [slotFlag, hfl, bit]
  have body : recoverRes (begun s) sl = { dev := setBus (begun s) b {} } := by
    simp [recoverRes, ← hb, hz, hf, show ¬16 ≤ b by omega]
  have served : Served (setBus (begun s) b {}) ch sl := hs
  refine ends_cmd rfl (decide_eq_true hc) hc hs ha flag (by simp [lenIs, hl]) (by decide) ?_
  rw [body]
  have bus (c : Nat) : busOf (complete ch sl { dev := setBus (begun s) b {} }) c = busOf (setBus (begun s) b {}) c := by
    have same := complete_same (r := { dev := setBus (begun s) b {} }) hc served (x := .modBus) (by decide) (by decide) (by decide)
    simp only [busOf, show (complete ch sl { dev := setBus (begun s) b {} }).modBus = _ from same]
  have moved : Moves [.chan, .cc, .modBus] (fun _ => False) (begun s) (setBus (begun s) b {}) := moves_setBus _ b _ (by simp)
  refine ⟨complete_answered s.dev hc served rfl rfl, by simp [bus], fun c hne => ?_, ?_, ?_⟩
  · rw [busOf_settle, bus, busOf_setBus_ne _ _ hne, busOf_begun]
  · exact complete_onlyParts hc served (by simp) (by simp) (.inl rfl) fun x hx => Same.trans (begun_same s x) (moved.parts x hx)
  · exact complete_onlyRegs hc served fun a _ _ => rfl

/-! ## Lane training -/

theorem sumOf_congr {α : Type} {l : List α} {f g : α → Nat} (h : ∀ x ∈ l, f x = g x) : sumOf l f = sumOf l g := by
  unfold sumOf
  generalize 0 = n
  induction l generalizing n with
  | nil => rfl
  | cons x r ih =>
    simp only [List.foldl_cons, h x (by simp)]
    exact ih (fun y hy => h y (by simp [hy])) _

/-- Where every lane trained, the attempts that were lost and the most that one lane used. -/
theorem sumOf_triesLost {ks : List Nat} (h : ∀ k ∈ ks, k ≠ 0) : sumOf ks triesLost = sumOf ks (· - 1) :=
  sumOf_congr fun k hk => by simp [triesLost, h k hk]

theorem foldl_triesUsed {ks : List Nat} (h : ∀ k ∈ ks, k ≠ 0) (n : Nat) :
    ks.foldl (fun a k => max a (triesUsed k)) n = ks.foldl max n := by
  induction ks generalizing n with
  | nil => rfl
  | cons k r ih =>
    simp only [List.foldl_cons, show triesUsed k = k by simp [triesUsed, h k (by simp)]]
    exact ih (fun y hy => h y (by simp [hy])) _

/-- Training of a port without a link counts the abandoned attempts and notes the lanes. -/
theorem trainPort_down {p : Nat} (ks : List Nat) (hp : p < 512) (hl : flag d (psts p) 0 = false) : trainPort d p ks =
    setPort (pcntAdd d p Reg.trainAbandon (sumOf ks triesLost)) p
      fun x => { x with lanesTrained := (ks.filter (· ≠ 0)).length, trainDone := true } := by
  simp [trainPort, hl, abandon, show ¬512 ≤ p by omega]

theorem moves_trainPort {p : Nat} (ks : List Nat) (hp : p < 512) (hl : flag d (psts p) 0 = false) :
    Moves [.ports] (· ∈ [Reg.port p + Reg.trainAbandon, Reg.port p + Reg.pHalfEvc]) d (trainPort d p ks) := by
  rw [trainPort_down ks hp hl]
  exact (moves_pcntAdd d _ (by simp) (by simp)).trans (moves_setPort _ _ _ (by simp))

theorem chanReg_port (ch p o : Nat) (hc : ch < 16) : ¬ChanReg ch (Reg.port p + o) := by
  simp only [ChanReg, Reg.chan, Reg.port]; omega

/-- What completion and the delivery of interrupts leave of port registers. -/
theorem rd_complete_port {ch : Nat} {sl : Slot} {r : Res} (hc : ch < 16) (hs : Served r.dev ch sl) (p o : Nat) (hp : p < 512)
    (ho : o < 0x1000) : rd (settle (complete ch sl r)) (Reg.port p + o) = rd r.dev (Reg.port p + o) := by
  rw [rd_settle, rd_complete hc hs _ _ (chanReg_port ch p o hc)] <;>
    simp only [Reg.port, Reg.irqMsgCnt, Reg.coopBadFree, Reg.coopBadFreeLast, Reg.cc] <;> omega

theorem laneTrain_answers {ch p : Nat} {tries ks : List Nat} {r : ModeRow} {sl : Slot} (hc : ch < 16) (hs : Served s.dev ch sl)
    (ha : Accepted s.dev ch sl 0x102 0) (hlen : sl.len = 4) (hp : p = le sl.payload 0 2) (hz : le sl.payload 2 2 = 0) (hp512 : p < 512)
    (own : ownPath s.dev p = true) (row : portRow s.dev p = some r) (ht : noTraining s.dev p = false)
    (hl : flag s.dev (psts p) 0 = false) (h3 : ∀ k ∈ tries, k ≤ 3) (hks : ks = (List.range r.lanes).map (fun i => tries.getD i 0))
    (trained : ∀ k ∈ ks, k ≠ 0) : Ends (.laneTrain ch tries) s fun t =>
      AnsweredOk s.dev t ch sl (toLe 1 r.lanes ++ toLe 1 (ks.foldl max 0) ++ toLe 2 0) ∧
        rd t (Reg.port p + Reg.trainAbandon) = (rd s.dev (Reg.port p + Reg.trainAbandon) + sumOf ks (· - 1)) % two32 ∧
        (portOf t p).lanesTrained = r.lanes ∧ (portOf t p).trainDone = true ∧ (∀ q, q ≠ p → portOf t q = portOf s.dev q) ∧
        OnlyParts [.chan, .cc, .ports] s.dev t ∧
        OnlyRegsBeside ch [Reg.port p + Reg.trainAbandon, Reg.port p + Reg.pHalfEvc] s.dev t := by
  have count : laneCount (begun s) p = r.lanes := by
    simp [laneCount, show portRow (begun s) p = some r from row, show ¬512 ≤ p by omega]
  have lanes : laneTries (begun s) p tries = ks := by rw [laneTries, count, hks]
  have all : ks.filter (· ≠ 0) = ks := List.filter_eq_self.mpr fun k hk => by simp [trained k hk]
  have length : ks.length = r.lanes := by simp [hks]
  have moved := moves_trainPort (d := begun s) ks hp512 hl
  have served : Served (trainPort (begun s) p ks) ch sl :=
    Served.of_same hs (moved.boot (by simp)) (moved.parts .chan (by simp))
      moved.access.1 moved.access.2.1 (moved.regs _ (by simp [Reg.chan, Reg.port, Reg.mSts]; omega))
  have after : laneCount (trainPort (begun s) p ks) p = r.lanes := by
    rw [← count]
    simp only [laneCount, portRow, moved.fld (a := Reg.port p + Reg.pMode) (by simp [Reg.pMode, Reg.trainAbandon, Reg.pHalfEvc])]
  have body : trainRes tries (begun s) sl =
      { dev := trainPort (begun s) p ks, payload := toLe 1 r.lanes ++ toLe 1 (ks.foldl max 0) ++ toLe 2 0 } := by
    have e : ¬(513 < p ∨ le sl.payload 2 2 ≠ 0) := by omega
    simp only [trainRes, ← hp, if_neg e, if_neg (show ¬512 ≤ p by omega), show ownPath (begun s) p = true from own,
      show noTraining (begun s) p = false from ht, lanes, after, all, length, foldl_triesUsed trained]
    simp
  refine ends_cmd (op := 0x102) (fl := 0) (flags := 0) rfl (decide_eq_true ⟨hc, by simpa using h3⟩) hc hs ha rfl (by simp [lenIs, hlen])
    rfl ?_
  rw [body]
  have ports : (complete ch sl { dev := trainPort (begun s) p ks, payload := toLe 1 r.lanes ++ toLe 1 (ks.foldl max 0) ++ toLe 2 0 }).ports =
      (trainPort (begun s) p ks).ports := complete_same hc served (x := .ports) (by decide) (by decide) (by decide)
  have port (q : Nat) : portOf (settle (complete ch sl
      { dev := trainPort (begun s) p ks, payload := toLe 1 r.lanes ++ toLe 1 (ks.foldl max 0) ++ toLe 2 0 })) q =
      portOf (trainPort (begun s) p ks) q := by simp only [portOf, settle_ports, ports]
  refine ⟨complete_answered s.dev hc served ?_ rfl, ?_, ?_, ?_, fun q hq => ?_, ?_, ?_⟩
  · exact moved.regs _ (by simp [Reg.chan, Reg.port, Reg.mRspEvc]; omega)
  · rw [rd_complete_port hc served p _ hp512 (by decide)]
    rw [trainPort_down (d := begun s) ks hp512 hl, rd_setPort, rd_pcntAdd (d := begun s) own (by decide), sumOf_triesLost trained, rd_begun]
  · rw [port, trainPort_down (d := begun s) ks hp512 hl, portOf_setPort_self, all, length]
  · rw [port, trainPort_down (d := begun s) ks hp512 hl, portOf_setPort_self]
  · rw [port, trainPort_down (d := begun s) ks hp512 hl, portOf_setPort_ne _ _ hq]
    exact (moves_pcntAdd (ps := []) (rs := fun _ => True) (begun s) _ trivial trivial).port (by simp) q
  · exact complete_onlyParts hc served (by simp) (by simp) (.inl rfl) fun x hx =>
      Same.trans (begun_same s x) (moved.parts x fun hm => hx (by simp_all))
  · exact complete_onlyRegs hc served fun a ha _ => moved.regs a ha

/-- An attempt of a port's training outside the command is counted (R58). -/
theorem abandon_counts {p : Nat} (hp : p < 512) (own : ownPath s.dev p = true) (ht : noTraining s.dev p = false) :
    Ends (.trainingAttemptAbandon p) s fun t =>
      rd t (Reg.port p + Reg.trainAbandon) = (rd s.dev (Reg.port p + Reg.trainAbandon) + 1) % two32 ∧ OnlyParts [] s.dev t ∧
        OnlyRegs [Reg.port p + Reg.trainAbandon, Reg.port p + Reg.pHalfEvc] s.dev t := by
  refine ends_of_runIf (f := trainingAttemptAbandon p) rfl (decide_eq_true (by omega)) ?_
  have run : trainingAttemptAbandon p (begun s) = pcntAdd (begun s) p Reg.trainAbandon 1 := by
    simp [trainingAttemptAbandon, abandon, show ¬512 ≤ p by omega, show ownPath (begun s) p = true from own,
      show noTraining (begun s) p = false from ht]
  have moved : Moves [] (· ∈ [Reg.port p + Reg.trainAbandon, Reg.port p + Reg.pHalfEvc]) (begun s)
      (pcntAdd (begun s) p Reg.trainAbandon 1) := moves_pcntAdd _ _ (by simp) (by simp)
  rw [run]
  refine ⟨?_, moved.onlyParts, moved.onlyRegs⟩
  rw [rd_settle _ (by simp only [Reg.port, Reg.irqMsgCnt]; omega), rd_pcntAdd (d := begun s) own (by decide), rd_begun]

/-- Settles O20: clause by clause, the training command, an attempt outside it, and the steps of a bus that is stuck. -/
theorem lanesTrainAndBusesRecover : Obligations.LanesTrainAndBusesRecover := fun _ =>
  ⟨fun _ _ _ _ _ _ hc hs ha hlen hp hz hp512 own row ht hl h3 hks trained =>
      laneTrain_answers hc hs ha hlen hp hz hp512 own row ht hl h3 hks trained,
    fun _ => abandon_counts, fun _ => modBusStuck_marks,
    fun _ hb hs => ⟨modBusClear_recovers hb hs, modBusClear_goesOn hb hs, modBusClear_thirdFails hb hs⟩,
    fun _ => modBusStretchLimit_fails, fun _ _ _ => busRecover_restores⟩

end Sys2Proof.Machine
end

section
/-! Copies that leave the device: what a discard, the end of a transmission and the loss of a link move (R245, R264, R277, R284, R836). -/

namespace Sys2Proof.Machine

open Sys2Proof

variable {ps : List Piece} {rs : Nat → Prop}

/-- A register above the ports' blocks: of a tile, a complex, the control complex. -/
abbrev AbovePorts (a : Nat) : Prop := Reg.tile 0 ≤ a

theorem abovePorts_tile (k o : Nat) : AbovePorts (Reg.tile k + o) := by simp only [AbovePorts, Reg.tile]; omega

theorem abovePorts_egr (p o : Nat) : AbovePorts (Reg.egr p + o) := by simp only [AbovePorts, Reg.egr, Reg.tile]; omega

theorem not_abovePorts_port {p o : Nat} (hp : p < 512) (ho : o < 0x1000) : ¬AbovePorts (Reg.port p + o) := by
  simp only [AbovePorts, Reg.tile, Reg.port]; omega

section
variable (d : Dev) (hb : .buf ∈ ps)
include hb

theorem moves_setCopy (c : Nat) (g : Copy → Copy) : Moves ps rs d (setCopy d c g) :=
  moves_onBuf d _ hb (by cases tfind d.buf.copies c <;> exact ⟨rfl, rfl⟩)

theorem moves_sweepFrame (f : Nat) : Moves ps rs d (sweepFrame d f) := by
  unfold sweepFrame
  split
  · exact .refl d
  · exact .ite (moves_onBuf d _ hb) (.refl d)

theorem moves_setSeg (k v : Nat) (x : Segment) : Moves ps rs d (setSeg d k v x) := moves_onBuf d _ hb
theorem moves_freeRack (r : Rack) : Moves ps rs d (freeRack d r) := moves_onBuf d _ hb

theorem moves_freeRacksDone (k v : Nat) : Moves ps rs d (freeRacksDone d k v) :=
  (Moves.foldl _ (fun d r _ => moves_freeRack d hb r) d).trans (.ite (moves_setSeg _ hb ..) (.refl _))

theorem moves_dropRec (k v c : Nat) : Moves ps rs d (dropRec d k v c) :=
  .ite ((moves_setSeg d hb ..).trans (moves_freeRacksDone _ hb k v)) (.refl d)

end

theorem moves_checkSpill (d : Dev) (k v : Nat) (hb : .buf ∈ ps) (hr : ∀ a, AbovePorts a → rs a) : Moves ps rs d (checkSpill d k v) :=
  .ite ((moves_onBuf d _ hb).trans (moves_tcnt _ (hr _ (abovePorts_tile ..)))) (.refl d)

theorem moves_endSpill (d : Dev) (k v : Nat) (left : Bool) (hb : .buf ∈ ps) (hr : ∀ a, AbovePorts a → rs a) :
    Moves ps rs d (endSpill d k v left) :=
  .ite (.refl d) ((Moves.foldl _ (fun d r _ => moves_freeRack d hb r) d).trans ((moves_onBuf _ _ hb).trans (moves_checkSpill _ k v hb hr)))

/-- What follows a change of a VOQ moves no more than the change, the buffer and the tile's counters. -/
theorem moves_voqChange {d : Dev} {f : Dev → Dev} (k v : Nat) (h : Moves ps rs d (f d)) (hb : .buf ∈ ps)
    (hr : ∀ a, AbovePorts a → rs a) : Moves ps rs d (voqChange k v f d) :=
  h.trans ((Moves.ite (moves_tcnt _ (hr _ (abovePorts_tile ..))) (.refl _)).trans (moves_endSpill _ k v _ hb hr))

theorem moves_sendPfc (d : Dev) (p c time : Nat) (he : .egr ∈ ps) : Moves ps rs d (sendPfc d p c time) :=
  .ite (.refl d) (moves_setEgr d p _ he)

theorem moves_xoffExits (d : Dev) (hb : .buf ∈ ps) (he : .egr ∈ ps) : Moves ps rs d (xoffExits d) :=
  Moves.foldl _ (fun d _ _ => .ite ((moves_onBuf d _ hb).trans (moves_sendPfc _ _ _ _ he)) (.refl d)) d

theorem moves_injectDone (d : Dev) (f status stamp : Nat) (hh : .host ∈ ps) : Moves ps rs d (injectDone d f status stamp) := by
  unfold injectDone
  split
  · exact .refl d
  · refine moves_onHost d ?_ ?_ hh
    · dsimp only
      split <;> rfl
    · dsimp only [SameAccess, Dev.onHost]
      split <;> exact ⟨rfl, rfl, rfl⟩

theorem moves_removeCopy (d : Dev) (c : Nat) (hb : .buf ∈ ps) (he : .egr ∈ ps) : Moves ps rs d (removeCopy d c) := by
  unfold removeCopy
  split
  · exact .refl d
  · exact (moves_onBuf d _ hb).trans ((moves_setEgr _ _ _ he).trans (moves_sweepFrame _ hb _))

section
variable (d : Dev) (hb : .buf ∈ ps) (he : .egr ∈ ps) (hh : .host ∈ ps) (hr : ∀ a, AbovePorts a → rs a)
include hb he hh hr

theorem moves_discardCopy (c : Nat) : Moves ps rs d (discardCopy d c) := by
  unfold discardCopy
  split
  · exact .refl d
  · refine Moves.trans (.ite (moves_injectDone d _ 5 0 hh) (.refl d)) (.trans (moves_voqChange _ _ ?_ hb hr) (moves_xoffExits _ hb he))
    exact (moves_removeCopy _ c hb he).trans (moves_dropRec _ hb _ _ c)

theorem moves_dropDown (k c : Nat) : Moves ps rs d (dropDown d k c) := by
  unfold dropDown
  split
  · exact .refl d
  · refine Moves.trans ?_ (moves_discardCopy _ hb he hh hr c)
    split
    · exact moves_cnt d (hr _ (abovePorts_tile ..))
    · exact moves_tcnt d (hr _ (abovePorts_tile ..))

end

/-! ## Tags of queue heads (R833) -/

theorem moves_tagHead (d : Dev) (p c start : Nat) (he : .egr ∈ ps) : Moves ps rs d (tagHead d p c start) := by
  unfold tagHead
  split <;> exact moves_setEgr d p _ he

theorem moves_syncHead (d : Dev) (p c : Nat) (he : .egr ∈ ps) : Moves ps rs d (syncHead p d c) := by
  unfold syncHead
  dsimp only
  split
  · exact .refl d
  · exact .ite (.refl d) (moves_tagHead d p c _ he)

theorem moves_syncHeads (d : Dev) (p : Nat) (he : .egr ∈ ps) : Moves ps rs d (syncHeads d p) :=
  Moves.foldl _ (fun d c _ => moves_syncHead d p c he) d

/-! ## A port without a link (R836) -/

theorem moves_clearPort (d : Dev) (p : Nat) (hb : .buf ∈ ps) (he : .egr ∈ ps) (hh : .host ∈ ps) (hr : ∀ a, AbovePorts a → rs a) :
    Moves ps rs d (clearPort d p) := by
  have removed (l : List (Nat × Copy)) (d : Dev) : Moves ps rs d (l.foldl (fun d e => removeCopy d e.1) d) :=
    Moves.foldl l (fun d e _ => moves_removeCopy d e.1 hb he) d
  have dropped (k : Nat × Copy → Nat) (l : List (Nat × Copy)) (d : Dev) : Moves ps rs d (l.foldl (fun d e => dropDown d (k e) e.1) d) :=
    Moves.foldl l (fun d e _ => moves_dropDown d hb he hh hr (k e) e.1) d
  unfold clearPort
  exact (removed _ d).trans ((dropped _ _ _).trans ((dropped _ _ _).trans ((moves_setFlag _ 12 false (hr _ (abovePorts_egr ..))).trans
    ((moves_setEgr _ p _ he).trans (moves_syncHeads _ p he)))))

end Sys2Proof.Machine
end

section
/-! Links and MAC merge (Table 02-7, R73, R74, R821), and the management ports (Table 02-10, R61, R63). -/

namespace Sys2Proof.Machine

open Sys2Proof

variable {d t : Dev} {s : State} {ps : List Piece} {rs : Nat → Prop}

/-! ## MAC merge -/

section
variable (d : Dev) {p : Nat} (hp : .ports ∈ ps) (hs : rs (psts p))
include hp hs

theorem moves_mmPlain : Moves ps rs d (mmPlain d p) := (moves_setFlag d 5 true hs).trans (moves_setPort _ _ _ hp)
theorem moves_mmStop : Moves ps rs d (mmStop d p) := (moves_setFlag d 5 false hs).trans (moves_setPort _ _ _ hp)
theorem moves_mmVerify : Moves ps rs d (mmVerify d p) :=
  (moves_setFlag d 6 false hs).trans ((moves_setFlag _ 5 false hs).trans (moves_setPort _ _ _ hp))
theorem moves_mmStart : Moves ps rs d (mmStart d p) := .ite (.ite (moves_mmVerify d hp hs) (moves_mmPlain d hp hs)) (.refl d)

end

/-- MAC merge as a link comes up concerns `MM_ACTIVE` and the verification's outcome of `PORT_STS` alone. -/
theorem fld_mmStart (d : Dev) (p lo w : Nat) (h : lo + w ≤ 5) : fld (mmStart d p) (psts p) lo w = fld d (psts p) lo w := by
  have other (e : Dev) (i : Nat) (b : Bool) (hi : 5 ≤ i) : fld (setFlag e (psts p) i b) (psts p) lo w = fld e (psts p) lo w :=
    fld_setFld_other e _ i 1 _ lo w (by omega) (by omega)
  unfold mmStart
  split
  · split
    · exact (other _ 5 false (by decide)).trans (other d 6 false (by decide))
    · exact other d 5 true (by decide)
  · rfl

theorem flag_eq_fld (d : Dev) (a i : Nat) : flag d a i = decide (fld d a i 1 = 1) := by
  simp [flag, fld, bit, bits, Nat.shiftRight_eq_div_pow]

theorem flag_mmStart (d : Dev) (p : Nat) {i : Nat} (h : i < 5) : flag (mmStart d p) (psts p) i = flag d (psts p) i := by
  rw [flag_eq_fld, flag_eq_fld, fld_mmStart d p i 1 (by omega)]

theorem mmStop_inactive (d : Dev) (p : Nat) : flag (mmStop d p) (psts p) 5 = false :=
  flag_setFlag_self d (psts p) 5 false (by decide)

theorem mmStop_verify (d : Dev) (p : Nat) : (portOf (mmStop d p) p).verify = none := by rw [mmStop, portOf_setPort_self]

@[simp] theorem portOf_setEgr (d : Dev) (p q : Nat) (f : EgrPort → EgrPort) : portOf (setEgr d p f) q = portOf d q := rfl
@[simp] theorem egrOf_setPort (d : Dev) (p q : Nat) (f : PortSt → PortSt) : egrOf (setPort d p f) q = egrOf d q := rfl

/-! ## The link bits of `PORT_STS` -/

/-- A link comes up or falls, and each is counted for the host (R660). -/
theorem moves_setLink (d : Dev) {p : Nat} (up : Bool) (hs : rs (psts p)) (hl : rs (Reg.port p + Reg.pLinkEvc)) :
    Moves ps rs d (setLink d p up) :=
  (moves_setFld d 0 3 _ hs).trans ((moves_setFlag _ 3 _ hs).trans ((moves_setFlag _ 4 false hs).trans (moves_cnt _ hl)))

theorem psts_ne {p o : Nat} (h : o ≠ Reg.pSts) : Reg.port p + o ≠ psts p := fun e => h (Nat.add_left_cancel e)

theorem fld_setLink (d : Dev) (p lo w : Nat) (up : Bool) (h : lo + w ≤ 3) :
    fld (setLink d p up) (psts p) lo w = fld (setFld d (psts p) 0 3 (if up then 7 else 0)) (psts p) lo w := by
  have evc : psts p ≠ Reg.port p + Reg.pLinkEvc := (psts_ne (by decide)).symm
  have other (e : Dev) (i : Nat) (b : Bool) (hi : 3 ≤ i) : fld (setFlag e (psts p) i b) (psts p) lo w = fld e (psts p) lo w :=
    fld_setFld_other e _ i 1 _ lo w (by omega) (by omega)
  unfold setLink
  simp only [fld, rd_cnt_ne _ evc]
  exact (other _ 4 false (by decide)).trans (other _ 3 _ (by decide))

theorem setLink_bits (d : Dev) (p : Nat) (up : Bool) : fld (setLink d p up) (psts p) 0 3 = if up then 7 else 0 := by
  rw [fld_setLink d p 0 3 up (by decide), fld_setFld_self _ _ _ _ _ (by decide)]
  cases up <;> rfl

theorem setLink_an (d : Dev) (p : Nat) (up : Bool) :
    flag (setLink d p up) (psts p) 3 = (up && flag d (Reg.port p + Reg.pMode) 9) := by
  have evc : psts p ≠ Reg.port p + Reg.pLinkEvc := (psts_ne (by decide)).symm
  unfold setLink
  simp only [flag, rd_cnt_ne _ evc]
  refine (flag_setFlag_other _ (psts p) 4 3 false (by decide) (by decide)).trans ?_
  rw [flag_setFlag_self _ _ _ _ (by decide)]
  cases up
  · rfl
  · exact congrArg (bit · 9) (rd_setFld_ne d 0 3 7 (psts_ne (by decide)))

theorem setLink_counts (d : Dev) (p : Nat) (up : Bool) :
    rd (setLink d p up) (Reg.port p + Reg.pLinkEvc) = (rd d (Reg.port p + Reg.pLinkEvc) + 1) % two32 := by
  have evc : Reg.port p + Reg.pLinkEvc ≠ psts p := psts_ne (by decide)
  rw [setLink, rd_cnt_self, rd_setFlag_ne _ _ _ evc, rd_setFlag_ne _ _ _ evc, rd_setFld_ne _ _ _ _ evc]

theorem port_ne_irqMsgCnt (p o : Nat) : Reg.port p + o ≠ Reg.irqMsgCnt := by simp only [Reg.port, Reg.irqMsgCnt]; omega
theorem psts_ne_irqMsgCnt (p : Nat) : psts p ≠ Reg.irqMsgCnt := port_ne_irqMsgCnt p _
theorem mgmt_ne_irqMsgCnt (n o : Nat) : Reg.mgmt n + o ≠ Reg.irqMsgCnt := by simp only [Reg.mgmt, Reg.irqMsgCnt]; omega

theorem linkUp_shows {p : Nat} (hp : p < 512) (own : ownPath s.dev p = true) (hl : flag s.dev (psts p) 0 = false) :
    Ends (.linkUp p) s fun t =>
      fld t (psts p) 0 3 = 7 ∧ flag t (psts p) 3 = flag s.dev (Reg.port p + Reg.pMode) 9 ∧
        rd t (Reg.port p + Reg.pLinkEvc) = (rd s.dev (Reg.port p + Reg.pLinkEvc) + 1) % two32 ∧
        OnlyParts [.ports] s.dev t ∧ OnlyRegs [psts p, Reg.port p + Reg.pLinkEvc] s.dev t := by
  refine ends_of_runIf (f := linkUp p) rfl (decide_eq_true (by omega)) ?_
  have run : linkUp p (begun s) = mmStart (setLink (begun s) p true) p := by
    simp [linkUp, hl, show ownPath (begun s) p = true from own, show ¬512 ≤ p by omega]
  have moved : Moves [.ports] (· ∈ [psts p, Reg.port p + Reg.pLinkEvc]) (begun s) (mmStart (setLink (begun s) p true) p) :=
    (moves_setLink _ true (by simp) (by simp)).trans (moves_mmStart _ (by simp) (by simp))
  have evc : rd (mmStart (setLink (begun s) p true) p) (Reg.port p + Reg.pLinkEvc) = rd (setLink (begun s) p true) _ :=
    (moves_mmStart (ps := [.ports]) (rs := (· = psts p)) _ (by simp) rfl).regs _ (psts_ne (by decide))
  rw [run]
  refine ⟨?_, ?_, ?_, moved.onlyParts, moved.onlyRegs⟩
  · rw [fld_settle _ _ _ (psts_ne_irqMsgCnt p), fld_mmStart _ _ _ _ (by decide), setLink_bits, if_pos rfl]
  · rw [flag_settle _ _ (psts_ne_irqMsgCnt p), flag_mmStart _ _ (by decide), setLink_an, Bool.true_and, flag_begun]
  · rw [rd_settle _ (port_ne_irqMsgCnt p _), evc, setLink_counts, rd_begun]

/-! ## A link falls -/

/-- The locks that a port without a link keeps, as Table 02-7 shows them. -/
def locksLeft (d : Dev) (p : Nat) (pcs fec : Bool) : Nat :=
  if fld d (Reg.port p + Reg.pMode) 6 3 = 0 ∨ (pcs = true ∧ fec = true) then 0 else b2n pcs + 2 * b2n fec

theorem setLocks_eq (d : Dev) (p : Nat) (pcs fec : Bool) : setLocks d p pcs fec = setFld d (psts p) 1 2 (locksLeft d p pcs fec) := by
  simp [setLocks, locksLeft]

theorem locksLeft_lt (d : Dev) (p : Nat) (pcs fec : Bool) : locksLeft d p pcs fec < 4 := by
  unfold locksLeft
  split
  · decide
  · cases pcs <;> cases fec <;> decide

theorem fld_setLocks (d : Dev) (p : Nat) (pcs fec : Bool) : fld (setLocks d p pcs fec) (psts p) 1 2 = locksLeft d p pcs fec := by
  rw [setLocks_eq, fld_setFld_self _ _ _ _ _ (by decide)]
  exact Nat.mod_eq_of_lt (locksLeft_lt ..)

theorem flag_setLocks (d : Dev) (p : Nat) (pcs fec : Bool) {i : Nat} (h : i < 32) (h1 : i ≠ 1 ∧ i ≠ 2) :
    flag (setLocks d p pcs fec) (psts p) i = flag d (psts p) i := by
  rw [setLocks_eq, flag_eq_fld, flag_eq_fld, fld_setFld_other _ _ _ _ _ _ _ (by omega) (by omega)]

theorem moves_setLocks (d : Dev) {p : Nat} (pcs fec : Bool) (hs : rs (psts p)) : Moves ps rs d (setLocks d p pcs fec) :=
  moves_setFld d 1 2 _ hs

/-- The device when a link has fallen and been counted, before MAC merge follows. -/
def fallen (d : Dev) (p : Nat) : Dev := pcnt (setLink d p false) p Reg.linkDownCnt

/-- The port's block of registers. -/
abbrev OfPort (p a : Nat) : Prop := Reg.port p ≤ a ∧ a < Reg.port p + 0x1000

/-- What a fall of a link does to a port's `PORT_STS` and to its counters it does before the frames go. -/
theorem clearPort_port (d : Dev) {p q o : Nat} (hq : q < 512) (ho : o < 0x1000) :
    rd (clearPort d p) (Reg.port q + o) = rd d (Reg.port q + o) :=
  (moves_clearPort (ps := [.buf, .egr, .host]) d p (by simp) (by simp) (by simp) fun _ h => h).regs _ (not_abovePorts_port hq ho)

theorem clearPort_ports (d : Dev) (p : Nat) : (clearPort d p).ports = d.ports :=
  (moves_clearPort (ps := [.buf, .egr, .host]) d p (by simp) (by simp) (by simp) fun _ h => h).parts .ports (by simp)

/-- The fallen port's registers but for those that a fall writes. -/
theorem fallen_reg (d : Dev) (p : Nat) {o : Nat} (h : o ∉ [Reg.pSts, Reg.pLinkEvc, Reg.linkDownCnt, Reg.pHalfEvc]) :
    rd (fallen d p) (Reg.port p + o) = rd d (Reg.port p + o) := by
  have moved : Moves [] (· ∈ [Reg.pSts, Reg.pLinkEvc, Reg.linkDownCnt, Reg.pHalfEvc].map (Reg.port p + ·)) d (fallen d p) :=
    (moves_setLink d false (by simp [psts]) (by simp)).trans (moves_pcnt _ (by simp) (by simp))
  exact moved.regs _ (by simpa using h)

theorem fallen_psts (d : Dev) (p : Nat) : rd (fallen d p) (psts p) = rd (setLink d p false) (psts p) :=
  (moves_pcnt (ps := []) (rs := (· ∈ [Reg.linkDownCnt, Reg.pHalfEvc].map (Reg.port p + ·))) _ (by simp) (by simp)).regs _
    (by simp [psts, Reg.pSts, Reg.linkDownCnt, Reg.pHalfEvc])

/-- MAC merge after a fall: it stays where it needs no verification, and else it is not active (log entry 107). -/
def mergeLeft (d : Dev) (p : Nat) : Dev := if mmEn d p && !verifyEn d p then d else mmStop d p

theorem fallLink_eq (d : Dev) (p : Nat) : fallLink d p = clearPort (mergeLeft (fallen d p) p) p := rfl

theorem mergeLeft_reg (d : Dev) (p : Nat) {o : Nat} (h : o ≠ Reg.pSts) : rd (mergeLeft d p) (Reg.port p + o) = rd d (Reg.port p + o) :=
  (Moves.ite (.refl d) (moves_mmStop d (by simp) rfl) : Moves [.ports] (· = psts p) d (mergeLeft d p)).regs _ (psts_ne h)

theorem mergeLeft_bits (d : Dev) (p : Nat) {i : Nat} (h : i < 5) : flag (mergeLeft d p) (psts p) i = flag d (psts p) i := by
  unfold mergeLeft
  split
  · rfl
  · exact flag_setFlag_other d _ 5 i false (by omega) (by omega)

theorem setLink_mm (d : Dev) (p : Nat) (up : Bool) : flag (setLink d p up) (psts p) 5 = flag d (psts p) 5 := by
  have evc : psts p ≠ Reg.port p + Reg.pLinkEvc := (psts_ne (by decide)).symm
  unfold setLink
  simp only [flag, rd_cnt_ne _ evc]
  refine (flag_setFlag_other _ (psts p) 4 5 false (by decide) (by decide)).trans
    ((flag_setFlag_other _ (psts p) 3 5 _ (by decide) (by decide)).trans ?_)
  rw [flag_eq_fld, fld_setFld_other _ _ _ _ _ _ _ (by decide) (by decide), ← flag_eq_fld]
  rfl

/-- What a link that falls leaves: no link, MAC merge as it may stay, and its counts. -/
structure Fallen (p : Nat) (d t : Dev) : Prop where
  link : flag t (psts p) 0 = false
  merge : if mmEn d p = true ∧ verifyEn d p = false then flag t (psts p) 5 = flag d (psts p) 5
    else flag t (psts p) 5 = false ∧ (portOf t p).verify = none
  mode : ∀ o ∈ [Reg.pMode, Reg.pMm], rd t (Reg.port p + o) = rd d (Reg.port p + o)
  downs : ownPath d p = true → rd t (Reg.port p + Reg.linkDownCnt) = (rd d (Reg.port p + Reg.linkDownCnt) + 1) % two32
  links : rd t (Reg.port p + Reg.pLinkEvc) = (rd d (Reg.port p + Reg.pLinkEvc) + 1) % two32

theorem fallen_setLink (d : Dev) (p i : Nat) : flag (fallen d p) (psts p) i = flag (setLink d p false) (psts p) i := by
  simp only [flag, fallen_psts]

theorem fallen_mm (d : Dev) (p : Nat) : mmEn (fallen d p) p = mmEn d p ∧ verifyEn (fallen d p) p = verifyEn d p := by
  simp only [mmEn, verifyEn, flag, fallen_reg d p (o := Reg.pMode) (by decide), fallen_reg d p (o := Reg.pMm) (by decide), and_self]

theorem portOf_fallLink (d : Dev) (p q : Nat) : portOf (fallLink d p) q = portOf (mergeLeft (fallen d p) p) q := by
  simp only [portOf, fallLink_eq, clearPort_ports]

theorem fallLink_falls (d : Dev) {p : Nat} (hp : p < 512) : Fallen p d (fallLink d p) := by
  have sts (i : Nat) : flag (fallLink d p) (psts p) i = flag (mergeLeft (fallen d p) p) (psts p) i := by
    simp only [flag, fallLink_eq, psts, clearPort_port _ hp (show Reg.pSts < 0x1000 by decide)]
  have reg {o : Nat} (ho : o < 0x1000) (hs : o ≠ Reg.pSts) :
      rd (fallLink d p) (Reg.port p + o) = rd (fallen d p) (Reg.port p + o) := by
    rw [fallLink_eq, clearPort_port _ hp ho, mergeLeft_reg _ _ hs]
  have first : Moves [] (· ∈ [psts p, Reg.port p + Reg.pLinkEvc]) d (setLink d p false) := moves_setLink d false (by simp) (by simp)
  have then' : Moves [] (· ∈ [Reg.port p + Reg.linkDownCnt, Reg.port p + Reg.pHalfEvc]) (setLink d p false) (fallen d p) :=
    moves_pcnt _ (by simp) (by simp)
  refine ⟨?_, ?_, fun o ho => ?_, fun own => ?_, ?_⟩
  · rw [sts, mergeLeft_bits _ _ (by decide), fallen_setLink, flag_eq_fld, fld_setLink _ _ _ _ _ (by decide)]
    have bits3 := congrArg (· % 2) (fld_setFld_self d (psts p) 0 3 0 (by decide))
    simpa [fld, bits, Nat.mod_mod_of_dvd] using bits3
  · obtain ⟨en, ver⟩ := fallen_mm d p
    by_cases keep : mmEn d p = true ∧ verifyEn d p = false
    · have stays : mergeLeft (fallen d p) p = fallen d p := if_pos (by simp [en, ver, keep])
      rw [if_pos keep, sts, stays, fallen_setLink, setLink_mm]
    · have stops : mergeLeft (fallen d p) p = mmStop (fallen d p) p := if_neg (by simpa [en, ver] using keep)
      rw [if_neg keep, sts, portOf_fallLink, stops]
      exact ⟨mmStop_inactive _ p, mmStop_verify _ p⟩
  · simp only [List.mem_cons, List.not_mem_nil, or_false] at ho
    obtain rfl | rfl := ho <;> rw [reg (by decide) (by decide), fallen_reg _ _ (by decide)]
  · have counts : portCounts (setLink d p false) p = true :=
      (ownPath_congr (first.regs _ (by simp [psts, Reg.pMode, Reg.pSts, Reg.pLinkEvc]))).trans own
    rw [reg (by decide) (by decide), fallen, rd_pcnt counts (by decide),
      first.regs _ (by simp [psts, Reg.linkDownCnt, Reg.pSts, Reg.pLinkEvc])]
  · rw [reg (by decide) (by decide), then'.regs _ (by simp [Reg.linkDownCnt, Reg.pHalfEvc, Reg.pLinkEvc]), setLink_counts]

theorem locksLeft_congr {d e : Dev} {p : Nat} (pcs fec : Bool) (h : rd e (Reg.port p + Reg.pMode) = rd d (Reg.port p + Reg.pMode)) :
    locksLeft e p pcs fec = locksLeft d p pcs fec := by
  unfold locksLeft fld
  rw [h]

@[simp] theorem portOf_setLocks (d : Dev) (p q : Nat) (pcs fec : Bool) : portOf (setLocks d p pcs fec) q = portOf d q := by
  rw [setLocks_eq, portOf_setFld]

/-- The locks of a port whose link has fallen show beside what the fall left. -/
theorem Fallen.setLocks {p : Nat} (h : Fallen p d t) (pcs fec : Bool) : Fallen p d (setLocks t p pcs fec) := by
  have kept {o : Nat} (ho : o ≠ Reg.pSts) : rd (Machine.setLocks t p pcs fec) (Reg.port p + o) = rd t (Reg.port p + o) :=
    (moves_setLocks (ps := []) (rs := (· = psts p)) t pcs fec rfl).regs _ (psts_ne ho)
  refine ⟨?_, ?_, fun o ho => ?_, fun own => ?_, ?_⟩
  · rw [flag_setLocks _ _ _ _ (by decide) (by decide), h.link]
  · rw [flag_setLocks _ _ _ _ (by decide) (by decide), portOf_setLocks]
    exact h.merge
  · rw [← h.mode o ho]
    refine kept ?_
    simp only [List.mem_cons, List.not_mem_nil, or_false] at ho
    obtain rfl | rfl := ho <;> decide
  · rw [kept (by decide), h.downs own]
  · rw [kept (by decide), h.links]

theorem linkDown_runs {p : Nat} (hp : p < 512) (pcs fec : Bool) (own : ownPath d p = true) (hl : flag d (psts p) 0 = true) :
    ∃ e, Fallen p d e ∧ linkDown p pcs fec d = setLocks e p pcs fec := by
  have fell := fallLink_falls d hp
  refine ⟨_, fell, ?_⟩
  simp [linkDown, hl, (ownPath_congr (fell.mode Reg.pMode (by simp))).trans own, show ¬512 ≤ p by omega]

theorem linkDown_falls {p : Nat} (hp : p < 512) (pcs fec : Bool) (own : ownPath s.dev p = true) (hl : flag s.dev (psts p) 0 = true) :
    Ends (.linkDown p pcs fec) s fun t =>
      flag t (psts p) 0 = false ∧ fld t (psts p) 1 2 = locksLeft s.dev p pcs fec ∧
        (if mmEn s.dev p = true ∧ verifyEn s.dev p = false then flag t (psts p) 5 = flag s.dev (psts p) 5
          else flag t (psts p) 5 = false ∧ (portOf t p).verify = none) ∧
        rd t (Reg.port p + Reg.linkDownCnt) = (rd s.dev (Reg.port p + Reg.linkDownCnt) + 1) % two32 ∧
        rd t (Reg.port p + Reg.pLinkEvc) = (rd s.dev (Reg.port p + Reg.pLinkEvc) + 1) % two32 := by
  obtain ⟨e, fell, run⟩ := linkDown_runs (d := begun s) hp pcs fec own hl
  have left := fell.setLocks pcs fec
  refine ends_of_runIf (f := linkDown p pcs fec) rfl (decide_eq_true (by omega)) ?_
  rw [run]
  simp only [flag_settle _ _ (psts_ne_irqMsgCnt p), fld_settle _ _ _ (psts_ne_irqMsgCnt p), rd_settle _ (port_ne_irqMsgCnt p _),
    portOf_settle]
  exact ⟨left.link, (fld_setLocks ..).trans (locksLeft_congr pcs fec (fell.mode Reg.pMode (by simp))), left.merge, left.downs own, left.links⟩

theorem linkDown_locks {p : Nat} (hp : p < 512) (pcs fec : Bool) (own : ownPath s.dev p = true) (hl : flag s.dev (psts p) 0 = false) :
    Ends (.linkDown p pcs fec) s fun t =>
      fld t (psts p) 1 2 = locksLeft s.dev p pcs fec ∧ OnlyParts [] s.dev t ∧ OnlyRegs [psts p] s.dev t := by
  have run : linkDown p pcs fec (begun s) = setLocks (begun s) p pcs fec := by
    simp [linkDown, hl, show ownPath (begun s) p = true from own, show ¬512 ≤ p by omega]
  have moved : Moves [] (· ∈ [psts p]) (begun s) (setLocks (begun s) p pcs fec) := moves_setLocks _ pcs fec (by simp)
  refine ends_of_runIf (f := linkDown p pcs fec) rfl (decide_eq_true (by omega)) ?_
  rw [run]
  refine ⟨?_, moved.onlyParts, moved.onlyRegs⟩
  rw [fld_settle _ _ _ (psts_ne_irqMsgCnt p), fld_setLocks]
  rfl

/-! ## Verification (R74, R821) -/

/-- A verification's timer: three verify frames are sent, then it has failed. -/
theorem mmVerifySend_runs {p n : Nat} (h : (portOf d p).verify = some n) :
    ∃ e, Waited (portOf d p).verifyAt d e ∧ mmVerifySend p d =
      if 3 ≤ n then setPort (setFlag e (psts p) 6 true) p fun x => { x with verify := none }
      else setEgr (setPort e p fun x => { x with verify := some (n + 1), verifyAt := x.verifyAt + verifyTime e p }) p
        fun x => { x with ctl := x.ctl ++ [.verify] } := by
  refine ⟨_, waited_reach .., ?_⟩
  simp only [mmVerifySend, h]

theorem verify_sends {p n : Nat} (hp : p < 512) (h : (portOf s.dev p).verify = some n) (hn : n < 3) : Ends (.mmVerifySend p) s fun t =>
    (portOf t p).verify = some (n + 1) ∧ (egrOf t p).ctl = (egrOf s.dev p).ctl ++ [.verify] ∧
      (portOf s.dev p).verifyAt ≤ t.now ∧ OnlyParts [.now, .time, .ports, .egr] s.dev t := by
  obtain ⟨e, w, he⟩ := mmVerifySend_runs (d := begun s) h
  have egr : egrOf e p = egrOf s.dev p := (w.moves (ps := [.now, .time]) (by simp) (by simp)).egr (by simp) p
  refine ends_of_runIf (f := mmVerifySend p) rfl (decide_eq_true hp) ?_
  rw [he, if_neg (by omega)]
  refine ⟨?_, ?_, ?_, ?_⟩
  · rw [portOf_settle, portOf_setEgr, portOf_setPort_self]
  · rw [egrOf_settle, egrOf_setEgr_self, egrOf_setPort, egr]
  · rw [settle_now, setEgr_now, setPort_now]
    exact w.due
  · exact ((w.moves (by simp) (by simp)).trans ((moves_setPort _ _ _ (by simp)).trans (moves_setEgr _ _ _ (by simp)))).onlyParts

theorem verify_fails {p n : Nat} (hp : p < 512) (h : (portOf s.dev p).verify = some n) (hn : 3 ≤ n) : Ends (.mmVerifySend p) s fun t =>
    (portOf t p).verify = none ∧ flag t (psts p) 6 = true ∧ OnlyParts [.now, .time, .ports] s.dev t := by
  obtain ⟨e, w, he⟩ := mmVerifySend_runs (d := begun s) h
  refine ends_of_runIf (f := mmVerifySend p) rfl (decide_eq_true hp) ?_
  rw [he, if_pos hn]
  refine ⟨by simp, ?_, ((w.moves (by simp) (by simp)).trans
    ((moves_setFlag _ 6 true trivial).trans (moves_setPort _ _ _ (by simp)))).onlyParts⟩
  rw [flag_settle _ _ (psts_ne_irqMsgCnt p)]
  exact flag_setFlag_self e (psts p) 6 true (by decide)

/-- A respond frame counts, and ends a verification that runs. -/
theorem mmRespondReceive_runs {p : Nat} (h : receives d p = true) : mmRespondReceive p d =
    if (portOf d p).verify.isSome then
      setFlag (setPort (pcnt d p Reg.mmVerifyRx) p fun x => { x with verify := none }) (psts p) 5 true
    else pcnt d p Reg.mmVerifyRx := by
  have port : portOf (pcnt d p Reg.mmVerifyRx) p = portOf d p :=
    (moves_pcnt (ps := []) (rs := fun _ => True) d trivial trivial).port (by simp) p
  simp only [mmRespondReceive, h, port, Bool.not_true, Bool.false_eq_true, if_false]

theorem respond_activates {p : Nat} (hp : p < 512) (h : receives s.dev p = true) (hc : portCounts s.dev p = true) :
    Ends (.mmRespondReceive p) s fun t =>
      rd t (Reg.port p + Reg.mmVerifyRx) = (rd s.dev (Reg.port p + Reg.mmVerifyRx) + 1) % two32 ∧ (portOf t p).verify = none ∧
        ((portOf s.dev p).verify.isSome = true → flag t (psts p) 5 = true) ∧ OnlyParts [.ports] s.dev t ∧
        OnlyRegs [psts p, Reg.port p + Reg.mmVerifyRx, Reg.port p + Reg.pHalfEvc] s.dev t := by
  have counted : Moves [.ports] (· ∈ [psts p, Reg.port p + Reg.mmVerifyRx, Reg.port p + Reg.pHalfEvc]) (begun s)
      (pcnt (begun s) p Reg.mmVerifyRx) := moves_pcnt _ (by simp) (by simp)
  have count := rd_pcnt (d := begun s) (p := p) (o := Reg.mmVerifyRx) hc (by decide)
  refine ends_of_runIf (f := mmRespondReceive p) rfl (decide_eq_true hp) ?_
  rw [mmRespondReceive_runs (d := begun s) h, portOf_begun]
  split
  · refine ⟨?_, by simp, fun _ => ?_, ?_⟩
    · rw [rd_settle _ (port_ne_irqMsgCnt p _), rd_setFlag_ne _ _ _ (psts_ne (by decide)), rd_setPort, count, rd_begun]
    · rw [flag_settle _ _ (psts_ne_irqMsgCnt p)]
      exact flag_setFlag_self _ (psts p) 5 true (by decide)
    · have moved := counted.trans ((moves_setPort _ p (fun x => { x with verify := none }) (by simp)).trans
        (moves_setFlag _ (a := psts p) 5 true (by simp)))
      exact ⟨moved.onlyParts, moved.onlyRegs⟩
  · rename_i idle
    have quiet : (portOf (pcnt (begun s) p Reg.mmVerifyRx) p).verify = none := by
      rw [(moves_pcnt (ps := []) (rs := fun _ => True) (begun s) trivial trivial).port (by simp) p]
      simpa using idle
    refine ⟨?_, by rw [portOf_settle, quiet], fun some => absurd some idle, counted.onlyParts, counted.onlyRegs⟩
    rw [rd_settle _ (port_ne_irqMsgCnt p _), count, rd_begun]

/-! ## Management ports (Table 02-10) -/

theorem mgmt_ne {n o o' : Nat} (h : o ≠ o') : Reg.mgmt n + o ≠ Reg.mgmt n + o' := fun e => h (Nat.add_left_cancel e)

theorem mgmtLink_bits (d : Dev) (n : Nat) (up : Bool) :
    fld (mgmtLink d (512 + n) up) (Reg.mgmt n + 4) 0 3 = if up then 7 else 0 := by
  have other (e : Dev) (i : Nat) (b : Bool) (hi : 3 ≤ i) :
      fld (setFlag e (Reg.mgmt n + 4) i b) (Reg.mgmt n + 4) 0 3 = fld e (Reg.mgmt n + 4) 0 3 :=
    fld_setFld_other e _ i 1 _ 0 3 (by decide) (by omega)
  have through (e : Dev) : fld (if up then e else cnt e (Reg.mgmt n + 0x2C)) (Reg.mgmt n + 4) 0 3 = fld e (Reg.mgmt n + 4) 0 3 := by
    cases up
    · simp only [fld, Bool.false_eq_true, if_false, rd_cnt_ne _ (mgmt_ne (n := n) (show 4 ≠ 0x2C by decide))]
    · rfl
  unfold mgmtLink
  rw [Nat.add_sub_cancel_left, through, other _ 4 _ (by decide), other _ 3 _ (by decide), fld_setFld_self _ _ _ _ _ (by decide)]
  cases up <;> rfl

theorem moves_mgmtLink (d : Dev) (n : Nat) (up : Bool) (hs : rs (Reg.mgmt n + 4)) (hc : up = false → rs (Reg.mgmt n + 0x2C)) :
    Moves ps rs d (mgmtLink d (512 + n) up) := by
  unfold mgmtLink
  rw [Nat.add_sub_cancel_left]
  have shown : Moves ps rs d (setFlag (setFlag (setFld d (Reg.mgmt n + 4) 0 3 (if up then 7 else 0)) (Reg.mgmt n + 4) 3
      (up && flag d (Reg.mgmt n) 9)) (Reg.mgmt n + 4) 4 false) :=
    (moves_setFld d 0 3 _ hs).trans ((moves_setFlag _ 3 _ hs).trans (moves_setFlag _ 4 false hs))
  cases up
  · exact shown.trans (moves_cnt _ (hc rfl))
  · exact shown

theorem mgmt_linkUp {n : Nat} (hn : n < 2) (on : mgmtOn s.dev (512 + n) = true) (hl : flag s.dev (Reg.mgmt n + 4) 0 = false) :
    Ends (.linkUp (512 + n)) s fun t =>
      fld t (Reg.mgmt n + 4) 0 3 = 7 ∧ OnlyParts [] s.dev t ∧ OnlyRegs [Reg.mgmt n + 4] s.dev t := by
  have run : linkUp (512 + n) (begun s) = mgmtLink (begun s) (512 + n) true := by
    simp [linkUp, hl, show mgmtOn (begun s) (512 + n) = true from on]
  have moved : Moves [] (· ∈ [Reg.mgmt n + 4]) (begun s) (mgmtLink (begun s) (512 + n) true) :=
    moves_mgmtLink _ n true (by simp) (by simp)
  refine ends_of_runIf (f := linkUp (512 + n)) rfl (decide_eq_true (by omega)) ?_
  rw [run, fld_settle _ _ _ (mgmt_ne_irqMsgCnt n 4), mgmtLink_bits]
  exact ⟨rfl, moved.onlyParts, moved.onlyRegs⟩

theorem mgmt_linkDown {n : Nat} (hn : n < 2) (pcs fec : Bool) (hl : flag s.dev (Reg.mgmt n + 4) 0 = true) :
    Ends (.linkDown (512 + n) pcs fec) s fun t =>
      fld t (Reg.mgmt n + 4) 0 3 = 0 ∧ rd t (Reg.mgmt n + 0x2C) = (rd s.dev (Reg.mgmt n + 0x2C) + 1) % two32 ∧
        OnlyParts [] s.dev t ∧ OnlyRegs [Reg.mgmt n + 4, Reg.mgmt n + 0x2C] s.dev t := by
  have run : linkDown (512 + n) pcs fec (begun s) = mgmtLink (begun s) (512 + n) false := by
    simp [linkDown, mgmtFall, hl]
  have moved : Moves [] (· ∈ [Reg.mgmt n + 4, Reg.mgmt n + 0x2C]) (begun s) (mgmtLink (begun s) (512 + n) false) :=
    moves_mgmtLink _ n false (by simp) (by simp)
  have sts : Reg.mgmt n + 0x2C ≠ Reg.mgmt n + 4 := mgmt_ne (by decide)
  refine ends_of_runIf (f := linkDown (512 + n) pcs fec) rfl (decide_eq_true (by omega)) ?_
  rw [run, fld_settle _ _ _ (mgmt_ne_irqMsgCnt n 4), mgmtLink_bits, rd_settle _ (mgmt_ne_irqMsgCnt n _)]
  refine ⟨rfl, ?_, moved.onlyParts, moved.onlyRegs⟩
  simp only [mgmtLink, Nat.add_sub_cancel_left, Bool.false_eq_true, if_false, rd_cnt_self]
  rw [rd_setFlag_ne _ _ _ sts, rd_setFlag_ne _ _ _ sts, rd_setFld_ne _ _ _ _ sts, rd_begun]

theorem mgmt_abandon {n : Nat} (hn : n < 2) (on : mgmtOn s.dev (512 + n) = true) : Ends (.trainingAttemptAbandon (512 + n)) s fun t =>
    rd t (Reg.mgmt n + 0x30) = (rd s.dev (Reg.mgmt n + 0x30) + 1) % two32 ∧ OnlyParts [] s.dev t ∧
      OnlyRegs [Reg.mgmt n + 0x30] s.dev t := by
  have run : trainingAttemptAbandon (512 + n) (begun s) = cnt (begun s) (Reg.mgmt n + 0x30) := by
    simp [trainingAttemptAbandon, abandon, abandonAt, cnt, show mgmtOn (begun s) (512 + n) = true from on]
  have moved : Moves [] (· ∈ [Reg.mgmt n + 0x30]) (begun s) (cnt (begun s) (Reg.mgmt n + 0x30)) := moves_cnt _ (by simp)
  refine ends_of_runIf (f := trainingAttemptAbandon (512 + n)) rfl (decide_eq_true (by omega)) ?_
  rw [run, rd_settle _ (mgmt_ne_irqMsgCnt n _), rd_cnt_self, rd_begun]
  exact ⟨rfl, moved.onlyParts, moved.onlyRegs⟩

/-- The low word of a 48-bit counter. -/
theorem rd_cnt48_self (d : Dev) (a n : Nat) : rd (cnt48 d a n) a = (rd d a + n) % two32 := by
  have low : (rd d a + two32 * (rd d (a + 4) % 65536) + n) % two32 = (rd d a + n) % two32 := by
    rw [Nat.add_right_comm, Nat.add_mul_mod_self_left]
  unfold cnt48
  dsimp only
  rw [rd_wr_ne _ _ (by omega), rd_wr_self, low]

theorem mgmt_good {n : Nat} {l : List Byte} (hn : n < 2) (pre err : Bool) (g v : Nat) (e : LineErrs)
    (hl : flag s.dev (Reg.mgmt n + 4) 0 = true) (most : l.length ≤ fld s.dev (Reg.mgmt n) 16 14) (least : 64 ≤ l.length)
    (good : fcsGood l = true) : Ends (.frameReceive (512 + n) l pre err g v e) s fun t =>
      rd t (Reg.mgmt n + 0x10) = (rd s.dev (Reg.mgmt n + 0x10) + 1) % two32 ∧
        rd t (Reg.mgmt n + 0x14) = (rd s.dev (Reg.mgmt n + 0x14) + l.length) % two32 ∧ OnlyParts [] s.dev t ∧
        OnlyRegs [Reg.mgmt n + 0x10, Reg.mgmt n + 0x14, Reg.mgmt n + 0x18] s.dev t := by
  have run : frameReceive (512 + n) l pre err g v e (begun s) =
      cnt48 (cnt (begun s) (Reg.mgmt n + 0x10)) (Reg.mgmt n + 0x14) l.length := by
    simp [frameReceive, mgmtReceive, hl, good, Nat.not_lt.mpr most, Nat.not_lt.mpr least]
  have moved : Moves [] (· ∈ [Reg.mgmt n + 0x10, Reg.mgmt n + 0x14, Reg.mgmt n + 0x18]) (begun s)
      (cnt48 (cnt (begun s) (Reg.mgmt n + 0x10)) (Reg.mgmt n + 0x14) l.length) :=
    (moves_cnt _ (by simp)).trans (moves_cnt48 _ _ (by simp) (by simp))
  refine ends_of_runIf (f := frameReceive (512 + n) l pre err g v e) rfl (decide_eq_true (by omega)) ?_
  rw [run, rd_settle _ (mgmt_ne_irqMsgCnt n _), rd_settle _ (mgmt_ne_irqMsgCnt n _)]
  refine ⟨?_, ?_, moved.onlyParts, moved.onlyRegs⟩
  · rw [rd_cnt48_ne _ _ (mgmt_ne (by decide)) (by omega), rd_cnt_self, rd_begun]
  · rw [rd_cnt48_self, rd_cnt_ne _ (mgmt_ne (by decide)), rd_begun]

theorem mgmt_bad {n : Nat} {l : List Byte} (hn : n < 2) (pre err : Bool) (g v : Nat) (e : LineErrs)
    (hl : flag s.dev (Reg.mgmt n + 4) 0 = true) (bad : fcsGood l = false) : Ends (.frameReceive (512 + n) l pre err g v e) s fun t =>
      rd t (Reg.mgmt n + 0x1C) = (rd s.dev (Reg.mgmt n + 0x1C) + 1) % two32 ∧ OnlyParts [] s.dev t ∧
        OnlyRegs [Reg.mgmt n + 0x1C] s.dev t := by
  have run : frameReceive (512 + n) l pre err g v e (begun s) = cnt (begun s) (Reg.mgmt n + 0x1C) := by
    simp [frameReceive, mgmtReceive, hl, bad]
  have moved : Moves [] (· ∈ [Reg.mgmt n + 0x1C]) (begun s) (cnt (begun s) (Reg.mgmt n + 0x1C)) := moves_cnt _ (by simp)
  refine ends_of_runIf (f := frameReceive (512 + n) l pre err g v e) rfl (decide_eq_true (by omega)) ?_
  rw [run, rd_settle _ (mgmt_ne_irqMsgCnt n _), rd_cnt_self, rd_begun]
  exact ⟨rfl, moved.onlyParts, moved.onlyRegs⟩

/-- Settles O21: clause by clause, a port's link and its verification, and what a management port shows and counts. -/
theorem linksAndMacMergeFollowEvents : Obligations.LinksAndMacMergeFollowEvents :=
  ⟨fun _ _ hp => ⟨linkUp_shows hp, fun pcs fec own => ⟨linkDown_falls hp pcs fec own, linkDown_locks hp pcs fec own⟩,
      fun _ hv => ⟨verify_sends hp hv, verify_fails hp hv⟩, respond_activates hp⟩,
    fun _ _ hn => ⟨mgmt_linkUp hn, mgmt_linkDown hn, mgmt_abandon hn, fun _ pre err g v e hl most least =>
      ⟨mgmt_good hn pre err g v e hl most least, mgmt_bad hn pre err g v e hl⟩⟩⟩

end Sys2Proof.Machine
end

section
/-! The repeat of a PFC frame (R265): a quiesced device sends none (R777). -/

namespace Sys2Proof.Machine

open Sys2Proof

/-- The repeat's timer of a pair in XOFF sets its next one and sends the frame, if the device sends any. -/
theorem xoffRepeat_runs {d : Dev} {p c u : Nat} (h : tfind d.buf.xoff (8 * p + c) = some u) : ∃ e, Waited u d e ∧ xoffRepeat p c d =
    sendPfc (e.onBuf fun b => { b with xoff := tins b.xoff (8 * p + c) (u + 32768 * quantum e p) }) p c 0xFFFF := by
  refine ⟨_, waited_reach .., ?_⟩
  simp only [xoffRepeat, h]

theorem sendPfc_quiesced {d : Dev} (p c time : Nat) (h : d.boot.phase = .quiesced) : sendPfc d p c time = d := if_pos h

/-- A quiesced device queues nothing at its ports when the repeat falls due. -/
theorem xoffRepeat_quiesced {d : Dev} {p c u : Nat} (h : tfind d.buf.xoff (8 * p + c) = some u) (hq : d.boot.phase = .quiesced) (q : Nat) :
    egrOf (xoffRepeat p c d) q = egrOf d q := by
  obtain ⟨e, w, he⟩ := xoffRepeat_runs h
  have moved : Moves [.now, .time] (fun _ => True) d e := w.moves (by simp) (by simp)
  rw [he, sendPfc_quiesced p c _ (by rw [Dev.onBuf_boot, moved.boot (by simp), hq])]
  exact moved.egr (by simp) q

/-- What a command that ends so has come to. -/
theorem Ends.effect {c : Instr} {s : State} {f : Dev → Dev} {p : Dev → Prop} (hx : exec c s = s.runIf c.wf f) (h : Ends c s p) :
    p (settle (f (begun s))) := by
  obtain ⟨t, run, -, ht⟩ := h
  obtain ⟨-, rfl⟩ := runIf_next (hx.symm.trans run)
  exact ht

/-- A quiesced device whose port 0 holds its class 0 in XOFF. -/
def quiescedInXoff : State := { dev := { boot := { phase := .quiesced }, buf := { xoff := [(0, 0)] } } }

/-- Refutes O31: the repeat of a pair in XOFF sends no PFC frame while the device is quiesced, for then it sends none at all (R777); the
statement asks for the frame in every state. -/
theorem not_pausesAreTakenAndSent : ¬Obligations.PausesAreTakenAndSent := by
  intro h
  obtain ⟨-, -, -, repeats⟩ := h quiescedInXoff 0 (by decide)
  obtain ⟨ctl, -⟩ := Ends.effect (f := xoffRepeat 0 0) rfl (repeats 0 0 (by decide) rfl)
  rw [egrOf_settle, xoffRepeat_quiesced (u := 0) rfl rfl, egrOf_begun] at ctl
  exact absurd ctl (by decide)

end Sys2Proof.Machine
end

section
/-! Cells for a frame while a tile cycle frees others (R251): a tile whose every cell the running cycle has freed hands out none. -/

namespace Sys2Proof.Machine

open Sys2Proof

theorem takeCells_none {used : List Nat} (h : ∀ c < tileCells, c ∈ used) (fuel n : Nat) {c : Nat} (hc : c < tileCells) :
    takeCells used fuel n c = [] := by
  induction fuel generalizing c with
  | zero => rfl
  | succ fuel ih =>
    unfold takeCells
    split
    · rfl
    · rw [if_pos (by simpa using h c hc)]
      exact ih (Nat.mod_lt _ (by decide))

theorem allocCells_freeing {d : Dev} {k : Nat} (n : Nat) (h : ∀ c < tileCells, c ∈ tget [] d.buf.freeing k) :
    (allocCells d k n).1 = [] := by
  unfold allocCells
  exact takeCells_none (fun c hc => by simp [h c hc]) _ _ (Nat.mod_lt _ (by decide))

/-! ## A frame of TC0 to TC6 that is kept -/

/-- Receive counts of a port move no part and write the port's own registers alone. -/
theorem moves_countGood {ps : List Piece} {rs : Nat → Prop} (d : Dev) {p : Nat} (n da : Nat) {ok bytes ucast : Nat} {size : Nat → Nat}
    (h : ∀ o ∈ [ok, bytes, bytes + 4, ucast, ucast + 4, ucast + 8, Reg.pHalfEvc], rs (Reg.port p + o))
    (hs : ∀ i, i ≤ 8 → rs (Reg.port p + size i)) : Moves ps rs d (countGood d p n da ok bytes ucast size) := by
  have bin : sizeBin n ≤ 8 := List.length_filter_le ..
  have cast : rs (Reg.port p + if da = broadcast then ucast + 8 else if isGroup da then ucast + 4 else ucast) := by
    split
    · exact h _ (by simp)
    · split <;> exact h _ (by simp)
  have half := h Reg.pHalfEvc (by simp)
  exact ((moves_pcnt d (h ok (by simp)) half).trans (moves_pcnt48 _ _ (h bytes (by simp)) (h (bytes + 4) (by simp)) half)).trans
    ((moves_pcnt _ cast half).trans (moves_pcnt _ (hs _ bin) half))

theorem moves_rxCount {ps : List Piece} (d : Dev) (p : Nat) (l : List Byte) (cut good : Bool) :
    Moves ps (OfPort p) d (rxCount d p l cut good) := by
  have own {o : Nat} (h : o < 0x1000) : OfPort p (Reg.port p + o) := ⟨Nat.le_add_right .., by omega⟩
  have one (e : Dev) (o : Nat) (h : o < 0x1000) : Moves ps (OfPort p) e (pcnt e p o) := moves_pcnt e (own h) (own (by decide))
  unfold rxCount
  dsimp only
  refine (moves_pcnt48 d (o := Reg.rxBytesAll) l.length (own (by decide)) (own (o := Reg.rxBytesAll + 4) (by decide)) (own (by decide))).trans ?_
  refine .ite ((one _ Reg.rxOversize (by decide)).trans (one _ Reg.rxFcsErr (by decide))) (.ite ?_ (.ite (one _ Reg.rxUndersize (by decide)) ?_))
  · exact one _ _ (by split <;> decide)
  · refine moves_countGood _ _ _ (fun o ho => own ?_) fun i hi => own (by simp only [Reg.rxSize]; omega)
    revert o; decide

/-- The stream filter of a frame is a record of the configuration. -/
theorem filterFor_congr {d e : Dev} (h : e.host.cfg = d.host.cfg) (p da v : Nat) : filterFor e p da v = filterFor d p da v := by
  simp only [filterFor, h]

/-- A frame with a bad FCS that no filter names is kept: it is counted, and added to its tile. -/
theorem receiveFrame_keeps {d : Dev} {p : Nat} {l : List Byte} {pre : Bool} {x : Frame} (hx : x = newFrame d p l false pre)
    (bad : fcsGood l = false) (adm : admitted d p false = true) (marks : tileMarks d x.tile x x.vid = false) (gaf : gafDrops d p l = false)
    (full : d.boot.phase = .full) (fil : filterFor d p (be l 0 6) x.vid = none) :
    ∃ e : Dev, e.buf = d.buf ∧ receiveFrame d p l false pre = (addFrame e x).2 := by
  let e := tcnt (rxCount d p l false false) (tileOf p) (Reg.parseFailCnt x.parse.fail)
  have moved : Moves ([] : List Piece) (fun _ => True) d e :=
    ((moves_rxCount (ps := []) d p l false false).mono (by simp) fun _ _ => trivial).trans (moves_tcnt _ trivial)
  have host := moved.parts .host (by simp)
  simp only [Same] at host
  have boot : e.boot = d.boot := moved.boot (by simp)
  refine ⟨e, moved.buf (by simp), ?_⟩
  have cfg : e.host.cfg = d.host.cfg := by
    obtain ⟨-, -, -, -, -, -, -, -, -, -, -, -, -, cfg, -⟩ := host
    exact cfg
  have filter : filterFor e x.inPort (be x.bytes 0 6) x.vid = none := by
    subst hx
    exact (filterFor_congr cfg ..).trans fil
  have path : hasPath e x = true := by simp [hasPath, boot, full]
  have kept : receiveTc e x = (addFrame e x).2 := by
    have later : (e.boot.phase = .lifeline) = False := by simp [boot, full]
    have through : police e x.inPort x.bytes x = (some x.cls, e) := by simp only [police, filter]
    simp only [receiveTc, path, later, through, Bool.not_true, Bool.false_eq_true, if_false]
    exact if_neg (by rw [hx]; exact Bool.false_ne_true)
  rw [← kept]
  simp only [receiveFrame, Bool.not_false, Bool.true_and, bad, ← hx, marks, adm, gaf, Bool.not_true, Bool.false_eq_true, if_false]
  rfl

/-- A frame added to a tile with no cell to hand out has none. -/
theorem frameOf_addFrame {d : Dev} {x : Frame} (h : ∀ c < tileCells, c ∈ tget [] d.buf.freeing x.tile) (live : x.dead = false) :
    frameOf (addFrame d x).2 d.buf.nextFrame = some { x with chain := [] } := by
  have none := allocCells_freeing (d := d) (cellsOf x.len) h
  have buf : (allocCells d x.tile (cellsOf x.len)).2.buf = d.buf := rfl
  simp [addFrame, live, none, buf, frameOf]

/-! ## The refutation -/

/-- The running tile cycle has freed every cell of tile 0, whose port 0 receives. -/
def allFreeing : State :=
  { dev := { regs := [(Reg.port 0 + Reg.pMode, 9216 * 65536 + 1), (psts 0, 1)], boot := { phase := .full },
             buf := { freeing := [(0, List.range tileCells)] } } }

/-- A frame of one byte, as port 0 receives it there. -/
def oneByte : Frame := newFrame allFreeing.dev 0 [0] false false

/-- The line counts nothing where the PCS and the FEC of a port hold no lock. -/
theorem lineCount_unlocked {d : Dev} {p : Nat} (e : LineErrs) (pcs : flag d (Reg.port p + Reg.pSts) 1 = false)
    (fec : flag d (Reg.port p + Reg.pSts) 2 = false) : lineCount d p e = d := by
  simp [lineCount, pcs, fec]

/-- A frame in no verify mPacket, whole and no MAC control frame, goes to the parser. -/
theorem frameReceive_frame {d : Dev} {p : Nat} {l : List Byte} (pre : Bool) {e : LineErrs} (hp : p < 512) (line : lineCount d p e = d)
    (rec : receives d p = true) (short : cutLen d p l = (l, false)) (plain : macControl l = 0)
    (adm : admitted d p (tileMarks d (tileOf p) (newFrame d p l (fcsGood l) pre) (newFrame d p l (fcsGood l) pre).vid) = true) :
    frameReceive p l pre false 0 0 e d = receiveFrame (pcntAdd d p Reg.rxMmFrag 0) p l false pre := by
  have tile : (newFrame d p l (fcsGood l) pre).tile = tileOf p := rfl
  simp [frameReceive, Nat.not_le.2 hp, line, rec, macReceive, short, plain, tile, adm]

theorem tget_single {α : Type} (dflt : α) (k : Nat) (v : α) : tget dflt [(k, v)] k = v := by simp [tget, tfind]

theorem allFreeing_full : tget [] allFreeing.dev.buf.freeing 0 = List.range tileCells := tget_single ..

theorem allFreeing_keeps :
    ∃ x : Frame, frameOf (frameReceive 0 [0] false false 0 0 ⟨0, 0, 0⟩ (begun allFreeing)) 0 = some { x with chain := [] } := by
  rw [frameReceive_frame false (by decide) (lineCount_unlocked _ (by decide +kernel) (by decide +kernel)) (by decide +kernel)
    (by decide +kernel) (by decide +kernel) (by decide +kernel)]
  obtain ⟨e, buf, keeps⟩ := receiveFrame_keeps (d := pcntAdd (begun allFreeing) 0 Reg.rxMmFrag 0) (p := 0) (l := [0]) (pre := false) rfl
    (by decide +kernel) (by decide +kernel) (by decide +kernel) (by decide +kernel) (by decide +kernel) (by decide +kernel)
  have same : e.buf = allFreeing.dev.buf := buf.trans (by rfl)
  have tile : (newFrame (pcntAdd (begun allFreeing) 0 Reg.rxMmFrag 0) 0 [0] false false).tile = 0 := by decide
  have next : e.buf.nextFrame = 0 := by rw [same]; rfl
  have kept := frameOf_addFrame (d := e) (by rw [same, tile, allFreeing_full]; exact fun c => List.mem_range.2) (by rfl)
  rw [next] at kept
  exact ⟨_, keeps ▸ kept⟩

/-- No frame, copy or error holds a cell of tile 0 there. -/
theorem allFreeing_free : ownedCells allFreeing.dev oneByte.tile ++ strayCells allFreeing.dev oneByte.tile = [] := by decide +kernel

/-- Refutes O30: the statement counts as free the cells that no frame, copy or error holds, but a tile hands out none of those that its
running cycle has freed (R251). -/
theorem not_framesAreReceived : ¬Obligations.FramesAreReceived := by
  intro h
  obtain ⟨-, -, kept⟩ := h allFreeing 0 [0] false ⟨0, 0, 0⟩ (by decide)
  obtain ⟨keeps, -⟩ := kept 0 ([0], false) oneByte (by decide +kernel) (by decide) (by decide +kernel) (by rfl) (by decide) (by decide +kernel)
  obtain ⟨⟨ch, found, -, room⟩, -⟩ := Ends.effect (f := frameReceive 0 [0] false false 0 0 ⟨0, 0, 0⟩) rfl
    (keeps (by decide +kernel) (by decide +kernel) rfl (by decide +kernel) rfl)
  obtain ⟨x, hx⟩ := allFreeing_keeps
  have cells : ch = [] := by
    rw [frameOf, settle_buf] at found
    have eq := found.symm.trans hx
    exact congrArg Frame.chain (Option.some.inj eq)
  obtain ⟨len, -⟩ := room (by rw [allFreeing_free]; decide)
  rw [cells] at len
  exact absurd len (by decide)

end Sys2Proof.Machine
end

section
/-! Settings of a port (R47, R52, R63, R73, Table 12-9). -/

namespace Sys2Proof.Machine

open Sys2Proof

variable {d t : Dev} {s : State} {ps : List Piece} {rs : Nat → Prop}

/-! ## The payload's fields are words -/

theorem leVal_lt (l : List Byte) : leVal l < 256 ^ l.length := by
  induction l with
  | nil => decide
  | cons b r ih =>
    have head : b.toNat < 256 := b.isLt
    simp only [leVal, List.foldr_cons, List.length_cons, pow_succ] at ih ⊢
    omega

theorem le_lt (l : List Byte) (off n : Nat) : le l off n < 256 ^ n :=
  (leVal_lt _).trans_le (Nat.pow_le_pow_right (by decide) (List.length_take_le ..))

theorem pByte_lt (l : List Byte) (i : Nat) : pByte l i < 256 := le_lt l i 1

theorem mem_of_modeRow {m : Nat} {r : ModeRow} (h : modeRow m = some r) : r ∈ modeRows := by
  unfold modeRow at h
  split at h
  · exact absurd h (by simp)
  · exact List.mem_of_getElem? h

theorem mem_of_portRow {p : Nat} {r : ModeRow} (h : portRow d p = some r) : r ∈ modeRows := List.mem_of_find?_eq_some h

theorem portModeWord_lt {l : List Byte} (h : le l 8 2 ≤ 10240) : portModeWord l < two32 := by
  have fec := pByte_lt l 3
  have rows : ∀ r ∈ modeRows, r.speed ≤ 7 ∧ r.lanesCode ≤ 3 := by decide
  cases hr : modeRow (pByte l 2) with
  | none => simp only [portModeWord, hr, two32]; omega
  | some r =>
    have row := rows r (mem_of_modeRow hr)
    simp only [portModeWord, hr, two32]
    omega

theorem pmmWord_lt {l : List Byte} : pmmWord l < two32 := by
  have preempt := pByte_lt l 5
  have least := pByte_lt l 6
  have verify : bits (pByte l 4) 5 1 < 2 := Nat.mod_lt _ (by decide)
  unfold pmmWord two32
  omega

theorem laneMap_lt (l : List Byte) : le l 10 3 < two32 := (le_lt l 10 3).trans (by decide)

theorem lanePol_lt (l : List Byte) : pByte l 13 + 256 * pByte l 14 < two32 := by
  have tx := pByte_lt l 13
  have rx := pByte_lt l 14
  unfold two32
  omega

/-! ## Operations of the command -/

theorem moves_putCfg (d : Dev) (ty i : Nat) (v : List Byte) (h : .host ∈ ps) : Moves ps rs d (putCfg d ty i v) :=
  moves_onHost d rfl ⟨rfl, rfl, rfl⟩ h

theorem moves_portRecord (d : Dev) (p : Nat) (l : List Byte) (h : .host ∈ ps) : Moves ps rs d (portRecord d p l) :=
  .ite ((moves_putCfg d _ _ _ h).trans (moves_putCfg _ _ _ _ h)) (moves_putCfg d _ _ _ h)

theorem rd_portRecord (d : Dev) (p : Nat) (l : List Byte) (a : Nat) : rd (portRecord d p l) a = rd d a :=
  (moves_portRecord (ps := [.host]) (rs := fun _ => False) d p l (by simp)).regs a id

theorem moves_untrained (d : Dev) (p : Nat) (h : .ports ∈ ps) : Moves ps rs d (untrained d p) := moves_setPort d p _ h

theorem moves_setGaf (d : Dev) (p : Nat) (f : List Byte) (h : ∀ i, rs (Reg.port p + Reg.pGaf i)) : Moves ps rs d (setGaf d p f) :=
  Moves.foldl _ (fun d i _ => moves_wr d _ (h i)) d

/-- A covered MAC is one of the three after the port's own (R47). -/
theorem covered_mem {p q : Nat} {r : ModeRow} (hr : r ∈ modeRows) (h : q ∈ covered p r.lanes) : p < q ∧ q < p + 4 := by
  have rows : ∀ r ∈ modeRows, r.lanes ≤ 8 := by decide
  have lanes := rows r hr
  simp only [covered, List.mem_map, List.mem_range] at h
  obtain ⟨i, hi, rfl⟩ := h
  omega

/-- The `PORT_MODE` registers of the MACs that a port can cover. -/
abbrev CoveredMode (p a : Nat) : Prop := ∃ q, p < q ∧ q < p + 4 ∧ a = Reg.port q + Reg.pMode

theorem moves_markCovered (d : Dev) {p : Nat} {r : Option ModeRow} (on : Bool) (hr : ∀ x, r = some x → x ∈ modeRows)
    (h : ∀ a, CoveredMode p a → rs a) : Moves ps rs d (markCovered d p r on) := by
  unfold markCovered
  cases r with
  | none => exact .refl d
  | some x =>
    refine Moves.foldl _ (fun d q hq => ?_) d
    obtain ⟨after, near⟩ := covered_mem (hr x rfl) hq
    have mode := h _ ⟨q, after, near, rfl⟩
    exact (moves_setFlag d 12 on mode).trans (moves_setFlag _ 11 _ mode)

theorem moves_mmFollow (d : Dev) {p : Nat} (was : Bool) (hp : .ports ∈ ps) (hs : rs (psts p)) : Moves ps rs d (mmFollow d p was) :=
  .ite (moves_mmStop d hp hs) (.ite (moves_mmPlain d hp hs) (.ite (.refl d) (.ite (moves_mmVerify d hp hs) (moves_mmStop d hp hs))))

/-- A port's own registers, those after it, and whatever lies above the ports' blocks. -/
abbrev FromPort (p a : Nat) : Prop := Reg.port p ≤ a

theorem fromPort_above {p a : Nat} (hp : p < 512) (h : AbovePorts a) : FromPort p a := by
  simp only [FromPort, AbovePorts, Reg.tile, Reg.port] at *; omega

theorem moves_fallLink (d : Dev) {p : Nat} (hp : p < 512) : Moves [.ports, .buf, .egr, .host] (FromPort p) d (fallLink d p) := by
  have own (o : Nat) : FromPort p (Reg.port p + o) := Nat.le_add_right ..
  have left : Moves [.ports, .buf, .egr, .host] (FromPort p) (fallen d p) (mergeLeft (fallen d p) p) :=
    .ite (.refl _) (moves_mmStop _ (by simp) (own _))
  rw [fallLink_eq]
  exact ((moves_setLink d false (own _) (own _)).trans (moves_pcnt _ (own _) (own _))).trans
    (left.trans (moves_clearPort _ p (by simp) (by simp) (by simp) fun _ => fromPort_above hp))

theorem moves_stopPort (d : Dev) {p : Nat} (hp : p < 512) : Moves [.ports, .buf, .egr, .host] (FromPort p) d (stopPort d p) :=
  .ite (moves_fallLink d hp) (moves_setFld d 1 2 0 (Nat.le_add_right ..))

/-- Without a link a port that stops loses its locks alone. -/
theorem moves_stopPort_down {p : Nat} (h : flag d (psts p) 0 = false) (hs : rs (psts p)) : Moves ps rs d (stopPort d p) := by
  rw [stopPort, h]
  exact moves_setFld d 1 2 0 hs

/-! ## The registers of a port's settings -/

/-- The four settings registers, as a payload gives them. -/
def writeSettings (d : Dev) (p : Nat) (l : List Byte) : Dev :=
  wr (wr (wr (wr d (Reg.port p + Reg.pMode) (portModeWord l)) (Reg.port p + Reg.pLaneMap) (le l 10 3)) (Reg.port p + Reg.pMm)
    (pmmWord l)) (Reg.port p + Reg.pLanePol) (pByte l 13 + 256 * pByte l 14)

/-- Their offsets in a port's block. -/
def settingsRegs : List Nat := [Reg.pMode, Reg.pMm, Reg.pLaneMap, Reg.pLanePol]

theorem moves_writeSettings (d : Dev) {p : Nat} (l : List Byte) (h : ∀ o ∈ settingsRegs, rs (Reg.port p + o)) :
    Moves ps rs d (writeSettings d p l) :=
  (moves_wr d _ (h _ (by decide))).trans ((moves_wr _ _ (h _ (by decide))).trans
    ((moves_wr _ _ (h _ (by decide))).trans (moves_wr _ _ (h _ (by decide)))))

/-- A device with the settings of a payload in the registers of port p. -/
structure SettingsOf (p : Nat) (l : List Byte) (t : Dev) : Prop where
  mode : rd t (Reg.port p + Reg.pMode) = portModeWord l
  mm : rd t (Reg.port p + Reg.pMm) = pmmWord l
  laneMap : rd t (Reg.port p + Reg.pLaneMap) = le l 10 3
  lanePol : rd t (Reg.port p + Reg.pLanePol) = pByte l 13 + 256 * pByte l 14

theorem SettingsOf.congr {p : Nat} {l : List Byte} (h : SettingsOf p l d)
    (same : ∀ o ∈ settingsRegs, rd t (Reg.port p + o) = rd d (Reg.port p + o)) : SettingsOf p l t where
  mode := (same _ (by decide)).trans h.mode
  mm := (same _ (by decide)).trans h.mm
  laneMap := (same _ (by decide)).trans h.laneMap
  lanePol := (same _ (by decide)).trans h.lanePol

theorem writeSettings_settings (d : Dev) (p : Nat) {l : List Byte} (h : le l 8 2 ≤ 10240) : SettingsOf p l (writeSettings d p l) := by
  have ne {o o' : Nat} (h : o ≠ o') : Reg.port p + o ≠ Reg.port p + o' := fun e => h (Nat.add_left_cancel e)
  constructor
  · rw [writeSettings, rd_wr_ne _ _ (ne (by decide)), rd_wr_ne _ _ (ne (by decide)), rd_wr_ne _ _ (ne (by decide)), rd_wr_self,
      Nat.mod_eq_of_lt (portModeWord_lt h)]
  · rw [writeSettings, rd_wr_ne _ _ (ne (by decide)), rd_wr_self, Nat.mod_eq_of_lt pmmWord_lt]
  · rw [writeSettings, rd_wr_ne _ _ (ne (by decide)), rd_wr_ne _ _ (ne (by decide)), rd_wr_self, Nat.mod_eq_of_lt (laneMap_lt l)]
  · rw [writeSettings, rd_wr_self, Nat.mod_eq_of_lt (lanePol_lt l)]

/-! ## `PORT_SET` of a MAC -/

/-- The group-address filter of a long payload (Table 12-9). -/
def withFilter (d : Dev) (p : Nat) (l : List Byte) : Dev := if 16 < l.length then setGaf d p (l.drop 16) else d

/-- The port before its registers are written: the old marks are cleared, and a new mode has stopped it. -/
def beforeSettings (d : Dev) (p : Nat) (falls : Bool) : Dev :=
  if falls then stopPort (markCovered d p (portRow d p) false) p else markCovered d p (portRow d p) false

/-- What follows the settings: a new mode has no lane trained, the new marks, MAC merge, and the committed records. -/
def afterSettings (d : Dev) (p : Nat) (l : List Byte) (falls was : Bool) : Dev :=
  portRecord (mmFollow (markCovered (if falls then untrained d p else d) p (modeRow (pByte l 2)) true) p was) p l

theorem moves_withFilter (d : Dev) {p : Nat} (l : List Byte) (h : ∀ i, rs (Reg.port p + Reg.pGaf i)) :
    Moves ps rs d (withFilter d p l) := .ite (moves_setGaf d p _ h) (.refl d)

theorem withFilter_short {p : Nat} {l : List Byte} (h : l.length ≤ 16) : withFilter d p l = d := if_neg (by omega)

theorem applyPort_eq {p : Nat} (l : List Byte) (h : lifelinePort d p = false) : ∃ falls was,
    applyPort d p l = afterSettings (writeSettings (beforeSettings (withFilter d p l) p falls) p l) p l falls was := by
  have moved : Moves ([] : List Piece) (fun _ => True) d (withFilter d p l) := moves_withFilter d l fun _ => trivial
  have own : ¬lifelinePort (withFilter d p l) p = true := by
    simp only [lifelinePort, moved.boot (by simp)] at h ⊢
    simp [h]
  exact ⟨_, _, if_neg own⟩

theorem moves_afterSettings (d : Dev) {p : Nat} (l : List Byte) (falls was : Bool) (hs : rs (psts p)) (hc : ∀ a, CoveredMode p a → rs a) :
    Moves [.ports, .host] rs d (afterSettings d p l falls was) :=
  ((Moves.ite (moves_untrained d p (by simp)) (.refl d)).trans ((moves_markCovered _ true (fun _ => mem_of_modeRow) hc).trans
    (moves_mmFollow _ was (by simp) hs))).trans (moves_portRecord _ _ _ (by simp))

theorem fromPort_covered {p a : Nat} (h : CoveredMode p a) : FromPort p a := by
  obtain ⟨q, after, -, rfl⟩ := h
  simp only [FromPort, Reg.port]; omega

theorem moves_beforeSettings (d : Dev) {p : Nat} (falls : Bool) (hp : p < 512) :
    Moves [.ports, .buf, .egr, .host] (FromPort p) d (beforeSettings d p falls) := by
  have marks : Moves [.ports, .buf, .egr, .host] (FromPort p) d (markCovered d p (portRow d p) false) :=
    moves_markCovered d false (fun _ => mem_of_portRow) fun _ => fromPort_covered
  exact .ite (marks.trans (moves_stopPort _ hp)) marks

theorem moves_beforeSettings_down {p : Nat} (falls : Bool) (h : flag d (psts p) 0 = false) :
    Moves [.ports] (fun a => a = psts p ∨ CoveredMode p a) d (beforeSettings d p falls) := by
  have marks : Moves [.ports] (CoveredMode p) d (markCovered d p (portRow d p) false) :=
    moves_markCovered d false (fun _ => mem_of_portRow) fun _ h => h
  have apart : ¬CoveredMode p (psts p) := by
    rintro ⟨q, after, near, e⟩
    simp only [psts, Reg.port, Reg.pSts, Reg.pMode] at e; omega
  have down : flag (markCovered d p (portRow d p) false) (psts p) 0 = false := (marks.flag apart 0).trans h
  have marks' := marks.mono (ps' := [.ports]) (rs' := fun a => a = psts p ∨ CoveredMode p a) (by simp) fun _ h => .inr h
  exact .ite (marks'.trans (moves_stopPort_down down (.inl rfl))) marks'

theorem applyPort_settings {p : Nat} {l : List Byte} (h : lifelinePort d p = false) (len : le l 8 2 ≤ 10240) :
    SettingsOf p l (applyPort d p l) := by
  obtain ⟨falls, was, e⟩ := applyPort_eq l h
  have after := moves_afterSettings (rs := fun a => a = psts p ∨ CoveredMode p a) (writeSettings (beforeSettings (withFilter d p l) p falls) p l) l
    falls was (.inl rfl) fun _ h => .inr h
  rw [e]
  refine (writeSettings_settings _ p len).congr fun o ho => after.regs _ ?_
  have size : ∀ o ∈ settingsRegs, o ≠ Reg.pSts ∧ o < 0x1000 := by decide
  obtain ⟨sts, small⟩ := size o ho
  rintro (e | ⟨q, past, near, e⟩)
  · exact psts_ne sts e
  · simp only [Reg.port, Reg.pMode] at e; omega

theorem moves_applyPort {p : Nat} (l : List Byte) (hp : p < 512) (h : lifelinePort d p = false) :
    Moves [.ports, .buf, .egr, .host] (FromPort p) d (applyPort d p l) := by
  obtain ⟨falls, was, e⟩ := applyPort_eq l h
  rw [e]
  exact (moves_withFilter d l fun _ => Nat.le_add_right ..).trans ((moves_beforeSettings _ falls hp).trans ((moves_writeSettings _ l fun _ _ => Nat.le_add_right ..).trans
    ((moves_afterSettings _ l falls was (Nat.le_add_right ..) fun _ => fromPort_covered).mono (by simp) fun _ h => h)))

/-- The registers that `PORT_SET` of a port without a link changes. -/
def settingsWritten (p : Nat) : List Nat :=
  [Reg.port p + Reg.pMm, Reg.port p + Reg.pLaneMap, Reg.port p + Reg.pLanePol, psts p] ++
    (List.range 4).map fun i => Reg.port (p + i) + Reg.pMode

theorem settingsWritten_covered {p a : Nat} (h : a = psts p ∨ CoveredMode p a) : a ∈ settingsWritten p := by
  obtain rfl | ⟨q, past, near, rfl⟩ := h
  · simp [settingsWritten]
  · refine List.mem_append_right _ (List.mem_map.2 ⟨q - p, List.mem_range.2 (by omega), ?_⟩)
    rw [Nat.add_sub_cancel' past.le]

theorem moves_applyPort_down {p : Nat} {l : List Byte} (h : lifelinePort d p = false) (hl : l.length ≤ 16)
    (down : flag d (psts p) 0 = false) : Moves [.ports, .host] (· ∈ settingsWritten p) d (applyPort d p l) := by
  obtain ⟨falls, was, e⟩ := applyPort_eq l h
  have settings : ∀ o ∈ settingsRegs, Reg.port p + o ∈ settingsWritten p := by
    simp [settingsRegs, settingsWritten, List.range_succ]
  rw [e, withFilter_short hl]
  exact ((moves_beforeSettings_down falls down).mono (by simp) fun _ => settingsWritten_covered).trans ((moves_writeSettings _ l settings).trans
    (moves_afterSettings _ l falls was (settingsWritten_covered (.inl rfl)) fun _ h => settingsWritten_covered (.inr h)))

/-! ## `PORT_SET` of a management port (R63, Table 02-10) -/

theorem moves_mgmtFall (d : Dev) (n : Nat) (hs : rs (Reg.mgmt n + 4)) (hc : rs (Reg.mgmt n + 0x2C)) :
    Moves ps rs d (mgmtFall d (512 + n)) := by
  unfold mgmtFall
  exact .ite (moves_mgmtLink d n false hs fun _ => hc) (.refl d)

/-- The management port before its registers are written: a new mode takes its link down. -/
def mgmtBefore (d : Dev) (n : Nat) (l : List Byte) : Dev :=
  if rd d (Reg.mgmt n) % 512 ≠ portModeWord l % 512 then untrained (mgmtFall d (512 + n)) (512 + n) else d

theorem applyMgmt_eq (d : Dev) (n : Nat) (l : List Byte) : applyMgmt d (512 + n) l =
    portRecord (wr (wr (mgmtBefore d n l) (Reg.mgmt n) (portModeWord l)) (Reg.mgmt n + 8) (pByte l 13 + 256 * pByte l 14)) (512 + n)
      (l.take 16) := by
  simp only [applyMgmt, mgmtBefore, Nat.add_sub_cancel_left]

theorem applyMgmt_settings (d : Dev) (n : Nat) {l : List Byte} (len : le l 8 2 ≤ 10240) :
    rd (applyMgmt d (512 + n) l) (Reg.mgmt n) = portModeWord l ∧
      rd (applyMgmt d (512 + n) l) (Reg.mgmt n + 8) = pByte l 13 + 256 * pByte l 14 := by
  rw [applyMgmt_eq]
  simp only [rd_portRecord]
  constructor
  · rw [rd_wr_ne _ _ (by omega), rd_wr_self, Nat.mod_eq_of_lt (portModeWord_lt len)]
  · rw [rd_wr_self, Nat.mod_eq_of_lt (lanePol_lt l)]

theorem moves_applyMgmt (d : Dev) (n : Nat) (l : List Byte) :
    Moves [.ports, .host] (· ∈ [0, 4, 8, 0x2C].map (Reg.mgmt n + ·)) d (applyMgmt d (512 + n) l) := by
  rw [applyMgmt_eq]
  refine (Moves.ite ?_ (.refl d) : Moves _ _ d (mgmtBefore d n l)).trans
    ((moves_wr _ _ (by simp)).trans ((moves_wr _ _ (by simp)).trans (moves_portRecord _ _ _ (by simp))))
  exact (moves_mgmtFall d n (by simp) (by simp)).trans (moves_untrained _ _ (by simp))

theorem moves_applyMgmt_down (n : Nat) (l : List Byte) (down : flag d (Reg.mgmt n + 4) 0 = false) :
    Moves [.ports, .host] (· ∈ [Reg.mgmt n, Reg.mgmt n + 8]) d (applyMgmt d (512 + n) l) := by
  have still : mgmtFall d (512 + n) = d := by simp [mgmtFall, down]
  rw [applyMgmt_eq]
  refine (Moves.ite ?_ (.refl d) : Moves _ _ d (mgmtBefore d n l)).trans
    ((moves_wr _ _ (by simp)).trans ((moves_wr _ _ (by simp)).trans (moves_portRecord _ _ _ (by simp))))
  rw [still]
  exact moves_untrained d _ (by simp)

/-! ## The command -/

theorem Ends.imp {c : Instr} {p q : Dev → Prop} (h : Ends c s p) (hpq : ∀ t, p t → q t) : Ends c s q := by
  obtain ⟨t, run, pending, ht⟩ := h
  exact ⟨t, run, pending, hpq _ ht⟩

/-- A command whose body moves no register of the mailboxes answers, and moves the vintage where its result says so. -/
theorem complete_moved {ch : Nat} {sl : Slot} (hc : ch < 16) (hs : Served s.dev ch sl) (h : Moves ps rs (begun s) t)
    (boot : .boot ∉ ps) (chan : .chan ∉ ps) (regs : ∀ o, o < 0x100 → ¬rs (Reg.chan ch + o)) :
    Served t ch sl ∧ AnsweredOk s.dev (settle (complete ch sl { dev := t, vint := true })) ch sl [] ∧
      (settle (complete ch sl { dev := t, vint := true })).host.vintage = nextVintage s.dev.host.vintage := by
  obtain ⟨master, d3, vintage⟩ := h.access
  have served : Served t ch sl := Served.of_same hs (h.boot boot) (h.parts .chan chan) master d3 (h.regs _ (regs _ (by decide)))
  refine ⟨served, complete_answered s.dev hc served (h.regs _ (regs _ (by decide))) rfl, ?_⟩
  rw [settle_host_vintage, complete_vintage hc served, if_pos rfl, vintage]
  rfl

theorem fromPort_not_chan {ch p o : Nat} (hc : ch < 16) (ho : o < 0x100) : ¬FromPort p (Reg.chan ch + o) := by
  simp only [FromPort, Reg.port, Reg.chan]; omega

theorem mgmt_not_chan {ch n o : Nat} (hn : n < 2) (ho : o < 0x100) (l : List Nat) (hl : ∀ k ∈ l, k < 0x80) :
    Reg.chan ch + o ∉ l.map (Reg.mgmt n + ·) := by
  intro h
  obtain ⟨k, hk, e⟩ := List.mem_map.1 h
  have small := hl k hk
  simp only [Reg.chan, Reg.mgmt] at e; omega

theorem portSet_mgmt {ch n : Nat} {sl : Slot} (hc : ch < 16) (hs : Served s.dev ch sl) (ha : Accepted s.dev ch sl 0x101 0)
    (hlen : sl.len = 16 ∨ sl.len = 528) (hp : le sl.payload 0 2 = 512 + n) (hn : n < 2) (ok : mgmtFieldsOk sl.payload = true) :
    Ends (.portSet ch) s fun t => AnsweredOk s.dev t ch sl [] ∧ rd t (Reg.mgmt n) = portModeWord sl.payload ∧
      rd t (Reg.mgmt n + 8) = pByte sl.payload 13 + 256 * pByte sl.payload 14 ∧ t.host.vintage = nextVintage s.dev.host.vintage ∧
      (flag s.dev (Reg.mgmt n + 4) 0 = false → OnlyRegsBeside ch [Reg.mgmt n, Reg.mgmt n + 8] s.dev t) ∧
      OnlyRegsBeside ch ([0, 4, 8, 0x2C].map (Reg.mgmt n + ·)) s.dev t := by
  have len : le sl.payload 8 2 ≤ 10240 := by
    simp only [mgmtFieldsOk, Bool.and_eq_true, decide_eq_true_eq] at ok
    exact ok.1.2.2.2.2.2.2.1
  have run : portSetRes (begun s) sl = { dev := applyMgmt (begun s) (512 + n) sl.payload, vint := true } := by
    simp [portSetRes, hp, ok, show ¬513 < 512 + n by omega]
  have moved := moves_applyMgmt (begun s) n sl.payload
  obtain ⟨served, answered, vintage⟩ := complete_moved hc hs moved (by simp) (by simp) fun o ho => mgmt_not_chan hn ho _ (by decide)
  obtain ⟨mode, pol⟩ := applyMgmt_settings (begun s) n len
  have idle := moves_applyMgmt_down (d := begun s) n sl.payload
  generalize applyMgmt (begun s) (512 + n) sl.payload = t at *
  have reg (o : Nat) (ho : o < 0x80) : rd (settle (complete ch sl { dev := t, vint := true })) (Reg.mgmt n + o) = rd t (Reg.mgmt n + o) := by
    rw [rd_settle _ (mgmt_ne_irqMsgCnt n o), rd_complete hc served] <;>
      simp only [ChanReg, Reg.mgmt, Reg.chan, Reg.coopBadFree, Reg.coopBadFreeLast, Reg.cc] <;> omega
  refine ends_cmd (op := 0x101) (fl := 0) (flags := 1) rfl (decide_eq_true hc) hc hs ha
    (by simp [slotFlag, ha.2.2.1, bit]) (decide_eq_true hlen) rfl ?_
  rw [run]
  exact ⟨answered, (reg 0 (by decide)).trans mode, (reg 8 (by decide)).trans pol, vintage,
    fun down => complete_onlyRegs hc served fun a h _ => (idle down).regs a h,
    complete_onlyRegs hc served fun a h _ => moved.regs a h⟩

theorem portSet_port {ch p : Nat} {sl : Slot} (hc : ch < 16) (hs : Served s.dev ch sl) (ha : Accepted s.dev ch sl 0x101 0)
    (hl : sl.payload.length = sl.len) (hlen : sl.len = 16 ∨ sl.len = 528) (hp : p = le sl.payload 0 2) (h512 : p < 512)
    (life : lifelinePort s.dev p = false) (ok : portFieldsOk sl.payload = true) (absorbed : absorbedSet s.dev p = false)
    (allowed : ((modeRow (pByte sl.payload 2)).map (modeOk p sl.payload)).getD true = true)
    (free : ((modeRow (pByte sl.payload 2)).map fun r => (covered p r.lanes).filter (ownSet s.dev)).getD [] = [])
    (families : ((modeRow (pByte sl.payload 2)).map (familiesAfter s.dev p)).getD 0 ≤ 2) (safe : safeUses s.dev p = false) :
    Ends (.portSet ch) s fun t => AnsweredOk s.dev t ch sl [] ∧ SettingsOf p sl.payload t ∧
      t.host.vintage = nextVintage s.dev.host.vintage ∧
      (flag s.dev (psts p) 0 = false → sl.len = 16 → OnlyRegsBeside ch (settingsWritten p) s.dev t) := by
  have len : le sl.payload 8 2 ≤ 10240 := by
    obtain ⟨-, -, -, -, -, -, -, most, -⟩ := of_decide_eq_true ok
    exact most
  have run : portSetRes (begun s) sl = { dev := applyPort (begun s) p sl.payload, vint := true } := by
    simp only [portSetRes, ← hp, if_neg (show ¬513 < p by omega), if_neg (show ¬512 ≤ p by omega), ok,
      show absorbedSet (begun s) p = false from absorbed, allowed,
      show ((modeRow (pByte sl.payload 2)).map fun r => (covered p r.lanes).filter (ownSet (begun s))).getD [] = [] from free,
      show safeUses (begun s) p = false from safe]
    simp [show ¬2 < ((modeRow (pByte sl.payload 2)).map (familiesAfter (begun s) p)).getD 0 from Nat.not_lt.2 families]
  have moved := moves_applyPort (d := begun s) sl.payload h512 life
  obtain ⟨served, answered, vintage⟩ := complete_moved hc hs moved (by simp) (by simp) fun o => fromPort_not_chan hc
  refine ends_cmd (op := 0x101) (fl := 0) (flags := 1) rfl (decide_eq_true hc) hc hs ha
    (by simp [slotFlag, ha.2.2.1, bit]) (decide_eq_true hlen) rfl ?_
  rw [run]
  refine ⟨answered, (applyPort_settings (d := begun s) life len).congr fun o ho => ?_, vintage, fun down short => ?_⟩
  · have size : ∀ o ∈ settingsRegs, o < 0x1000 := by decide
    exact rd_complete_port hc served p o h512 (size o ho)
  · have only := moves_applyPort_down (d := begun s) (l := sl.payload) life (by omega) down
    exact complete_onlyRegs hc served fun a h _ => only.regs a h

/-- Settles O19: the body writes the registers, and completion moves the vintage. -/
theorem portSetWritesRegisters : Obligations.PortSetWritesRegisters := by
  rintro s ch p l sl hc hs ha rfl hl hlen hp
  refine ⟨fun least most ok => ?_, fun h512 life ok absorbed allowed free families safe => ?_⟩
  · obtain ⟨n, rfl⟩ := Nat.exists_eq_add_of_le least
    rw [Nat.add_sub_cancel_left]
    exact portSet_mgmt hc hs ha hlen hp.symm (by omega) ok
  · refine Ends.imp (portSet_port hc hs ha hl hlen hp h512 life ok absorbed allowed free families safe) ?_
    rintro t ⟨answered, set, vintage, only⟩
    exact ⟨answered, set.mode, set.mm, set.laneMap, set.lanePol, vintage, only⟩

end Sys2Proof.Machine
end

section
/-! What alarms leave as it is (R502, R518, R523 to R541): telegrams, stops and forced claims change neither the safety configuration in
force nor what has been armed and started. -/

namespace Sys2Proof.Machine

open Sys2Proof

variable {P : Prop} {d t u : Dev} {ps : List Piece} {rs : Nat → Prop}

/-- Every telegram that guard A or B would emit has its seal (R535). -/
def Sealed (d : Dev) : Prop := ∀ e < 2, ∀ j x, tfind (telesNow d e) j = some x → sealGood j x = true

/-- From d to t alarms were raised, shown and sent: the boot and the time stayed, the configurations in force, what `SAFE_STS` shows of
heartbeats and the guards' start, and the settings registers; the claims stayed too where P holds. -/
structure Alarmed (P : Prop) (d t : Dev) : Prop where
  boot : t.boot = d.boot
  now : t.now = d.now
  cfg : t.safe.cfg = d.safe.cfg
  hk : t.safe.hk = d.safe.hk
  loaded : t.safe.loaded = d.safe.loaded
  armed : t.safe.armedHk = d.safe.armedHk
  banks : ∀ g, (guardOf t g).banks = (guardOf d g).banks
  marks : ∀ i, 14 ≤ i → i < 32 → safeFlag t i = safeFlag d i
  stop : rd t Reg.safeStopCfg = rd d Reg.safeStopCfg
  degrade : rd t Reg.safeDegradeCfg = rd d Reg.safeDegradeCfg
  claims : P → ∀ g < 2, claim t g = claim d g

theorem Alarmed.refl (d : Dev) : Alarmed P d d :=
  ⟨rfl, rfl, rfl, rfl, rfl, rfl, fun _ => rfl, fun _ _ _ => rfl, rfl, rfl, fun _ _ _ => rfl⟩

theorem Alarmed.trans (h : Alarmed P d t) (k : Alarmed P t u) : Alarmed P d u where
  boot := k.boot.trans h.boot
  now := k.now.trans h.now
  cfg := k.cfg.trans h.cfg
  hk := k.hk.trans h.hk
  loaded := k.loaded.trans h.loaded
  armed := k.armed.trans h.armed
  banks g := (k.banks g).trans (h.banks g)
  marks i l r := (k.marks i l r).trans (h.marks i l r)
  stop := k.stop.trans h.stop
  degrade := k.degrade.trans h.degrade
  claims p g hg := (k.claims p g hg).trans (h.claims p g hg)

theorem Alarmed.weaken {Q : Prop} (h : Alarmed Q d t) (hpq : P → Q) : Alarmed P d t :=
  { h with claims := fun p => h.claims (hpq p) }

theorem Alarmed.ite {c : Prop} [Decidable c] (h : Alarmed P d t) (k : Alarmed P d u) : Alarmed P d (if c then t else u) := by
  split
  · exact h
  · exact k

theorem Alarmed.sealed (h : Alarmed P d t) (hs : Sealed d) : Sealed t := by
  intro e he j x hx
  refine hs e he j x ?_
  have same : telesNow t e = telesNow d e := by simp only [telesNow, emitBanks, if_pos he, h.loaded, h.banks]
  rwa [same] at hx

/-- What may emit again after alarms: the seals are still good where they were. -/
theorem Alarmed.foldl {α : Type} {f : Dev → α → Dev} (l : List α) (h : ∀ d, (P → Sealed d) → ∀ x ∈ l, Alarmed P d (f d x)) (d : Dev)
    (hs : P → Sealed d) : Alarmed P d (l.foldl f d) := by
  induction l generalizing d with
  | nil => exact .refl d
  | cons x r ih =>
    have first := h d hs x (by simp)
    exact first.trans (ih (fun d hd y hy => h d hd y (by simp [hy])) _ fun p => first.sealed (hs p))

/-! ## Rules of the operations -/

/-- A register beside `SAFE_STS`, the guards' status and the settings in force. -/
abbrev OffSettings (a : Nat) : Prop := a < Reg.safe ∨ Reg.safe + 0x40 ≤ a

/-- A frame without boot, time and safety parts, and without the registers of the safety settings. -/
theorem Moves.alarmed (h : Moves ps OffSettings d t) (hb : .boot ∉ ps) (hn : .now ∉ ps) (hs : .safe ∉ ps) : Alarmed P d t := by
  have safe : t.safe = d.safe := h.parts .safe hs
  have reg {a : Nat} (low : Reg.safe ≤ a) (high : a < Reg.safe + 0x40) : rd t a = rd d a := h.regs a (by simp only [OffSettings]; omega)
  have sts : rd t Reg.safeSts = rd d Reg.safeSts := reg (by decide) (by decide)
  exact ⟨h.boot hb, h.now hn, by rw [safe], by rw [safe], by rw [safe], by rw [safe], fun g => by simp only [guardOf, safe],
    fun i _ _ => by simp only [safeFlag, Machine.flag, sts], reg (by decide) (by decide), reg (by decide) (by decide),
    fun _ g _ => by simp only [claim, Machine.fld, sts]⟩

theorem offSettings_stage (k o : Nat) : OffSettings (Reg.outStage k + o) := by simp only [OffSettings, Reg.outStage, Reg.safe]; omega
theorem offSettings_port (p o : Nat) : OffSettings (Reg.port p + o) := by simp only [OffSettings, Reg.port, Reg.safe]; omega
theorem offSettings_guard (g o : Nat) : OffSettings (Reg.guard g + o) := by simp only [OffSettings, Reg.guard, Reg.safe]; omega

theorem alarmed_cnt (d : Dev) {a : Nat} (h : OffSettings a) : Alarmed P d (cnt d a) :=
  (moves_cnt (ps := []) d h).alarmed (by simp) (by simp) (by simp)

theorem alarmed_bb (d : Dev) (i c : Nat) (l : List Byte) : Alarmed P d (bb d i c l) :=
  (moves_bb (ps := [.tel]) d i c l (by simp) (.inl (by decide))).alarmed (by simp) (by simp) (by simp)

theorem alarmed_mramTrigger (d : Dev) (n : Nat) : Alarmed P d (mramTrigger d n) :=
  (moves_onTel (ps := [.tel]) (rs := OffSettings) d _ (by simp)).alarmed (by simp) (by simp) (by simp)

theorem alarmed_noteSafe (d : Dev) : Alarmed P d (noteSafe d) :=
  (moves_note (ps := [.host]) d _ _ (by simp) (.inl (by decide)) (.inr (by decide))).alarmed (by simp) (by simp) (by simp)

/-- A change of the safety part beside the configurations in force. -/
theorem alarmed_onSafe (d : Dev) {f : Safe → Safe} (hc : (f d.safe).cfg = d.safe.cfg) (hh : (f d.safe).hk = d.safe.hk)
    (hl : (f d.safe).loaded = d.safe.loaded) (ha : (f d.safe).armedHk = d.safe.armedHk)
    (hg : ∀ g, (guardOf (d.onSafe f) g).banks = (guardOf d g).banks) : Alarmed P d (d.onSafe f) :=
  ⟨rfl, rfl, hc, hh, hl, ha, hg, fun _ _ _ => rfl, rfl, rfl, fun _ _ _ => rfl⟩

theorem alarmed_setGuard (d : Dev) (g : Nat) {f : Guard → Guard} (hf : ∀ k, (f k).banks = k.banks) : Alarmed P d (setGuard d g f) := by
  refine alarmed_onSafe d rfl rfl rfl rfl fun q => ?_
  by_cases hq : q = g
  · subst q
    exact (congrArg Guard.banks (guardOf_setGuard_self d g f)).trans (hf _)
  · exact congrArg Guard.banks (guardOf_setGuard_ne d f hq)

/-- The bits of `SAFE_STS` that alarms move: safe state, degraded operation, the stop, its channels and the discrepancy. -/
theorem alarmed_setSafe (d : Dev) {i : Nat} (b : Bool) (h8 : 8 ≤ i) (h14 : i < 14) : Alarmed P d (setSafe d i b) :=
  ⟨rfl, rfl, rfl, rfl, rfl, rfl, fun _ => rfl, fun j lo hi => flag_setFlag_other d _ i j b hi (by omega), rd_setFlag_ne _ _ _ (by decide),
    rd_setFlag_ne _ _ _ (by decide), fun _ g hg => fld_setFld_other d _ i 1 _ (4 * g) 4 (by omega) (by omega)⟩

/-! ## Claims -/

theorem guardSts_ne {g : Nat} (hg : g < 2) :
    Reg.safeSts ≠ Reg.guardSts g ∧ Reg.safeStopCfg ≠ Reg.guardSts g ∧ Reg.safeDegradeCfg ≠ Reg.guardSts g := by
  simp only [Reg.safeSts, Reg.guardSts, Reg.safeStopCfg, Reg.safeDegradeCfg, Reg.safe]; omega

theorem alarmed_setGuardSts (d : Dev) {g : Nat} (i : Nat) (b : Bool) (hg : g < 2) : Alarmed P d (setFlag d (Reg.guardSts g) i b) := by
  obtain ⟨sts, stop, degrade⟩ := guardSts_ne hg
  exact ⟨rfl, rfl, rfl, rfl, rfl, rfl, fun _ => rfl, fun j _ _ => flag_setFlag_ne d i j b sts, rd_setFlag_ne _ _ _ stop,
    rd_setFlag_ne _ _ _ degrade, fun _ g' _ => fld_setFld_ne d i 1 _ (4 * g') 4 sts⟩

theorem alarmed_setClaim (d : Dev) {g : Nat} (v : Nat) (hg : g < 2) : Alarmed False d (setFld d Reg.safeSts (4 * g) 4 v) :=
  ⟨rfl, rfl, rfl, rfl, rfl, rfl, fun _ => rfl,
    fun j lo hi => by simp only [safeFlag, flag_eq_fld, fld_setFld_other d Reg.safeSts (4 * g) 4 v j 1 (by omega) (by omega)],
    rd_setFld_ne _ _ _ _ (by decide), rd_setFld_ne _ _ _ _ (by decide), False.elim⟩

theorem alarmed_forceDown (d : Dev) {g : Nat} (hg : g < 2) : Alarmed False d (forceDown d g) := by
  have timed : Alarmed False d (setGuard d g fun k =>
      if claim d g ≠ 0 ∨ (k.forcedAt = none ∧ k.failedAt = none) then { k with forcedAt := some d.now, failedAt := none } else k) :=
    alarmed_setGuard d g fun k => by split <;> rfl
  unfold forceDown
  exact timed.trans (.ite (.refl _) ((alarmed_setClaim _ 0 hg).trans (((alarmed_cnt _ (.inr (by decide))).trans (alarmed_bb _ _ _ _)).trans
    (alarmed_mramTrigger _ 3))))

theorem alarmed_dropClaim (d : Dev) {g : Nat} (cause : Nat) (hg : g < 2) : Alarmed False d (dropClaim d g cause) :=
  ((alarmed_setGuardSts d _ true hg).trans (alarmed_setGuardSts _ 11 false hg)).trans (alarmed_forceDown _ hg)

/-- The times that alarms note: since when operation has been degraded, and when telegrams are due. -/
theorem alarmed_times (d : Dev) (x : Safe → Option Nat) (y : Safe → Tab Nat) :
    Alarmed P d (d.onSafe fun s => { s with degradeFrom := x s, teleDue := y s }) := alarmed_onSafe d rfl rfl rfl rfl fun _ => rfl

theorem alarmed_claimFlags (d : Dev) : Alarmed P d (claimFlags d) := by
  unfold claimFlags
  refine Alarmed.trans (((alarmed_setSafe d _ (by decide) (by decide)).trans (alarmed_setSafe _ _ (by decide) (by decide))).trans
    (alarmed_times _ _ fun s => s.teleDue)) (.ite ?_ (.ite (alarmed_bb _ _ _ _) (.refl _)))
  exact (((alarmed_cnt _ (.inr (by decide))).trans (alarmed_bb _ _ _ _)).trans (alarmed_mramTrigger _ 2)).trans (alarmed_noteSafe _)

theorem alarmed_noteForced (d : Dev) (was : Nat) : Alarmed P d (noteForced was d) := .ite (.refl d) (alarmed_noteSafe d)

/-! ## Telegrams -/

theorem moves_putOut (d : Dev) (p : Nat) (lead l : List Byte) (he : .egr ∈ ps) : Moves ps rs d (putOut d p lead l) := moves_setEgr d p _ he

theorem moves_osCnt (d : Dev) (p o : Nat) (ha : rs (Reg.outStage (tileOf p) + o)) : Moves ps rs d (osCnt d p o) := moves_cnt d ha

theorem moves_preemptNow (d : Dev) (p : Nat) (hb : .buf ∈ ps) (he : .egr ∈ ps) (hr : ∀ o, rs (Reg.port p + o)) :
    Moves ps rs d (preemptNow d p) := by
  unfold preemptNow
  dsimp only
  split
  · exact .refl d
  · split
    · exact .refl d
    · exact .ite (.refl d) ((moves_fresh d).trans ((moves_putOut _ p _ _ he).trans ((moves_setCopy _ hb _ _).trans (moves_pcnt _ (hr _) (hr _)))))

theorem moves_cutFrame (d : Dev) (p : Nat) (pre : Bool) (id : Nat) (hb : .buf ∈ ps) (he : .egr ∈ ps) (hr : ∀ o, rs (Reg.port p + o))
    (hs : ∀ o, rs (Reg.outStage (tileOf p) + o)) : Moves ps rs d (cutFrame d p pre id) := by
  unfold cutFrame
  split
  · exact .refl d
  · refine .ite (.refl d) ((moves_fresh d).trans ?_)
    exact (((moves_osCnt _ p _ (hs _)).trans (moves_pcnt _ (hr _) (hr _))).trans (moves_pcnt48 _ _ (hr Reg.txBytesAll) (hr (Reg.txBytesAll + 4)) (hr _))).trans
      ((moves_putOut _ p _ _ he).trans (moves_removeCopy _ id hb he))

theorem moves_cutShort (d : Dev) (p : Nat) : Moves [.buf, .egr] OffSettings d (cutShort d p) := by
  have cut (e : Dev) (pre : Bool) (id : Nat) : Moves [.buf, .egr] OffSettings e (cutFrame e p pre id) :=
    moves_cutFrame e p pre id (by simp) (by simp) (offSettings_port p) (offSettings_stage _)
  have express (e : Dev) (o : Option Nat) : Moves [.buf, .egr] OffSettings e (match o with | some id => cutFrame e p false id | none => e) := by
    cases o
    · exact .refl e
    · exact cut e false _
  have first : Moves [.buf, .egr] OffSettings d (preemptNow d p) := moves_preemptNow d p (by simp) (by simp) (offSettings_port p)
  unfold cutShort
  dsimp only
  cases (egrOf (preemptNow d p) p).preempt with
  | none => exact first.trans (express _ _)
  | some id => exact first.trans ((Moves.ite (.refl _) (cut _ true id)).trans (express _ _))

theorem alarmed_offerTele (d : Dev) (j : Nat) (x : Tele) : Alarmed P d (offerTele d j x) := by
  have offered : Moves [.buf, .egr] OffSettings d (cutShort (setEgr d x.port fun e => { e with tele := e.tele ++ [j] }) x.port) :=
    (moves_setEgr d _ _ (by simp)).trans (moves_cutShort _ _)
  exact .ite (.refl d) (offered.alarmed (by simp) (by simp) (by simp))

/-- A seal mismatch forces the claim of a guard; the hardwired path has none. -/
theorem alarmed_sealError (d : Dev) (j : Nat) {e : Nat} (he : e < 3) (h : P → e = 2) : Alarmed P d (sealError j d e) := by
  unfold sealError
  by_cases h2 : e = 2
  · simp only [h2, if_true]
    exact (alarmed_cnt d (.inr (by decide))).trans (alarmed_bb _ _ _ _)
  · simp only [h2, if_false]
    refine Alarmed.weaken (Q := False) ?_ fun p => h2 (h p)
    exact ((alarmed_cnt d (offSettings_guard _ _)).trans (alarmed_bb _ _ _ _)).trans
      (((alarmed_dropClaim _ 3 (by omega)).trans (alarmed_claimFlags _)).trans (alarmed_noteForced _ _))

theorem alarmed_emitFrom (d : Dev) (j : Nat) {e : Nat} (he : e < 3) (hs : P → Sealed d) : Alarmed P d (emitFrom j d e) := by
  unfold emitFrom
  split
  · exact .refl d
  · rename_i x hx
    refine .ite (.refl d) ?_
    split
    · exact alarmed_offerTele d j x
    · rename_i broken
      exact alarmed_sealError d j he fun p => by
        by_contra h2
        exact broken (hs p e (by omega) j x hx)

theorem alarmed_emitTele (d : Dev) (j : Nat) (hs : P → Sealed d) : Alarmed P d (emitTele d j) :=
  Alarmed.foldl _ (fun d hd _ he => alarmed_emitFrom d j (List.mem_range.1 (List.mem_of_mem_filter he)) hd) d hs

theorem alarmed_startTele (d : Dev) (j : Nat) (hs : P → Sealed d) : Alarmed P d (startTele d j) :=
  .ite (.refl d) ((alarmed_emitTele d j hs).trans (alarmed_onSafe _ rfl rfl rfl rfl fun _ => rfl))

theorem alarmed_startTeles (d : Dev) (kinds : Nat) (hs : P → Sealed d) : Alarmed P d (startTeles d kinds) :=
  .ite (.refl d) (Alarmed.foldl _ (fun d hd j _ => alarmed_startTele d j hd) d hs)

theorem alarmed_triggerOn (d : Dev) (kinds : Nat) (hs : P → Sealed d) : Alarmed P d (triggerOn d kinds) := by
  have first := alarmed_startTeles d kinds hs
  exact first.trans (.ite (alarmed_startTeles _ 4 fun p => first.sealed (hs p)) (.refl _))

theorem alarmed_triggerOff (d : Dev) : Alarmed P d (triggerOff d) :=
  alarmed_times d (fun s => s.degradeFrom) fun s => s.teleDue.filter fun e => (telesOf d (activeKinds d)).contains e.1

theorem alarmed_refreshClaims (d : Dev) (hs : P → Sealed d) : Alarmed P d (refreshClaims d) := by
  have flags : Alarmed P d (claimFlags d) := alarmed_claimFlags d
  exact flags.trans (.ite (alarmed_triggerOn _ 4 fun p => flags.sealed (hs p)) (.ite (alarmed_triggerOff _) (.refl _)))

/-! ## Stops -/

theorem alarmed_latchDisc (d : Dev) : Alarmed P d (latchDisc d) := by
  unfold latchDisc
  split
  · exact (alarmed_onSafe d rfl rfl rfl rfl fun _ => rfl).trans
      ((((alarmed_setSafe _ true (by decide) (by decide)).trans (alarmed_cnt _ (.inr (by decide)))).trans (alarmed_bb _ _ _ _)).trans
        ((alarmed_mramTrigger _ 4).trans (alarmed_noteSafe _)))
  · exact .refl d

theorem alarmed_discDue (d : Dev) : Alarmed P d (discDue d) := by
  unfold discDue
  split
  · exact .ite (alarmed_latchDisc d) (.refl d)
  · exact .refl d

theorem alarmed_discStep (d : Dev) (b stop : Bool) : Alarmed P d (discStep d b stop).2 := by
  have noted (x : Option (Bool × Bool × Nat × Bool)) : Alarmed P d (d.onSafe fun s => { s with disc := x }) :=
    alarmed_onSafe d rfl rfl rfl rfl fun _ => rfl
  unfold discStep
  dsimp only
  split
  · split
    · exact noted none
    · exact .ite (noted none) (noted _)
  · split
    · exact .refl d
    · exact noted _

theorem alarmed_clearStep (d : Dev) (ok stop : Bool) : Alarmed P d (clearStep d ok stop) := by
  have noted (x : Bool) : Alarmed P d (d.onSafe fun s => { s with clearing := x }) := alarmed_onSafe d rfl rfl rfl rfl fun _ => rfl
  exact .ite (.refl d) (.ite (noted _) (.ite ((noted false).trans (alarmed_setSafe _ false (by decide) (by decide))) (noted false)))

theorem alarmed_stopBegin (d : Dev) (hs : P → Sealed d) : Alarmed P d (stopBegin d) := by
  have shown : Alarmed P d (cnt (setSafe d 10 true) Reg.stopEvc) :=
    (alarmed_setSafe d true (by decide) (by decide)).trans (alarmed_cnt _ (.inr (by decide)))
  have told := shown.trans ((alarmed_bb _ 41 0x15 (safeArgs (cnt (setSafe d 10 true) Reg.stopEvc) 1
    (b2n (stopSeen (cnt (setSafe d 10 true) Reg.stopEvc) false) + 2 * b2n (stopSeen (cnt (setSafe d 10 true) Reg.stopEvc) true)))).trans
      (alarmed_noteSafe _))
  exact .ite (.refl d) (told.trans (alarmed_triggerOn _ 1 fun p => told.sealed (hs p)))

theorem alarmed_recognise (d : Dev) (b stop : Bool) (hs : P → Sealed d) : Alarmed P d (recognise d b stop) := by
  have bit : (8 : Nat) ≤ (if b then 12 else 11) ∧ (if b then 12 else 11) < (14 : Nat) := by cases b <;> decide
  have seen : Alarmed P d (clearStep (setSafe (discStep (discDue d) b stop).2 (if b then 12 else 11) stop) (discStep (discDue d) b stop).1
      stop) :=
    (((alarmed_discDue d).trans (alarmed_discStep _ b stop)).trans (alarmed_setSafe _ stop bit.1 bit.2)).trans (alarmed_clearStep _ _ stop)
  exact .ite (.refl d) (.ite (seen.trans (alarmed_stopBegin _ fun p => seen.sealed (hs p))) seen)

theorem alarmed_judgeChannels (d : Dev) (hs : P → Sealed d) : Alarmed P d (judgeChannels d) := by
  have first := alarmed_recognise d false (levelStop d false d.pins.safeStopA) hs
  exact first.trans (alarmed_recognise _ true _ fun p => first.sealed (hs p))

end Sys2Proof.Machine
end

section
/-! An image starts firmware and its threads (R759, R761, R569). -/

namespace Sys2Proof.Machine

open Sys2Proof

variable {d t u : Dev} {s : State} {ps : List Piece} {rs : Nat → Prop}

/-! ## Threads under bookkeeping and switching -/

/-- From d to t the threads' depths and interrupt enables stayed, and the time of the watchdog. -/
structure Steady (d t : Dev) : Prop where
  depth : ∀ m, (thrOf t m).depth = (thrOf d m).depth
  ie : ∀ m, (thrOf t m).ie = (thrOf d m).ie
  wdogAt : t.cc.wdogAt = d.cc.wdogAt

theorem Steady.refl (d : Dev) : Steady d d := ⟨fun _ => rfl, fun _ => rfl, rfl⟩

theorem Steady.trans (h : Steady d t) (k : Steady t u) : Steady d u :=
  ⟨fun m => (k.depth m).trans (h.depth m), fun m => (k.ie m).trans (h.ie m), k.wdogAt.trans h.wdogAt⟩

theorem Steady.ite {c : Prop} [Decidable c] (h : Steady d t) (k : Steady d u) : Steady d (if c then t else u) := by
  split
  · exact h
  · exact k

theorem Steady.of_cc (h : t.cc = d.cc) : Steady d t := by
  have same (m : Nat) : thrOf t m = thrOf d m := by simp only [thrOf, h]
  exact ⟨fun m => by rw [same], fun m => by rw [same], by rw [h]⟩

theorem Moves.steady (h : Moves ps rs d t) (hc : .cc ∉ ps) : Steady d t := .of_cc (h.parts .cc hc)

theorem steady_setThr (d : Dev) (n : Nat) {f : Thr → Thr} (hf : ∀ x, (f x).depth = x.depth ∧ (f x).ie = x.ie) : Steady d (setThr d n f) := by
  refine ⟨fun m => ?_, fun m => ?_, rfl⟩ <;> rw [thrOf_setThr] <;> split
  · rename_i e; subst e; exact (hf _).1
  · rfl
  · rename_i e; subst e; exact (hf _).2
  · rfl

theorem steady_setCore (d : Dev) (c : Nat) (f : Core → Core) : Steady d (setCore d c f) := ⟨fun _ => rfl, fun _ => rfl, rfl⟩

theorem sampleRaise_steady (k : Nat) (x : Thr) : (sampleRaise k x).depth = x.depth ∧ (sampleRaise k x).ie = x.ie := by
  unfold sampleRaise; split <;> [exact ⟨rfl, rfl⟩; (split <;> exact ⟨rfl, rfl⟩)]

theorem countdown_steady (x : Thr) (k left next again skid : Nat) :
    (if k < left then { x with sampleLeft := next } else sampleRaise skid { x with sampleLeft := again }).depth = x.depth ∧
      (if k < left then { x with sampleLeft := next } else sampleRaise skid { x with sampleLeft := again }).ie = x.ie := by
  split
  · exact ⟨rfl, rfl⟩
  · exact sampleRaise_steady _ _

theorem steady_perfAdd (d : Dev) (n e k : Nat) : Steady d (perfAdd d n e k) := by
  have counted : Steady d (cntAdd d (Reg.perf n e) k) := (moves_cntAdd (ps := []) (rs := fun _ => True) d k trivial).steady (by simp)
  have skid (e : Dev) (b : Bool) : Steady e (if b then setThr e n fun t => { t with skid := t.skid + k } else e) :=
    .ite (steady_setThr e n fun _ => ⟨rfl, rfl⟩) (.refl e)
  unfold perfAdd
  exact counted.trans ((skid _ (e = 1 && (thrOf (cntAdd d (Reg.perf n e) k) n).sampleDue)).trans
    (.ite (.refl _) (steady_setThr _ n fun x => countdown_steady ..)))

theorem steady_flushThr (d : Dev) (n : Nat) : Steady d (flushThr d n) := by
  unfold flushThr
  dsimp only
  refine (steady_setThr d n (f := fun t => { t with since := d.now }) fun _ => ⟨rfl, rfl⟩).trans ?_
  split
  · exact .refl _
  · split
    · exact steady_perfAdd _ n _ _
    · exact .refl _

theorem steady_setState (d : Dev) (n : Nat) (x : ThrState) : Steady d (setState d n x) := by
  have noted (e : Dev) {f : Core → Core} (b : Bool) : Steady e (if b then setCore e (coreNum n) f else e) :=
    .ite (steady_setCore e _ _) (.refl e)
  unfold setState
  exact (steady_flushThr d n).trans ((steady_setThr _ n (f := fun t => { t with state := x }) fun _ => ⟨rfl, rfl⟩).trans ((noted _ _).trans (noted _ _)))

theorem steady_dispatch (d : Dev) (c : Nat) : Steady d (dispatch d c) := by
  obtain h | ⟨n, -, h⟩ := dispatch_cases d c <;> rw [h]
  · exact .refl d
  · exact (steady_setState d n _).trans (steady_setThr _ n fun _ => ⟨rfl, rfl⟩)

/-- A core's switch is to a READY thread: one that is OFF stays so. -/
theorem dispatch_off (d : Dev) (c : Nat) {m : Nat} (h : (thrOf d m).state = .off) : (thrOf (dispatch d c) m).state = .off := by
  obtain same | ⟨n, ready, same⟩ := dispatch_cases d c <;> rw [same]
  · exact h
  · have ne : m ≠ n := by
      rintro rfl
      simp [isState, h] at ready
    rw [thrOf_setThr_ne _ _ ne, setState_state, if_neg ne, h]

/-! ## A thread starts -/

/-- A thread runs from its start, outside of traps. -/
def Started (d : Dev) (n : Nat) : Prop := Going d n ∧ (thrOf d n).depth = 0 ∧ (thrOf d n).ie = true

/-- A thread has started, or is still OFF. -/
def ParkedOrStarted (d : Dev) (n : Nat) : Prop := (thrOf d n).state = .off ∨ Started d n

/-- A step that keeps the states of a thread, or switches to it, keeps what it is. -/
theorem Started.steady {n : Nat} (h : Started d n) (hs : Steady d t) (hg : Going t n) : Started t n :=
  ⟨hg, (hs.depth n).trans h.2.1, (hs.ie n).trans h.2.2⟩

theorem dispatch_started (c : Nat) {m : Nat} (h : Started d m) : Started (dispatch d c) m := h.steady (steady_dispatch d c) (dispatch_going d c h.1)

/-- The thread as a start sets it up, before it is READY. -/
def launched (d : Dev) (n : Nat) : Dev :=
  setX (setThr d n fun t =>
    { t with pc := BitVec.ofNat 32 (treg d n Reg.tRestartVec), depth := 0, ie := true, codes := [], sampleHeld := false, sampleDue := false,
             left := false, stopping := false }) n 2 (treg d n Reg.tStkHi)

theorem startThr_eq (d : Dev) (n : Nat) : startThr d n = dispatch (setState (launched d n) n .ready) (coreNum n) := rfl

theorem thrOf_launched_ne (d : Dev) {n m : Nat} (h : m ≠ n) : thrOf (launched d n) m = thrOf d m := by
  simp [launched, setX, thrOf_setThr, h]

theorem launched_self (d : Dev) (n : Nat) : (thrOf (launched d n) n).depth = 0 ∧ (thrOf (launched d n) n).ie = true := by
  simp [launched, setX]

theorem launched_wdogAt (d : Dev) (n : Nat) : (launched d n).cc.wdogAt = d.cc.wdogAt := by
  unfold launched setX
  exact apply_ite (fun e : Dev => e.cc.wdogAt) .. |>.trans (ite_self _)

theorem startThr_wdogAt (d : Dev) (n : Nat) : (startThr d n).cc.wdogAt = d.cc.wdogAt := by
  rw [startThr_eq]
  exact ((steady_setState (launched d n) n .ready).trans (steady_dispatch _ _)).wdogAt.trans (launched_wdogAt d n)

theorem startThr_started (d : Dev) (n : Nat) : Started (startThr d n) n := by
  have steady := (steady_setState (launched d n) n .ready).trans (steady_dispatch _ (coreNum n))
  obtain ⟨depth, ie⟩ := launched_self d n
  exact ⟨startThr_going d n, (steady.depth n).trans depth, (steady.ie n).trans ie⟩

/-- Other threads keep their states, but that a core may have switched to them. -/
theorem launched_ready_state (d : Dev) {n m : Nat} (hm : m ≠ n) :
    (thrOf (setState (launched d n) n .ready) m).state = (thrOf d m).state := by
  rw [setState_state, if_neg hm, thrOf_launched_ne d hm]

theorem startThr_off {n m : Nat} (hm : m ≠ n) (off : (thrOf d m).state = .off) : (thrOf (startThr d n) m).state = .off :=
  dispatch_off _ _ ((launched_ready_state d hm).trans off)

theorem startThr_others {n m : Nat} (hm : m ≠ n) (h : Started d m) : Started (startThr d n) m := by
  have launch : Started (launched d n) m := by
    simpa only [Started, Going, thrOf_launched_ne d hm] using h
  have going : Going (setState (launched d n) n .ready) m := by
    simpa only [Going, launched_ready_state d hm] using h.1
  rw [startThr_eq]
  exact dispatch_started _ (launch.steady (steady_setState _ n _) going)

/-! ## Bringing up the threads (R569) -/

/-- Switching moves the control complex's parts alone. -/
theorem Switched.moves (h : Switched d t) : Moves [.cc] (fun _ => True) d t := by
  have host : Same .host d t := h.parts .host (by decide)
  simp only [Same] at host
  exact ⟨fun x hx => h.parts x fun e => hx (by simp [e]), fun _ ha => absurd trivial ha, by simp only [SameAccess, host, and_self],
    by rw [show t.buf = d.buf from h.parts .buf (by decide)]; exact .refl _⟩

theorem moves_wrFree (d : Dev) {a : Nat} (n : Nat) (ha : rs a) : Moves ps rs d (wrFree d a n) := (moves_fresh d).trans (moves_wr _ _ ha)

/-- What is written of a thread before it starts (R569): registers alone. -/
def threadRegs (d : Dev) (n : Nat) : Dev :=
  (fresh ([Reg.tTvec, Reg.tStkLo, Reg.tStkHi, Reg.tRestartVec].foldl (fun d o => wrFree d (Reg.thr n + o) two32) d)).2

theorem moves_threadRegs (d : Dev) (n : Nat) : Moves [] (fun _ => True) d (threadRegs d n) :=
  (Moves.foldl _ (fun d _ _ => moves_wrFree d _ trivial) d).trans (moves_fresh _)

/-- The thread with its cycles counted and its sampling set. -/
def threadSet (d : Dev) (n x : Nat) : Dev := wr (flushThr (threadRegs d n) n) (Reg.thr n + Reg.tSampleCfg) x

theorem bringThread_eq (d : Dev) (n : Nat) :
    ∃ x, bringThread d n = if n = 0 then dispatch (threadSet d n x) 0 else cmdThr (threadSet d n x) n .start := ⟨_, rfl⟩

theorem switched_threadSet (d : Dev) (n x : Nat) : Moves [.cc] (fun _ => True) d (threadSet d n x) :=
  ((moves_threadRegs d n).mono (by simp) fun _ h => h).trans ((tallied_flushThr _ n).switched.moves.trans (moves_wr _ x trivial))

theorem threadRegs_cc (d : Dev) (n : Nat) : (threadRegs d n).cc = d.cc := (moves_threadRegs d n).parts .cc (by simp)

theorem steady_threadSet (d : Dev) (n x : Nat) : Steady d (threadSet d n x) :=
  (Steady.of_cc (threadRegs_cc d n)).trans ((steady_flushThr _ n).trans (.of_cc rfl))

theorem threadSet_state (d : Dev) (n x m : Nat) : (thrOf (threadSet d n x) m).state = (thrOf d m).state := by
  rw [threadSet, thrOf_wr, (tallied_flushThr _ n).state]
  simp only [thrOf, threadRegs_cc]

theorem threadSet_stopped (d : Dev) (n x c : Nat) : (coreOf (threadSet d n x) c).stopped = (coreOf d c).stopped := by
  rw [threadSet, coreOf_wr, (tallied_flushThr _ n).core]
  simp only [coreOf, threadRegs_cc]

theorem ParkedOrStarted.threadSet {m : Nat} (h : ParkedOrStarted d m) (n x : Nat) : ParkedOrStarted (threadSet d n x) m := by
  have state := threadSet_state d n x m
  rcases h with off | started
  · exact .inl (state.trans off)
  · exact .inr (started.steady (steady_threadSet d n x) (by simpa only [Going, state] using started.1))

/-- A start of a thread whose core's clock runs: from OFF alone. -/
theorem cmdThr_start {n : Nat} (h : (coreOf d (coreNum n)).stopped = false) :
    cmdThr d n .start = if (thrOf d n).state = .off then startThr d n else d := by
  simp [cmdThr, h, doCmd, isState]

/-- What the threads' coming up keeps and brings: the clocks run, thread n has started, and the others are what they were. -/
structure Brought (d t : Dev) : Prop where
  moves : Moves [.cc] (fun _ => True) d t
  stopped : ∀ c, (coreOf t c).stopped = (coreOf d c).stopped
  wdogAt : t.cc.wdogAt = d.cc.wdogAt
  threads : ∀ m, ParkedOrStarted d m → ParkedOrStarted t m
  started : ∀ m, Started d m → Started t m

theorem Brought.refl (d : Dev) : Brought d d := ⟨.refl d, fun _ => rfl, rfl, fun _ h => h, fun _ h => h⟩

theorem Brought.trans (h : Brought d t) (k : Brought t u) : Brought d u where
  moves := h.moves.trans k.moves
  stopped c := (k.stopped c).trans (h.stopped c)
  wdogAt := k.wdogAt.trans h.wdogAt
  threads m hm := k.threads m (h.threads m hm)
  started m hm := k.started m (h.started m hm)

theorem brought_threadSet (d : Dev) (n x : Nat) : Brought d (threadSet d n x) where
  moves := switched_threadSet d n x
  stopped := threadSet_stopped d n x
  wdogAt := (steady_threadSet d n x).wdogAt
  threads _ h := h.threadSet n x
  started m h := h.steady (steady_threadSet d n x) (by simpa only [Going, threadSet_state] using h.1)

theorem brought_dispatch (d : Dev) (c : Nat) : Brought d (dispatch d c) where
  moves := (switched_dispatch d c).moves
  stopped := (switched_dispatch d c).stopped
  wdogAt := (steady_dispatch d c).wdogAt
  threads _ h := h.imp (dispatch_off d c) (dispatch_started c)
  started _ := dispatch_started c

theorem not_off_of_started {n : Nat} (h : Started d n) : (thrOf d n).state ≠ .off := by
  intro off
  rcases h.1 with e | e <;> rw [off] at e <;> cases e

theorem brought_startThr {n : Nat} (off : (thrOf d n).state = .off) : Brought d (startThr d n) where
  moves := (switched_startThr d n).moves
  stopped := (switched_startThr d n).stopped
  wdogAt := startThr_wdogAt d n
  threads m h := by
    by_cases hm : m = n
    · subst m
      exact .inr (startThr_started d n)
    · exact h.imp (startThr_off hm) (startThr_others hm)
  started m h := startThr_others (fun e => not_off_of_started h (e ▸ off)) h

theorem brought_bringThread (d : Dev) {n : Nat} (h : (coreOf d (coreNum n)).stopped = false) : Brought d (bringThread d n) := by
  obtain ⟨x, e⟩ := bringThread_eq d n
  rw [e, cmdThr_start ((threadSet_stopped d n x _).trans h)]
  refine (brought_threadSet d n x).trans ?_
  split
  · exact brought_dispatch _ 0
  · split
    · exact brought_startThr (by assumption)
    · exact .refl _

/-- A thread but the first has started by its turn. -/
theorem bringThread_starts {n : Nat} (hn : n ≠ 0) (h : (coreOf d (coreNum n)).stopped = false) (hp : ParkedOrStarted d n) :
    Started (bringThread d n) n := by
  obtain ⟨x, e⟩ := bringThread_eq d n
  rw [e, if_neg hn, cmdThr_start ((threadSet_stopped d n x _).trans h)]
  split
  · exact startThr_started _ n
  · rename_i on
    exact (hp.threadSet n x).resolve_left on

theorem bringThreads {l : List Nat} (hl : ∀ n ∈ l, n < 28) (hc : ∀ c < 4, (coreOf d c).stopped = false)
    (hp : ∀ n ∈ l, n ≠ 0 → ParkedOrStarted d n) :
    Brought d (l.foldl bringThread d) ∧ ∀ n ∈ l, n ≠ 0 → Started (l.foldl bringThread d) n := by
  induction l generalizing d with
  | nil => exact ⟨.refl d, fun _ h => absurd h (by simp)⟩
  | cons n r ih =>
    have clock : (coreOf d (coreNum n)).stopped = false := hc _ (by have := hl n (by simp); simp only [coreNum]; omega)
    have first := brought_bringThread d clock
    obtain ⟨rest, started⟩ := ih (d := bringThread d n) (fun m hm => hl m (by simp [hm])) (fun c h4 => (first.stopped c).trans (hc c h4))
      fun m hm h0 => first.threads m (hp m (by simp [hm]) h0)
    refine ⟨first.trans rest, fun m hm h0 => ?_⟩
    rcases List.mem_cons.1 hm with rfl | hm
    · exact rest.started _ (bringThread_starts h0 clock (hp _ (by simp) h0))
    · exact started m hm h0

/-! ## The image (R761) -/

/-- The device as an image's start has set it, before its threads come up. -/
def imageSet (d : Dev) (imageB : Bool) : Dev :=
  ((d.onBoot fun b => { b with fwRunning := true, imageB }).onCc fun c => { c with wdogAt := d.now }).onSafe
    fun s => { s with startDigest := safeDigest s.cfg }

theorem moves_allCplx (d : Dev) {f : Dev → Nat → Dev} (h : ∀ d k, Moves ps rs d (f d k)) : Moves ps rs d (allCplx d f) :=
  Moves.foldl _ (fun d k _ => h d k) d

theorem moves_setSeeds (d : Dev) (v : List Byte) : Moves ps (fun _ => True) d (setSeeds d v) :=
  moves_allCplx d fun d _ => (moves_wr d _ trivial).trans ((moves_wr _ _ trivial).trans (moves_wr _ _ trivial))

/-- The registers of the complexes and of the event routes, and the time of the peers, as an image's start sets them. -/
def imageRegs (d : Dev) : Dev :=
  let d := setSeeds (d.onHealth fun h => { h with peerAt := d.now }) (cfgReset 7 0)
  let (x, d) := fresh d
  (List.range 30).foldl (fun d s => wrFree d (Reg.ccEvtRoute s) 512) (allCplx d fun d k => wr d (Reg.cplx k + Reg.hhSeed) (x % two32))

theorem firmwareStart_eq (d : Dev) (imageB : Bool) : firmwareStart d imageB = (List.range 28).foldl bringThread (imageRegs (imageSet d imageB)) := by
  unfold firmwareStart imageRegs imageSet
  rfl

theorem moves_imageRegs (d : Dev) : Moves [.health] (fun _ => True) d (imageRegs d) := by
  unfold imageRegs
  refine Moves.trans ?_ (Moves.foldl _ (fun d _ _ => moves_wrFree d _ trivial) _)
  refine Moves.trans ?_ (moves_allCplx _ fun d _ => moves_wr d _ trivial)
  exact (moves_onHealth _ _ (by simp)).trans ((moves_setSeeds _ _).trans (moves_fresh _))

theorem bootImage_starts {a b : Bool} (hl : s.dev.boot.phase = .lifeline) (hf : s.dev.boot.fwRunning = false)
    (hk : flag s.dev Reg.hkFault 1 = false) (ok : a = true ∨ b = true) (hc : ∀ c < 4, (coreOf s.dev c).stopped = false)
    (off : ∀ n, 1 ≤ n → n < 28 → isState s.dev n .off = true) : Ends (.bootImageLoad a b) s fun t =>
      t.boot = { s.dev.boot with fwRunning := true, imageB := !a } ∧ t.cc.wdogAt = s.dev.now ∧
        (∀ n, 1 ≤ n → n < 28 → Going t n ∧ (thrOf t n).depth = 0 ∧ (thrOf t n).ie = true) ∧
        t.safe = { s.dev.safe with startDigest := safeDigest s.dev.safe.cfg } ∧ OnlyParts [.boot, .cc, .health, .safe] s.dev t := by
  have run : bootImageLoad a b (begun s) = firmwareStart (begun s) (!a) := by
    simp [bootImageLoad, hl, hf, hk, ok]
  have start := firmwareStart_eq (begun s) (!a)
  have set := moves_imageRegs (imageSet (begun s) (!a))
  generalize imageRegs (imageSet (begun s) (!a)) = e at start set
  have cc : e.cc = (imageSet (begun s) (!a)).cc := set.parts .cc (by simp)
  have threads (n : Nat) : thrOf e n = thrOf s.dev n := by simp only [thrOf, cc]; rfl
  have clocks (c : Nat) : coreOf e c = coreOf s.dev c := by simp only [coreOf, cc]; rfl
  obtain ⟨brought, started⟩ := bringThreads (d := e) (l := List.range 28) (fun n hn => List.mem_range.1 hn)
    (fun c h4 => by rw [clocks, hc c h4]) fun n hn h0 => .inl (by
      rw [threads]; exact of_decide_eq_true (off n (Nat.one_le_iff_ne_zero.2 h0) (List.mem_range.1 hn)))
  rw [← start, ← run] at brought started
  have boot : (bootImageLoad a b (begun s)).boot = e.boot := brought.moves.boot (by simp)
  have safe : (bootImageLoad a b (begun s)).safe = e.safe := brought.moves.parts .safe (by simp)
  refine ends_of_runIf (f := bootImageLoad a b) rfl rfl ?_
  refine ⟨?_, ?_, fun n h1 h28 => ?_, ?_, onlyParts_settle fun x hx => ?_⟩
  · rw [settle_boot, boot, set.boot (by simp)]; rfl
  · rw [settle_cc, brought.wdogAt, cc]; rfl
  · simpa only [Started, Going, thrOf_settle] using started n (List.mem_range.2 h28) (by omega)
  · rw [settle_safe, safe, show e.safe = _ from set.parts .safe (by simp)]; rfl
  · have image : Same x (begun s) (imageSet (begun s) (!a)) := by cases x <;> simp_all [imageSet, Same]
    exact Same.trans image (Same.trans (set.parts x (by simp_all)) (brought.moves.parts x (by simp_all)))

theorem note_off (h : d.boot.fwRunning = false) (k : Nat) (l : List Byte) : note d k l = d := by simp [note, h]

theorem bootImage_fails (hl : s.dev.boot.phase = .lifeline) (hf : s.dev.boot.fwRunning = false) (hk : flag s.dev Reg.hkFault 1 = false) :
    Ends (.bootImageLoad false false) s fun t =>
      t.boot = s.dev.boot ∧ flag t Reg.hkFault 1 = true ∧ OnlyParts [.tel] s.dev t ∧ OnlyRegs [Reg.hkFault, Reg.bbLost] s.dev t := by
  have run : bootImageLoad false false (begun s) = bb (setFlag (begun s) Reg.hkFault 1 true) 41 (0x40 + 9) (toLe 1 3) := by
    have silent : (bb (setFlag (begun s) Reg.hkFault 1 true) 41 (0x40 + 9) (toLe 1 3)).boot.fwRunning = false := by
      rw [(moves_bb (ps := [.tel]) (rs := fun _ => True) _ 41 _ _ (by simp) trivial).boot (by simp), setFlag_boot]
      exact hf
    have event : bootImageLoad false false (begun s) = healthEvent (setFlag (begun s) Reg.hkFault 1 true) 9 (toLe 1 3) := by
      simp [bootImageLoad, hl, hf, hk]
    rw [event, healthEvent, note_off silent]
  have moved : Moves [.tel] (· ∈ [Reg.hkFault, Reg.bbLost]) (begun s) (bootImageLoad false false (begun s)) := by
    rw [run]
    exact (moves_setFlag _ 1 true (by simp)).trans (moves_bb _ _ _ _ (by simp) (by simp))
  refine ends_of_runIf (f := bootImageLoad false false) rfl rfl ?_
  refine ⟨?_, ?_, moved.onlyParts, moved.onlyRegs⟩
  · rw [settle_boot, moved.boot (by simp)]; rfl
  · rw [flag_settle _ _ (by decide), run,
      (moves_bb (ps := [.tel]) (rs := (· = Reg.bbLost)) _ 41 _ _ (by simp) rfl).flag (by decide)]
    exact flag_setFlag_self _ _ 1 true (by decide)

end Sys2Proof.Machine
end

section
/-! The rest of the start (R60, R542, R557, R759 to R765): lifeline mode, the stop path, the start configuration, the guards and full
service. -/

namespace Sys2Proof.Machine

open Sys2Proof

variable {d t : Dev} {s : State} {ps : List Piece} {rs : Nat → Prop}

/-! ## Lifeline mode (R60) -/

/-- Ports that take mode B. -/
def modeB (d : Dev) (p : Nat) : Dev := setFld d (Reg.port p + Reg.pMode) 0 10 lifelineMode

theorem moves_modeB (l : List Nat) (d : Dev) : Moves [] (fun a => ∃ p ∈ l, a = Reg.port p + Reg.pMode) d (l.foldl modeB d) :=
  Moves.foldl l (fun d p hp => moves_setFld d 0 10 lifelineMode ⟨p, hp, rfl⟩) d

theorem modeB_mode {l : List Nat} {p : Nat} (hp : p ∈ l) (d : Dev) : fld (l.foldl modeB d) (Reg.port p + Reg.pMode) 0 10 = lifelineMode := by
  induction l generalizing d with
  | nil => exact absurd hp (by simp)
  | cons q r ih =>
    by_cases later : p ∈ r
    · rw [List.foldl_cons]
      exact ih later _
    · obtain rfl : p = q := (List.mem_cons.1 hp).resolve_right later
      have rest : ¬∃ q ∈ r, Reg.port p + Reg.pMode = Reg.port q + Reg.pMode := by
        rintro ⟨q, hq, e⟩
        have same : p = q := by simp only [Reg.port] at e; omega
        exact later (same ▸ hq)
      rw [List.foldl_cons, (moves_modeB r _).fld rest, modeB, fld_setFld_self _ _ _ _ _ (by decide)]
      rfl

theorem lifeline_starts (hl : s.dev.boot.phase = .lifeline) (off : s.dev.boot.lifeline = false) : Ends .lifelineStart s fun t =>
    (∀ p < 8, fld t (Reg.port p + Reg.pMode) 0 10 = lifelineMode) ∧ t.boot.lifeline = true ∧ OnlyParts [.boot] s.dev t ∧
      OnlyRegs ((List.range 8).map fun p => Reg.port p + Reg.pMode) s.dev t := by
  have run : lifelineStart (begun s) = (List.range 8).foldl modeB ((begun s).onBoot fun b => { b with lifeline := true }) := by
    simp only [lifelineStart, begun_boot, hl, off]
    rfl
  have ports := moves_modeB (List.range 8) ((begun s).onBoot fun b => { b with lifeline := true })
  have moved : Moves [.boot] (· ∈ (List.range 8).map fun p => Reg.port p + Reg.pMode) (begun s) (lifelineStart (begun s)) := by
    rw [run]
    refine (moves_onBoot _ _ (by simp)).trans (ports.mono (by simp) ?_)
    rintro a ⟨p, hp, rfl⟩
    exact List.mem_map.2 ⟨p, hp, rfl⟩
  refine ends_of_runIf (f := lifelineStart) rfl rfl ⟨fun p hp => ?_, ?_, moved.onlyParts, moved.onlyRegs⟩
  · rw [fld_settle _ _ _ (port_ne_irqMsgCnt p _), run]
    exact modeB_mode (List.mem_range.2 hp) _
  · rw [settle_boot, run, ports.boot (by simp)]
    rfl

/-! ## The stop path (R542) -/

/-- The hardwired path armed with the committed configuration. -/
def pathArmed (d : Dev) : Dev := setSafe (d.onSafe fun s => { s with armedHk := true, hk := { old := s.cfg, new := s.cfg } }) 20 true

theorem moves_pathArmed (d : Dev) : Moves [.safe] (fun _ => True) d (pathArmed d) :=
  (moves_onSafe d _ (by simp)).trans (moves_setFlag _ 20 true trivial)

theorem pathArmed_safe (d : Dev) :
    (pathArmed d).safe = { d.safe with armedHk := true, hk := { old := d.safe.cfg, new := d.safe.cfg } } := by simp [pathArmed, setSafe]

/-- It is armed 80 ms from the release at the latest; what alarms it then raises leave it armed. -/
theorem stopPathArm_runs (ha : alive d = true) (hk : d.safe.armedHk = false) :
    ∃ e, Waited (d.boot.releasedAt + 80 * ps_ms) d e ∧ Alarmed False (pathArmed e) (stopPathArm d) := by
  refine ⟨_, waited_reach .., ?_⟩
  have first (e : Dev) : Alarmed False (pathArmed e) (triggerOn (pathArmed e) (activeKinds (pathArmed e))) :=
    alarmed_triggerOn _ _ False.elim
  have run : stopPathArm d =
      if guardsStarted (triggerOn (pathArmed (reach d (d.boot.releasedAt + 80 * ps_ms)))
          (activeKinds (pathArmed (reach d (d.boot.releasedAt + 80 * ps_ms)))))
      then triggerOn (pathArmed (reach d (d.boot.releasedAt + 80 * ps_ms))) (activeKinds (pathArmed (reach d (d.boot.releasedAt + 80 * ps_ms))))
      else judgeChannels (triggerOn (pathArmed (reach d (d.boot.releasedAt + 80 * ps_ms)))
        (activeKinds (pathArmed (reach d (d.boot.releasedAt + 80 * ps_ms))))) := if_neg (by simp [ha, hk])
  rw [run]
  exact (first _).trans (.ite (.refl _) (alarmed_judgeChannels _ False.elim))

theorem stopPath_arms (ha : alive s.dev = true) (hk : s.dev.safe.armedHk = false) : Ends .stopPathArm s fun t =>
    s.dev.boot.releasedAt + 80 * ps_ms ≤ t.now ∧ t.safe.armedHk = true ∧ t.safe.hk.new = s.dev.safe.cfg ∧ safeFlag t 20 = true ∧
      t.boot = s.dev.boot := by
  obtain ⟨e, w, alarmed⟩ := stopPathArm_runs (d := begun s) ha hk
  have safe : e.safe = s.dev.safe := w.parts .safe (by decide) (by decide)
  have boot : e.boot = s.dev.boot := w.parts .boot (by decide) (by decide)
  refine ends_of_runIf (f := stopPathArm) rfl rfl ⟨?_, ?_, ?_, ?_, ?_⟩
  · rw [settle_now, alarmed.now, (moves_pathArmed e).now (by simp)]
    exact w.due
  · rw [settle_safe, alarmed.armed, pathArmed_safe]
  · rw [settle_safe, alarmed.hk, pathArmed_safe, safe]
  · rw [safeFlag, flag_settle _ _ (by decide)]
    exact (alarmed.marks 20 (by decide) (by decide)).trans (flag_setFlag_self _ _ 20 true (by decide))
  · rw [settle_boot, alarmed.boot, (moves_pathArmed e).boot (by simp), boot]

/-! ## The start configuration (R762) -/

/-- The reports of a start leave the configuration. -/
theorem bb_cfg (d : Dev) (i c : Nat) (l : List Byte) : (bb d i c l).host.cfg = d.host.cfg := by
  unfold bb; dsimp only; split <;> simp

theorem note_cfg (d : Dev) (k : Nat) (l : List Byte) : (note d k l).host.cfg = d.host.cfg := by
  unfold note; split <;> [rfl; (dsimp only; split <;> simp)]

theorem healthEvent_cfg (d : Dev) (k : Nat) (l : List Byte) : (healthEvent d k l).host.cfg = d.host.cfg := (note_cfg ..).trans (bb_cfg ..)

theorem moves_event (d : Dev) (k : Nat) (l : List Byte) : Moves [.tel, .host] (fun _ => True) d (healthEvent d k l) :=
  moves_healthEvent d k l (by simp) (by simp) trivial trivial trivial

theorem startDigests (l : List CfgRec) (d : Dev) :
    Moves [.tel, .host] (fun _ => True) d (l.foldl startDigest d) ∧ (l.foldl startDigest d).host.cfg = d.host.cfg := by
  have one (d : Dev) (r : CfgRec) : Moves [.tel, .host] (fun _ => True) d (startDigest d r) ∧ (startDigest d r).host.cfg = d.host.cfg := by
    unfold startDigest
    split
    · exact ⟨moves_event .., healthEvent_cfg ..⟩
    · exact ⟨.refl d, rfl⟩
  induction l generalizing d with
  | nil => exact ⟨.refl d, rfl⟩
  | cons r l ih => exact ⟨(one d r).1.trans (ih _).1, (ih _).2.trans (one d r).2⟩

theorem startDigests_none {l : List CfgRec} (h : ∀ r ∈ l, r.ty ≠ 46) (d : Dev) : l.foldl startDigest d = d := by
  induction l with
  | nil => rfl
  | cons r l ih =>
    rw [List.foldl_cons, startDigest, if_neg fun e => h r (by simp) e.1]
    exact ih fun q hq => h q (by simp [hq])

section
variable (hl : s.dev.boot.phase = .lifeline) (hf : s.dev.boot.fwRunning = true) (open' : s.dev.boot.startDone = false)
  (idle : s.dev.fwd.ruleJob = none)
include hl hf open' idle

theorem startConfigCommit_none : startConfigCommit none (begun s) = (begun s).onBoot fun b => { b with startDone := true } := by
  exact if_neg (by simp [hl, hf, open', idle])

theorem startConfigCommit_some (l : List Byte) :
    startConfigCommit (some l) (begun s) = (commitStart (begun s) l).onBoot fun b => { b with startDone := true } := by
  exact if_neg (by simp [hl, hf, open', idle])

theorem start_none : Ends (.startConfigCommit none) s fun t =>
    t.boot = { s.dev.boot with startDone := true } ∧ OnlyParts [.boot] s.dev t ∧ OnlyRegs [] s.dev t := by
  have moved : Moves [.boot] (· ∈ []) (begun s) ((begun s).onBoot fun b => { b with startDone := true }) := moves_onBoot _ _ (by simp)
  refine ends_of_runIf (f := startConfigCommit none) rfl rfl ?_
  rw [startConfigCommit_none hl hf open' idle]
  exact ⟨by rw [settle_boot]; rfl, moved.onlyParts, moved.onlyRegs⟩

theorem start_refuses {l : List Byte} {n : Nat} (h : parseRecs startShape l.length l 0 = .error n) :
    Ends (.startConfigCommit (some l)) s fun t =>
      t.boot = { s.dev.boot with startDone := true } ∧ t.host.cfg = s.dev.host.cfg ∧ t.host.vintage = s.dev.host.vintage ∧
        OnlyParts [.boot, .tel, .host] s.dev t := by
  have refused : commitStart (begun s) l = (leadRecs startShape l.length l).foldl startDigest (refuseStart (begun s) n eArg) := by
    simp only [commitStart, h]
  obtain ⟨digests, cfg⟩ := startDigests (leadRecs startShape l.length l) (refuseStart (begun s) n eArg)
  have told := (moves_event (begun s) 10 (toLe 2 n ++ toLe 1 eArg)).trans digests
  refine ends_of_runIf (f := startConfigCommit (some l)) rfl rfl ?_
  rw [startConfigCommit_some hl hf open' idle l]
  rw [refused]
  refine ⟨?_, ?_, ?_, ?_⟩
  · rw [settle_boot]
    exact congrArg (fun b : Boot => { b with startDone := true }) (told.boot (by simp))
  · rw [settle_host_cfg]
    exact cfg.trans (healthEvent_cfg ..)
  · rw [settle_host_vintage]
    exact told.access.2.2
  · exact ((told.mono (ps' := [.boot, .tel, .host]) (by simp) fun _ h => h).trans (moves_onBoot _ _ (by simp))).onlyParts

theorem start_commits {l : List Byte} {rs : List CfgRec} {e : Dev} (h : parseRecs startShape l.length l 0 = .ok rs)
    (plain : ∀ r ∈ rs, r.ty ≠ 46) (applied : startApply s.dev rs = .ok e) (silent : s.dev.host.msgs = []) :
    Ends (.startConfigCommit (some l)) s fun t =>
      t.boot.startDone = true ∧ t.boot.startCfg = true ∧ t.host.cfg = e.host.cfg ∧ t.host.vintage = nextVintage e.host.vintage := by
  have fresh : begun s = s.dev := by simp only [begun, Dev.onHost, ← silent]
  have committed : commitStart (begun s) l =
      ((restartPeers e).onHost fun h => { h with vintage := nextVintage h.vintage }).onBoot fun b => { b with startCfg := true } := by
    simp only [commitStart, h, fresh, applied, startDigests_none plain]
  refine ends_of_runIf (f := startConfigCommit (some l)) rfl rfl ?_
  rw [startConfigCommit_some hl hf open' idle l]
  rw [committed, settle_boot, settle_host_cfg, settle_host_vintage]
  exact ⟨rfl, rfl, rfl, rfl⟩

end

/-! ## The guards (R510, R521, R557) -/

/-- The guards' tables from the committed configuration, whose bases are read as of now. -/
def guardsLoaded (d : Dev) : Dev :=
  let d := d.onSafe fun s => { s with cfg := fixBases s.cfg (extTime d) }
  let own : Banks := { old := d.safe.cfg, new := d.safe.cfg }
  let d := setGuard (setGuard d 0 fun k => { k with banks := own }) 1 fun k => { k with banks := own }
  putMaps (putMaps d true d.safe.cfg.vids) true d.safe.cfg.vids

/-- The settings in their registers, and the guards shown as started, before their claims. -/
def guardsSet (d : Dev) : Dev :=
  let d := guardsLoaded d
  let d := wr (wr d Reg.safeStopCfg d.safe.cfg.stopCfg) Reg.safeDegradeCfg d.safe.cfg.degradeCfg
  setSafe (setSafe (setSafe d 17 true) 18 true) 19 true

/-- The first claims. -/
def claimsSet (d : Dev) : Dev := setFld (setFld d Reg.safeSts 0 4 (firstClaim d 0)) Reg.safeSts 4 4 (firstClaim d 1)

theorem guardsLoaded_cfg (d : Dev) : (guardsLoaded d).safe.cfg = fixBases d.safe.cfg (extTime d) := rfl

theorem moves_setGuard (d : Dev) (g : Nat) (f : Guard → Guard) (h : .safe ∈ ps) : Moves ps rs d (setGuard d g f) := moves_onSafe d _ h

theorem moves_putMaps (d : Dev) (past : Bool) (v : Nat) (h : .safe ∈ ps) : Moves ps rs d (putMaps d past v) := moves_onSafe d _ h

theorem moves_guardsLoaded (d : Dev) : Moves [.safe] (fun _ => False) d (guardsLoaded d) := by
  unfold guardsLoaded
  exact (moves_onSafe d _ (by simp)).trans (((moves_setGuard _ 0 _ (by simp)).trans (moves_setGuard _ 1 _ (by simp))).trans
    ((moves_putMaps _ _ _ (by simp)).trans (moves_putMaps _ _ _ (by simp))))

theorem rd_guardsLoaded (d : Dev) (a : Nat) : rd (guardsLoaded d) a = rd d a := (moves_guardsLoaded d).regs a id

/-- The maps' load leaves the guards. -/
theorem guardOf_putMaps (d : Dev) (past : Bool) (v g : Nat) : guardOf (putMaps d past v) g = guardOf d g := rfl

theorem guardsLoaded_guard (d : Dev) {g : Nat} (hg : g < 2) : guardOf (guardsLoaded d) g =
    { guardOf d g with banks := { old := fixBases d.safe.cfg (extTime d), new := fixBases d.safe.cfg (extTime d) } } := by
  simp only [guardsLoaded, guardOf_putMaps]
  obtain rfl | rfl : g = 0 ∨ g = 1 := by omega
  · rw [guardOf_setGuard_ne _ _ (by decide), guardOf_setGuard_self]
    rfl
  · rw [guardOf_setGuard_self, guardOf_setGuard_ne _ _ (by decide)]
    rfl

theorem guardsSet_safe (d : Dev) : (guardsSet d).safe = (guardsLoaded d).safe := by simp [guardsSet, setSafe]

theorem guardsSet_guard (d : Dev) {g : Nat} (hg : g < 2) : guardOf (guardsSet d) g =
    { guardOf d g with banks := { old := fixBases d.safe.cfg (extTime d), new := fixBases d.safe.cfg (extTime d) } } := by
  rw [← guardsLoaded_guard d hg]
  simp only [guardOf, guardsSet_safe]

theorem claimsSet_safe (d : Dev) : (claimsSet d).safe = d.safe := by simp [claimsSet]

theorem rd_guardsSet (d : Dev) {a : Nat} (h1 : a ≠ Reg.safeSts) (h2 : a ≠ Reg.safeStopCfg) (h3 : a ≠ Reg.safeDegradeCfg) :
    rd (guardsSet d) a = rd d a := by
  unfold guardsSet
  simp only [setSafe, rd_setFlag_ne _ _ _ h1, rd_wr_ne _ _ h3, rd_wr_ne _ _ h2, rd_guardsLoaded]

theorem rd_guardsSet_stop (d : Dev) : rd (guardsSet d) Reg.safeStopCfg = d.safe.cfg.stopCfg % two32 := by
  have sts : Reg.safeStopCfg ≠ Reg.safeSts := by decide
  unfold guardsSet
  simp only [setSafe, rd_setFlag_ne _ _ _ sts]
  rw [rd_wr_ne _ _ (by decide), rd_wr_self, guardsLoaded_cfg]
  rfl

theorem rd_guardsSet_degrade (d : Dev) : rd (guardsSet d) Reg.safeDegradeCfg = d.safe.cfg.degradeCfg % two32 := by
  have sts : Reg.safeDegradeCfg ≠ Reg.safeSts := by decide
  unfold guardsSet
  simp only [setSafe, rd_setFlag_ne _ _ _ sts]
  rw [rd_wr_self, guardsLoaded_cfg]
  rfl

theorem guardsSet_started (d : Dev) : safeFlag (guardsSet d) 17 = true :=
  (flag_setFlag_other _ _ 19 17 true (by decide) (by decide)).trans
    ((flag_setFlag_other _ _ 18 17 true (by decide) (by decide)).trans (flag_setFlag_self _ _ 17 true (by decide)))

/-- The claim that a guard takes at the start. -/
theorem firstClaim_guardsSet (d : Dev) {g : Nat} (hg : g < 2) : firstClaim (guardsSet d) g =
    if fld d (Reg.guardSts g) 4 2 = 0 ∧ (guardOf d g).hot = false then bits (d.safe.cfg.degradeCfg % two32) (18 + 4 * g) 4 else 0 := by
  obtain ⟨sts, stop, degrade⟩ := guardSts_ne hg
  simp only [firstClaim, defClaim, fld, rd_guardsSet d sts.symm stop.symm degrade.symm, rd_guardsSet_degrade, guardsSet_guard d hg,
    Bool.not_eq_true]
  rfl

theorem firstClaim_lt (d : Dev) (g : Nat) : firstClaim d g < 16 := by
  unfold firstClaim
  split
  · exact Nat.mod_lt _ (by decide)
  · decide

theorem claim_claimsSet (d : Dev) {g : Nat} (hg : g < 2) : claim (claimsSet d) g = firstClaim d g := by
  obtain rfl | rfl : g = 0 ∨ g = 1 := by omega
  · refine (fld_setFld_other _ Reg.safeSts 4 4 _ 0 4 (by decide) (by decide)).trans ((fld_setFld_self _ _ 0 4 _ (by decide)).trans ?_)
    exact Nat.mod_eq_of_lt (firstClaim_lt d 0)
  · exact (fld_setFld_self _ _ 4 4 _ (by decide)).trans (Nat.mod_eq_of_lt (firstClaim_lt d 1))

theorem claimsSet_started (d : Dev) : safeFlag (claimsSet d) 17 = safeFlag d 17 := by
  rw [safeFlag, safeFlag, flag_eq_fld, flag_eq_fld, claimsSet, fld_setFld_other _ _ 4 4 _ 17 1 (by decide) (by decide),
    fld_setFld_other _ _ 0 4 _ 17 1 (by decide) (by decide)]

theorem rd_claimsSet (d : Dev) {a : Nat} (h : a ≠ Reg.safeSts) : rd (claimsSet d) a = rd d a :=
  (rd_setFld_ne _ _ _ _ h).trans (rd_setFld_ne _ _ _ _ h)

theorem sealed_guards (h : ∀ j x, tfind d.safe.cfg.teles j = some x → sealGood j x = true) : Sealed (claimsSet (guardsSet d)) := by
  intro e he j x hx
  refine h j x ?_
  have banks : guardOf (claimsSet (guardsSet d)) e = guardOf (guardsSet d) e := by
    simp only [guardOf, claimsSet_safe]
  have own : telesNow (claimsSet (guardsSet d)) e = d.safe.cfg.teles := by
    simp only [telesNow, emitBanks, if_pos he, banks, guardsSet_guard d he, fixBases, ite_self]
  rwa [own] at hx

theorem guardsStart_runs (h0 : guardsStarted d = false) (hf : d.boot.fwRunning = true) (ht : selfTestsPassed d = true)
    (hs : ∀ j x, tfind d.safe.cfg.teles j = some x → sealGood j x = true) : Alarmed True (claimsSet (guardsSet d)) (guardsStart d) := by
  have run : guardsStart d =
      if (refreshClaims (claimsSet (guardsSet d))).safe.armedHk then refreshClaims (claimsSet (guardsSet d))
      else judgeChannels (refreshClaims (claimsSet (guardsSet d))) := if_neg (by simp [h0, hf, ht])
  have sealed := sealed_guards hs
  have first : Alarmed True (claimsSet (guardsSet d)) (refreshClaims (claimsSet (guardsSet d))) := alarmed_refreshClaims _ fun _ => sealed
  rw [run]
  exact first.trans (.ite (.refl _) (alarmed_judgeChannels _ fun _ => first.sealed sealed))

theorem guards_start (h0 : guardsStarted s.dev = false) (hf : s.dev.boot.fwRunning = true) (ht : selfTestsPassed s.dev = true)
    (hs : ∀ j x, tfind s.dev.safe.cfg.teles j = some x → sealGood j x = true) : Ends .guardsStart s fun t =>
      guardsStarted t = true ∧ rd t Reg.safeStopCfg = s.dev.safe.cfg.stopCfg % two32 ∧
        rd t Reg.safeDegradeCfg = s.dev.safe.cfg.degradeCfg % two32 ∧
        (∀ g < 2, claim t g = if fld s.dev (Reg.guardSts g) 4 2 = 0 ∧
          (guardOf s.dev g).hot = false then bits (s.dev.safe.cfg.degradeCfg % two32) (18 + 4 * g) 4 else 0) ∧
        t.safe.cfg = fixBases s.dev.safe.cfg (extTime s.dev) ∧ (∀ g < 2, (guardOf t g).banks.new = t.safe.cfg) := by
  have alarmed := guardsStart_runs (d := begun s) h0 hf ht hs
  have cfg : (guardsStart (begun s)).safe.cfg = fixBases s.dev.safe.cfg (extTime s.dev) := by
    rw [alarmed.cfg, claimsSet_safe, guardsSet_safe]
    rfl
  refine ends_of_runIf (f := guardsStart) rfl rfl ⟨?_, ?_, ?_, fun g hg => ?_, ?_, fun g hg => ?_⟩
  · rw [guardsStarted, safeFlag, flag_settle _ _ (by decide)]
    exact (alarmed.marks 17 (by decide) (by decide)).trans ((claimsSet_started _).trans (guardsSet_started _))
  · rw [rd_settle _ (by decide), alarmed.stop, rd_claimsSet _ (by decide), rd_guardsSet_stop]
    rfl
  · rw [rd_settle _ (by decide), alarmed.degrade, rd_claimsSet _ (by decide), rd_guardsSet_degrade]
    rfl
  · rw [claim, fld_settle _ _ _ (by decide)]
    exact (alarmed.claims trivial g hg).trans ((claim_claimsSet _ hg).trans (firstClaim_guardsSet (begun s) hg))
  · rw [settle_safe, cfg]
  · rw [guardOf_settle, settle_safe, cfg, alarmed.banks, guardOf, claimsSet_safe, ← guardOf, guardsSet_guard _ hg]
    rfl

theorem guards_wait (ht : selfTestsPassed s.dev = false) : Ends .guardsStart s fun t =>
    guardsStarted t = guardsStarted s.dev ∧ OnlyParts [] s.dev t ∧ OnlyRegs [] s.dev t := by
  have run : guardsStart (begun s) = begun s := if_pos (by simp [show selfTestsPassed (begun s) = false from ht])
  have moved : Moves [] (· ∈ []) (begun s) (begun s) := .refl _
  refine ends_of_runIf (f := guardsStart) rfl rfl ?_
  rw [run]
  refine ⟨?_, moved.onlyParts, moved.onlyRegs⟩
  rw [guardsStarted, safeFlag, flag_settle _ _ (by decide)]
  rfl

/-! ## Full service (R763, R764) -/

theorem fullService_owed (f : Nat) (h : owedPorts d ≠ []) : fullService f [] d = d := by
  unfold fullService
  split
  · rfl
  · exact if_pos h

theorem service_waits (h : owedPorts s.dev ≠ []) (f : Nat) : Ends (.fullService f) s fun t => OnlyParts [] s.dev t ∧ OnlyRegs [] s.dev t := by
  have moved : Moves [] (· ∈ []) (begun s) (begun s) := .refl _
  refine ends_of_runIf (f := fullService f []) rfl rfl ?_
  rw [fullService_owed (d := begun s) f h]
  exact ⟨moved.onlyParts, moved.onlyRegs⟩

theorem moves_setPortRegs (d : Dev) {p : Nat} (l : List Byte) (falls : Bool) (hp : p < 512) :
    Moves [.ports, .buf, .egr, .host] (FromPort p) d (setPortRegs d p l falls) := by
  have stopped : Moves [.ports, .buf, .egr, .host] (FromPort p) d (if falls then stopPort d p else d) := .ite (moves_stopPort d hp) (.refl d)
  have written := stopped.trans (moves_writeSettings _ l fun _ _ => Nat.le_add_right ..)
  exact written.trans (.ite (moves_untrained _ p (by simp)) (.refl _))

theorem moves_leaveLifeline (d : Dev) {p : Nat} (hp : p < 512) :
    Moves [.ports, .buf, .egr, .host] (fun _ => True) d (leaveLifeline d p) :=
  (moves_fresh d).trans ((moves_setPort _ p _ (by simp)).trans ((moves_setPortRegs _ _ _ hp).mono (by simp) fun _ _ => trivial))

theorem moves_joinFull (d : Dev) (p : Nat) : Moves [.ports] (fun _ => True) d (joinFull d p) :=
  (Moves.ite (moves_markCovered d true (fun _ => mem_of_portRow) fun _ _ => trivial) (.refl d)).trans (moves_mmFollow _ false (by simp) trivial)

/-- A report of lanes writes no register but the counters of records and notifications. -/
theorem moves_reportLanes (d : Dev) (p : Nat) :
    Moves [.tel, .host] (· ∈ [Reg.bbLost, Reg.fwEvc, Reg.ntfLost]) d (reportLanes d p) := by
  unfold reportLanes
  split
  · exact .refl d
  · exact .ite (.refl d) (moves_healthEvent d _ _ (by simp) (by simp) (by simp) (by simp) (by simp))

/-- The cellar's stacks after their training. -/
def stacksTrained (d : Dev) (f : Nat) : Dev :=
  d.onBuf fun b => { b with failed := ones 4 f, running := (List.range 4).filter fun s => !(ones 4 f).contains s }

theorem moves_trainStacks (d : Dev) (f : Nat) : Moves [.tel, .host] (fun _ => True) (stacksTrained d f) (trainStacks d f) :=
  Moves.foldl _ (fun d _ _ => moves_event d _ _) _

/-- The device as full service finds its ports: out of lifeline mode. -/
def portsJoined (d : Dev) (f : Nat) : Dev := (List.range 8).foldl joinFull ((List.range 8).foldl leaveLifeline (trainStacks d f))

theorem moves_portsJoined (d : Dev) (f : Nat) :
    Moves [.ports, .buf, .egr, .host, .tel] (fun _ => True) (stacksTrained d f) (portsJoined d f) := by
  have left (d : Dev) : Moves [.ports, .buf, .egr, .host] (fun _ => True) d ((List.range 8).foldl leaveLifeline d) :=
    Moves.foldl _ (fun d p hp => moves_leaveLifeline d (by have := List.mem_range.1 hp; omega)) d
  have joined (d : Dev) : Moves [.ports] (fun _ => True) d ((List.range 8).foldl joinFull d) := Moves.foldl _ (fun d p _ => moves_joinFull d p) d
  exact ((moves_trainStacks d f).mono (by simp) fun _ h => h).trans
    (((left _).mono (by simp) fun _ h => h).trans ((joined _).mono (by simp) fun _ h => h))

/-- Full service itself: the phase, the time of the boot and the plan. -/
def inService (d : Dev) : Dev :=
  (wr (d.onBoot fun b => { b with phase := .full, lifeline := false }) Reg.hkBootMs
    ((d.now - d.boot.releasedAt) / ps_ms)).onHealth fun h => { h with bridge := [], planAt := d.now }

theorem fullService_runs (f : Nat) (hl : d.boot.phase = .lifeline) (hf : d.boot.fwRunning = true) (done : d.boot.startDone = true)
    (owed : owedPorts d = []) :
    Moves [.tel, .host] (· ∈ [Reg.bbLost, Reg.fwEvc, Reg.ntfLost]) (inService (portsJoined d f)) (fullService f [] d) := by
  have run : fullService f [] d = (List.range 512).foldl reportLanes (inService (portsJoined d f)) := by
    unfold fullService
    rw [if_neg (by simp [hl, hf, done]), List.foldl_nil, if_neg (by simp [owed])]
    rfl
  rw [run]
  exact Moves.foldl _ (fun d p _ => moves_reportLanes d p) _

theorem service_starts (f : Nat) (hl : s.dev.boot.phase = .lifeline) (hf : s.dev.boot.fwRunning = true)
    (done : s.dev.boot.startDone = true) (owed : owedPorts s.dev = []) : Ends (.fullService f) s fun t =>
      t.boot.phase = .full ∧ t.buf.failed = ones 4 f ∧ (∀ n < 4, n ∈ t.buf.running ↔ n ∉ ones 4 f) ∧ t.health.bridge = [] ∧
        t.health.planAt = s.dev.now ∧ rd t Reg.hkBootMs = (s.dev.now - s.dev.boot.releasedAt) / ps_ms % two32 := by
  have reports := fullService_runs (d := begun s) f hl hf done owed
  have joined := moves_portsJoined (begun s) f
  obtain ⟨running, failed⟩ := joined.cellar
  have boot : (portsJoined (begun s) f).boot = s.dev.boot := joined.boot (by simp)
  have now : (portsJoined (begun s) f).now = s.dev.now := joined.now (by simp)
  have buf : (fullService f [] (begun s)).buf = (portsJoined (begun s) f).buf := reports.buf (by simp)
  have health : (fullService f [] (begun s)).health = (inService (portsJoined (begun s) f)).health := reports.parts .health (by simp)
  refine ends_of_runIf (f := fullService f []) rfl rfl ⟨?_, ?_, fun n hn => ?_, ?_, ?_, ?_⟩
  · rw [settle_boot, reports.boot (by simp)]
    rfl
  · rw [settle_buf, buf, failed]
    rfl
  · rw [settle_buf, buf, running]
    simp [stacksTrained, Dev.onBuf, hn]
  · rw [settle_health, health]
    rfl
  · rw [settle_health, health]
    exact now
  · rw [rd_settle _ (by decide), reports.regs _ (by decide), ← now, ← boot]
    exact rd_wr_self _ _ _

/-- Settles O59: row by row of the start. -/
theorem bringUpReachesFullService : Obligations.BringUpReachesFullService := fun _ =>
  ⟨lifeline_starts, stopPath_arms,
    fun _ _ hl hf hk => ⟨fun ok hc off => bootImage_starts hl hf hk ok hc off, by rintro rfl rfl; exact bootImage_fails hl hf hk⟩,
    fun hl hf open' idle => ⟨start_none hl hf open' idle, fun _ _ => start_refuses hl hf open' idle,
      fun _ _ _ => start_commits hl hf open' idle⟩,
    guards_wait, guards_start, fun _ owed f => service_waits owed f, service_starts⟩

end Sys2Proof.Machine
end

section
/-! What a boundary of a port reads (R341 to R347, R833): the tags of the queues' heads decide nothing of eligibility. -/

namespace Sys2Proof.Machine

open Sys2Proof

variable {d t u : Dev} {p c : Nat} {ps : List Piece} {rs : Nat → Prop}

/-! ## Changes at one port's egress -/

/-- From d to t only the egress state of port p changed. -/
structure AtEgress (p : Nat) (d t : Dev) : Prop where
  eq : t = { d with egr := t.egr }
  others : ∀ q, q ≠ p → egrOf t q = egrOf d q

theorem AtEgress.refl (p : Nat) (d : Dev) : AtEgress p d d := ⟨rfl, fun _ _ => rfl⟩

theorem AtEgress.trans (h : AtEgress p d t) (k : AtEgress p t u) : AtEgress p d u where
  eq := by
    obtain ⟨he, -⟩ := h
    obtain ⟨ke, -⟩ := k
    rw [he] at ke
    exact ke
  others q hq := (k.others q hq).trans (h.others q hq)

theorem atEgress_setEgr (d : Dev) (p : Nat) (f : EgrPort → EgrPort) : AtEgress p d (setEgr d p f) :=
  ⟨rfl, fun _ hq => egrOf_setEgr_ne d f hq⟩

theorem AtEgress.moves (h : AtEgress p d t) : Moves [.egr] rs d t := by
  obtain ⟨he, -⟩ := h
  generalize t.egr = g at he
  subst he
  exact ⟨fun x hx => by cases x <;> simp_all [Same], fun _ _ => rfl, .refl d, .refl d.buf⟩

theorem AtEgress.rd (h : AtEgress p d t) (a : Nat) : rd t a = rd d a := (h.moves (rs := fun _ => False)).regs a id

/-- Only the tags of the heads changed at port p. -/
structure Retagged (p : Nat) (d t : Dev) : Prop extends AtEgress p d t where
  tags : ∃ st fi he, egrOf t p = { egrOf d p with start := st, fin := fi, head := he }

theorem Retagged.refl (p : Nat) (d : Dev) : Retagged p d d := ⟨.refl p d, _, _, _, rfl⟩

theorem Retagged.trans (h : Retagged p d t) (k : Retagged p t u) : Retagged p d u := by
  obtain ⟨st, fi, he, ht⟩ := h.tags
  obtain ⟨st', fi', he', hu⟩ := k.tags
  exact ⟨h.toAtEgress.trans k.toAtEgress, st', fi', he', by rw [hu, ht]⟩

theorem retagged_tagHead (d : Dev) (p c start : Nat) : Retagged p d (tagHead d p c start) := by
  unfold tagHead
  split
  · exact ⟨atEgress_setEgr d p _, _, _, _, egrOf_setEgr_self d p _⟩
  · exact ⟨atEgress_setEgr d p _, _, _, _, egrOf_setEgr_self d p _⟩

theorem retagged_syncHead (d : Dev) (p c : Nat) : Retagged p d (syncHead p d c) := by
  unfold syncHead
  dsimp only
  split
  · exact .refl p d
  · split
    · exact .refl p d
    · exact retagged_tagHead d p c _

theorem retagged_syncHeads (d : Dev) (p : Nat) : Retagged p d (syncHeads d p) := by
  have fold (l : List Nat) (d : Dev) : Retagged p d (l.foldl (syncHead p) d) := by
    induction l generalizing d with
    | nil => exact .refl p d
    | cons c r ih => exact (retagged_syncHead d p c).trans (ih _)
  exact fold _ d

/-- Where every class's tagged head is the head of its queue, the heads are in step. -/
theorem syncHeads_inStep (h : ∀ k < 6, ∀ id, tfind (egrOf d p).head k = some id → (queueOf d p k).head? = some id) : syncHeads d p = d := by
  have fold (l : List Nat) (hl : ∀ k ∈ l, k < 6) : l.foldl (syncHead p) d = d := by
    induction l with
    | nil => rfl
    | cons k r ih =>
      have same : syncHead p d k = d := by
        unfold syncHead
        dsimp only
        split
        · rfl
        · rename_i id hid
          exact if_pos (h k (hl k (by simp)) id hid)
      rw [List.foldl_cons, same]
      exact ih fun j hj => hl j (by simp [hj])
  exact fold _ fun k => List.mem_range.1

/-! ## What the tags leave -/

theorem gatesAt_tags (e : EgrPort) (st fi : Tab Nat) (he : Tab Nat) (n : Nat) :
    gatesAt { e with start := st, fin := fi, head := he } n = gatesAt e n := rfl

theorem staysOpen_tags (fuel : Nat) (e : EgrPort) (st fi : Tab Nat) (he : Tab Nat) (pre : Bool) (c n stop speed : Nat) :
    staysOpen fuel { e with start := st, fin := fi, head := he } pre c n stop speed = staysOpen fuel e pre c n stop speed := by
  induction fuel generalizing n with
  | zero => rfl
  | succ fuel ih =>
    simp only [staysOpen, gatesAt_tags, ih]
    rfl

section
variable (h : Retagged p d t)
include h

theorem Retagged.queue (k : Nat) : queueOf t p k = queueOf d p k := by
  obtain ⟨st, fi, he, ht⟩ := h.tags
  simp only [queueOf, ht]

theorem Retagged.express : (egrOf t p).express = (egrOf d p).express := by
  obtain ⟨st, fi, he, ht⟩ := h.tags
  rw [ht]

theorem Retagged.preempt : (egrOf t p).preempt = (egrOf d p).preempt := by
  obtain ⟨st, fi, he, ht⟩ := h.tags
  rw [ht]

theorem Retagged.ctl : (egrOf t p).ctl = (egrOf d p).ctl := by
  obtain ⟨st, fi, he, ht⟩ := h.tags
  rw [ht]

theorem Retagged.tele : (egrOf t p).tele = (egrOf d p).tele := by
  obtain ⟨st, fi, he, ht⟩ := h.tags
  rw [ht]

theorem Retagged.buf : t.buf = d.buf := (h.moves (rs := fun _ => False)).buf (by simp)

theorem Retagged.copyOf (id : Nat) : copyOf t id = copyOf d id := by simp only [Machine.copyOf, h.buf]

theorem Retagged.frameOf (f : Nat) : frameOf t f = frameOf d f := by simp only [Machine.frameOf, h.buf]

theorem Retagged.txBytes (x : Frame) (c : Copy) : txBytes t x c = txBytes d x c := by
  rw [h.eq]
  rfl

theorem Retagged.txLen (id : Nat) : txLen t id = txLen d id := by
  simp only [Machine.txLen, h.copyOf, h.frameOf, h.txBytes]

theorem Retagged.gateFor (pre : Bool) (c n : Nat) : gateFor t p pre c n = gateFor d p pre c n := by
  obtain ⟨st, fi, he, ht⟩ := h.tags
  have time : extTime t = extTime d := by rw [h.eq]; rfl
  have frac : t.time.frac = d.time.frac := by rw [h.eq]
  have speed : gbps' t p = gbps' d p := by rw [h.eq]; rfl
  simp only [Machine.gateFor, ht, staysOpen_tags, time, frac, speed]

theorem Retagged.mmActive : mmActive t p = mmActive d p := congrArg (bit · 5) (h.rd _)

theorem Retagged.minFrag : minFrag t p = minFrag d p := congrArg (fun r => 64 * (1 + bits r 0 2)) (h.rd _)

theorem Retagged.preemptable (c : Nat) : preemptable t p c = preemptable d p c := by
  rw [h.eq]
  rfl

theorem Retagged.eligible (c : Nat) : eligible t p c = eligible d p c := by
  obtain ⟨st, fi, he, ht⟩ := h.tags
  have bucket (k : Nat) : bktOk t p k = bktOk d p k := by
    have now : bktNow t p k = bktNow d p k := by
      simp only [bktNow, ht]
      rw [h.eq]
      rfl
    have on : shaperEn t p k = shaperEn d p k := by rw [h.eq]; rfl
    simp only [bktOk, on, now]
  have now : t.now = d.now := by rw [h.eq]
  have hold : flag t (stsAddr p) 8 = flag d (stsAddr p) 8 := by simp only [flag, h.rd]
  simp only [Machine.eligible, h.queue, gateFits, h.gateFor, h.txLen, bucket, now, hold, h.preemptable, h.minFrag]
  simp only [ht]

end

end Sys2Proof.Machine
end

section
/-! A boundary of an idle MAC, and the start of a head (R345 to R350, R355, R357, R834). -/

namespace Sys2Proof.Machine

open Sys2Proof

variable {d t u : Dev} {p c id : Nat} {ps : List Piece} {rs : Nat → Prop}

/-! ## What comes before the selection -/

theorem gatesDue_none (h : NoGateDue d p) : gatesDue d p = d := by
  have run (fuel : Nat) : gatesRun fuel d p = d := by
    cases fuel with
    | zero => rfl
    | succ fuel =>
      unfold gatesRun
      split
      · rfl
      · rename_i n sw due
        exact if_pos (h n sw due)
  exact run _

/-- An error is met in the frame that the MAC sends alone. -/
theorem macErrs_idle {pre : Bool} (h : (if pre then (egrOf d p).preempt else (egrOf d p).express) = none) (errs : List CellErr) :
    errs.foldl (macErr p pre) d = d := by
  induction errs with
  | nil => rfl
  | cons x r ih =>
    have same : macErr p pre d x = d := by
      unfold macErr
      dsimp only
      split
      · rfl
      · exact if_pos (.inl (by rw [h]; exact (Option.some_ne_none _).symm))
    rw [List.foldl_cons, same, ih]

theorem endMac_idle {pre : Bool} (h : (if pre then (egrOf d p).preempt else (egrOf d p).express) = none) : endMac d p pre = (true, d) := by
  simp only [endMac, h]

theorem frameBoundary_express (dead : portDead d p = false) (idle : (egrOf d p).express = none) (gates : NoGateDue d p)
    (errs : List CellErr) : frameBoundary p false errs d = expressBoundary (syncHeads d p) p := by
  have none : (if false then (egrOf d p).preempt else (egrOf d p).express) = none := idle
  simp [frameBoundary, dead, gatesDue_none gates, macErrs_idle (pre := false) none, endMac_idle (pre := false) none]

theorem frameBoundary_preempt (dead : portDead d p = false) (active : mmActive d p = true) (idle : (egrOf d p).preempt = none)
    (gates : NoGateDue d p) : frameBoundary p true [] d = preBoundary (syncHeads d p) p := by
  have none : (if true then (egrOf d p).preempt else (egrOf d p).express) = none := idle
  have still : mmActive (syncHeads d p) p = true := (retagged_syncHeads d p).mmActive.trans active
  simp [frameBoundary, dead, active, gatesDue_none gates, endMac_idle (pre := true) none, still]

theorem preemptNow_none (h : (egrOf d p).preempt = none) : preemptNow d p = d := by simp only [preemptNow, h]

theorem preSends_none (h : (egrOf d p).preempt = none) : preSends d p = false := by simp [preSends, h]

/-- The express MAC's boundary once the preemptable MAC has been asked to yield. -/
def expressSelect (d : Dev) (p : Nat) : Dev :=
  if preSends d p then d
  else if (egrOf d p).tele ≠ [] then sendTele d p
  else
    let d := startNext (waitingAt d p + 1) d p false
    if (egrOf d p).express.isSome then d
    else if (egrOf d p).ctl ≠ [] then sendCtl d p
    else startLife (d.buf.copies.length + 1) d p

theorem expressBoundary_eq (d : Dev) (p : Nat) : expressBoundary d p = expressSelect (if expressWaits d p then preemptNow d p else d) p := rfl

/-- Beside an idle preemptable MAC there is nothing to yield. -/
theorem expressBoundary_alone (h : (egrOf d p).preempt = none) : expressBoundary d p = expressSelect d p := by
  rw [expressBoundary_eq, preemptNow_none h, ite_self]

theorem expressSelect_tele (h : preSends d p = false) (tele : (egrOf d p).tele ≠ []) : expressSelect d p = sendTele d p := by
  rw [expressSelect, h, if_neg Bool.false_ne_true, if_pos tele]

theorem startNext_none {pre : Bool} (n : Nat) (pick : (if pre then pickPre d p else pickExpress d p) = none) :
    startNext (n + 1) d p pre = d := by
  simp only [startNext, pick]

theorem expressSelect_ctl (h : preSends d p = false) (tele : (egrOf d p).tele = []) (pick : pickExpress d p = none)
    (idle : (egrOf d p).express = none) : expressSelect d p =
      if (egrOf d p).ctl ≠ [] then sendCtl d p else startLife (d.buf.copies.length + 1) d p := by
  have still : startNext (waitingAt d p + 1) d p false = d := startNext_none _ pick
  unfold expressSelect
  rw [h, if_neg Bool.false_ne_true, if_neg (not_not.2 tele)]
  simp only [still, idle]
  rfl

/-! ## What is picked -/

theorem eligible_empty (h : queueOf d p c = []) : eligible d p c = false := by simp only [eligible, h]

theorem eligible_tc7 {r : List Nat} (h : queueOf d p 7 = id :: r) : eligible d p 7 = true := by simp [eligible, h]

/-- What fair queuing does with a class: it replaces the pick where its tag is smaller, or where there is none. -/
def tagStep (d : Dev) (p : Nat) (b : Option Nat) (c : Nat) : Option Nat :=
  if !eligible d p c then b
  else
    match b with
    | none => some c
    | some k => if signed 48 (tget 0 (egrOf d p).fin c + 2 ^ 48 - tget 0 (egrOf d p).fin k) < 0 then some c else b

theorem wfqPick_eq (d : Dev) (p : Nat) : wfqPick d p = [5, 4, 3, 2, 1, 0].foldl (tagStep d p) none := rfl

theorem tagStep_off (h : eligible d p c = false) (b : Option Nat) : tagStep d p b c = b := by simp [tagStep, h]

/-- Classes above, of which none sends before c: one of them is picked, or none. -/
theorem tagSteps_above {l : List Nat} {b : Option Nat}
    (hl : ∀ k ∈ l, eligible d p k = true → signed 48 (tget 0 (egrOf d p).fin c + 2 ^ 48 - tget 0 (egrOf d p).fin k) < 0)
    (hb : ∀ k, b = some k → signed 48 (tget 0 (egrOf d p).fin c + 2 ^ 48 - tget 0 (egrOf d p).fin k) < 0) :
    ∀ k, l.foldl (tagStep d p) b = some k → signed 48 (tget 0 (egrOf d p).fin c + 2 ^ 48 - tget 0 (egrOf d p).fin k) < 0 := by
  induction l generalizing b with
  | nil => exact hb
  | cons j r ih =>
    refine ih (fun k hk => hl k (by simp [hk])) fun k hk => ?_
    unfold tagStep at hk
    split at hk
    · exact hb k hk
    · rename_i on
      have mine := hl j (by simp) (by simpa using on)
      split at hk
      · obtain rfl := Option.some.inj hk
        exact mine
      · split at hk
        · obtain rfl := Option.some.inj hk
          exact mine
        · exact hb k hk

/-- The class takes the pick from those above. -/
theorem tagStep_takes {b : Option Nat} (on : eligible d p c = true)
    (hb : ∀ k, b = some k → signed 48 (tget 0 (egrOf d p).fin c + 2 ^ 48 - tget 0 (egrOf d p).fin k) < 0) : tagStep d p b c = some c := by
  unfold tagStep
  rw [if_neg (by simp [on])]
  split
  · rfl
  · exact if_pos (hb _ rfl)

/-- Classes below keep it. -/
theorem tagSteps_below {l : List Nat}
    (hl : ∀ k ∈ l, eligible d p k = true → ¬signed 48 (tget 0 (egrOf d p).fin k + 2 ^ 48 - tget 0 (egrOf d p).fin c) < 0) :
    l.foldl (tagStep d p) (some c) = some c := by
  induction l with
  | nil => rfl
  | cons j r ih =>
    have same : tagStep d p (some c) j = some c := by
      unfold tagStep
      split
      · rfl
      · exact if_neg (hl j (by simp) (by simpa using ‹¬(!eligible d p j) = true›))
    rw [List.foldl_cons, same]
    exact ih fun k hk => hl k (by simp [hk])

theorem classes_split : ∀ c < 6, [5, 4, 3, 2, 1, 0] = (List.range' (c + 1) (5 - c)).reverse ++ c :: (List.range c).reverse := by decide

/-- The class whose finish tag is smallest, the higher class of equal ones, is the one that fair queuing picks (R346, R347, R357). -/
theorem wfqPick_smallest (hc : c < 6) (on : eligible d p c = true)
    (least : ∀ k < 6, k ≠ c → eligible d p k = true →
      if c < k then signed 48 (tget 0 (egrOf d p).fin c + 2 ^ 48 - tget 0 (egrOf d p).fin k) < 0
      else ¬signed 48 (tget 0 (egrOf d p).fin k + 2 ^ 48 - tget 0 (egrOf d p).fin c) < 0) : wfqPick d p = some c := by
  rw [wfqPick_eq, classes_split c hc, List.foldl_append, List.foldl_cons, tagStep_takes on]
  · refine tagSteps_below fun k hk onk => ?_
    have below : k < c := by simpa using hk
    have rule := least k (by omega) (by omega) onk
    rwa [if_neg (by omega)] at rule
  · refine tagSteps_above (fun k hk onk => ?_) (by simp)
    have above : c + 1 ≤ k ∧ k < c + 1 + (5 - c) := by simpa [List.mem_range'_1] using hk
    have rule := least k (by omega) (by omega) onk
    rwa [if_pos (by omega)] at rule

theorem wfqPick_none (h : ∀ k < 8, queueOf d p k = []) : wfqPick d p = none := by
  have steps (l : List Nat) (hl : ∀ k ∈ l, k < 8) : l.foldl (tagStep d p) none = none := by
    induction l with
    | nil => rfl
    | cons k r ih =>
      rw [List.foldl_cons, tagStep_off (eligible_empty (h k (hl k (by simp))))]
      exact ih fun j hj => hl j (by simp [hj])
  rw [wfqPick_eq]
  exact steps _ (by decide)

/-- A pick whose head may start. -/
theorem startNext_starts {pre : Bool} {cp : Copy} {x : Frame} {r : List Nat} (n : Nat)
    (pick : (if pre then pickPre d p else pickExpress d p) = some c) (queue : queueOf d p c = id :: r) (copy : copyOf d id = some cp)
    (frame : frameOf d cp.frame = some x) (keeps : headDiscard d p id cp x = none) :
    startNext (n + 1) d p pre = startHead d p c id cp x pre := by
  simp only [startNext, pick, queue, copy, frame, keeps]

/-! ## The start of a head -/

/-- Buckets of port p alone changed. -/
structure Bucketed (p : Nat) (d t : Dev) : Prop extends AtEgress p d t where
  buckets : ∃ b, egrOf t p = { egrOf d p with buckets := b }

theorem Bucketed.refl (p : Nat) (d : Dev) : Bucketed p d d := ⟨.refl p d, _, rfl⟩

theorem Bucketed.trans (h : Bucketed p d t) (k : Bucketed p t u) : Bucketed p d u := by
  obtain ⟨b, ht⟩ := h.buckets
  obtain ⟨b', hu⟩ := k.buckets
  exact ⟨h.toAtEgress.trans k.toAtEgress, b', by rw [hu, ht]⟩

theorem bucketed_charge (d : Dev) (p len k : Nat) : Bucketed p d (charge len p d k) := by
  unfold charge
  split
  · exact ⟨atEgress_setEgr d p _, _, egrOf_setEgr_self d p _⟩
  · exact .refl p d

theorem bucketed_charges (d : Dev) (p len : Nat) (l : List Nat) : Bucketed p d (l.foldl (charge len p) d) := by
  induction l generalizing d with
  | nil => exact .refl p d
  | cons k r ih => exact (bucketed_charge d p len k).trans (ih _)

/-- A copy on the wire. -/
def onWire (l : List Byte) (stamp : Nat) (k : Copy) : Copy := { k with loc := .sending, bytes := some l, stamp }

/-- The head taken from its queue and given to a MAC. -/
def taken (d : Dev) (p c id : Nat) (pre : Bool) (l : List Byte) (stamp : Nat) : Dev :=
  setEgr (setCopy d id (onWire l stamp)) p fun e => { e with
    queues := tmod [] e.queues c List.tail
    express := if pre then e.express else some id
    preempt := if pre then some id else e.preempt }

/-- What follows by class: the virtual time and the next head's tags, or the record of what a TC7 stream sent last. -/
def afterTaken (d : Dev) (p c fin : Nat) (f : Safe → Tab Nat) : Dev :=
  let d := if c < 6 then tagHead (setVtime d p fin) p c fin else d
  if c = 7 then osCnt (d.onSafe fun s => { s with lastSent := f s }) p Reg.osFwd else d

theorem oneStep_plain {x : Frame} (h : x.parse.ptpOff = none) (cp : Copy) (l : List Byte) (n : Nat) : oneStep d x cp l n = (l, false) := by
  unfold oneStep
  split
  · rfl
  · rw [h]
    split
    · rename_i e
      exact absurd e (by simp)
    · rfl

theorem mirSessions_none (h : d.tel.mirrors = []) (f src : Nat) (w : List Byte → Bool) : mirSessions d f src w = [] := by
  have off (s : Nat) : mirOn (mirOf d f s) = false := by
    rw [mirOf, h]
    rfl
  simp [mirSessions, off]

theorem egressMirrors_none {cp : Copy} (plain : cp.mirror = none) (h : cp.cls = 7 ∨ d.tel.mirrors = []) (l : List Byte) :
    egressMirrors d p cp l = d := by
  simp only [egressMirrors, plain]
  split
  · rfl
  · rename_i other
    rw [mirSessions_none (h.resolve_left other)]
    rfl

theorem injectDone_none {x : Frame} {f : Nat} (frame : frameOf d f = some x) (h : x.inject = none) (status stamp : Nat) :
    injectDone d f status stamp = d := by
  simp [injectDone, frame, h]

theorem copyOf_setCopy (d : Dev) (i j : Nat) (g : Copy → Copy) :
    copyOf (setCopy d i g) j = if j = i then (copyOf d i).map g else copyOf d j := by
  cases h : tfind d.buf.copies i with
  | none =>
    simp only [copyOf, setCopy, Dev.onBuf, h]
    split
    · rename_i e
      rw [e, h]
      rfl
    · rfl
  | some x =>
    simp only [copyOf, setCopy, Dev.onBuf, h]
    exact tfind_tins ..

theorem frameOf_setCopy (d : Dev) (i f : Nat) (g : Copy → Copy) : frameOf (setCopy d i g) f = frameOf d f := by
  unfold frameOf setCopy Dev.onBuf
  dsimp only
  cases tfind d.buf.copies i <;> rfl

theorem moves_afterTaken (d : Dev) (p c fin : Nat) (f : Safe → Tab Nat) (hv : rs (Reg.egr p + Reg.eVtime))
    (hv4 : rs (Reg.egr p + Reg.eVtime + 4)) (ho : rs (Reg.outStage (tileOf p) + Reg.osFwd)) :
    Moves [.egr, .safe] rs d (afterTaken d p c fin f) := by
  have first : Moves [.egr, .safe] rs d (if c < 6 then tagHead (setVtime d p fin) p c fin else d) :=
    .ite (((moves_wr d _ hv).trans (moves_wr _ _ hv4)).trans (moves_tagHead _ p c fin (by simp))) (.refl d)
  exact first.trans (.ite ((moves_onSafe _ _ (by simp)).trans (moves_cnt _ ho)) (.refl _))

theorem frameOf_afterTaken (d : Dev) (p c fin : Nat) (f : Safe → Tab Nat) (n : Nat) : frameOf (afterTaken d p c fin f) n = frameOf d n := by
  simp only [frameOf, (moves_afterTaken (rs := fun _ => True) d p c fin f trivial trivial trivial).buf (by simp)]

theorem frameOf_taken (d : Dev) (p c id : Nat) (pre : Bool) (l : List Byte) (stamp n : Nat) :
    frameOf (taken d p c id pre l stamp) n = frameOf d n := frameOf_setCopy d id n _

/-- A head without time correction, mirrors or an injection starts as its class does. -/
theorem startHead_plain {pre : Bool} {cp : Copy} {x : Frame} (ptp : x.parse.ptpOff = none) (plain : cp.mirror = none)
    (mirrors : cp.cls = 7 ∨ d.tel.mirrors = []) (frame : frameOf d cp.frame = some x) (inject : x.inject = none) :
    ∃ e stamp f, Bucketed p d e ∧
      startHead d p c id cp x pre = afterTaken (taken e p c id pre (txBytes d x cp) stamp) p c (tget 0 (egrOf d p).fin c) f := by
  have charged := bucketed_charges d p (txBytes d x cp).length (chargedTo c)
  obtain ⟨b, tags⟩ := charged.buckets
  refine ⟨(chargedTo c).foldl (charge (txBytes d x cp).length p) d, stampExt d p true % two32,
    fun s => tins s.lastSent (sentKey p ((cp.accepted.map (·.1.stream)).getD 0)) x.arrival, charged, ?_⟩
  generalize he : (chargedTo c).foldl (charge (txBytes d x cp).length p) d = e at charged tags
  have silent : egressMirrors e p cp (txBytes d x cp) = e := egressMirrors_none plain (by rw [charged.eq]; exact mirrors) _
  have fin : tget 0 (egrOf e p).fin c = tget 0 (egrOf d p).fin c := by rw [tags]
  unfold startHead
  simp only [oneStep_plain ptp, Bool.false_eq_true, if_false, he, silent, plain, if_true, fin]
  refine injectDone_none ?_ inject 0 _
  exact (frameOf_afterTaken _ _ _ _ _ _).trans ((frameOf_taken ..).trans ((congrArg (tfind · cp.frame) (by rw [charged.eq])).trans frame))

/-- A head that a MAC has started (R345, R346): it leaves its queue, and goes on the wire with its bytes. -/
structure HeadStarted (pre : Bool) (p c id : Nat) (cp : Copy) (l : List Byte) (d t : Dev) : Prop where
  mac : (if pre then (egrOf t p).preempt else (egrOf t p).express) = some id
  other : (if pre then (egrOf t p).express else (egrOf t p).preempt) = if pre then (egrOf d p).express else (egrOf d p).preempt
  ctl : (egrOf t p).ctl = (egrOf d p).ctl
  queue : queueOf t p c = (queueOf d p c).tail
  queues : ∀ k, k ≠ c → queueOf t p k = queueOf d p k
  copy : ∃ n, copyOf t id = some (onWire l n cp)
  copies : ∀ j, j ≠ id → copyOf t j = copyOf d j

theorem HeadStarted.retagged {pre : Bool} {cp : Copy} {l : List Byte} (h : HeadStarted pre p c id cp l d t) (k : Retagged p t u) :
    HeadStarted pre p c id cp l d u where
  mac := by rw [k.express, k.preempt]; exact h.mac
  other := by rw [k.express, k.preempt]; exact h.other
  ctl := k.ctl.trans h.ctl
  queue := (k.queue c).trans h.queue
  queues j hj := (k.queue j).trans (h.queues j hj)
  copy := by
    obtain ⟨n, hn⟩ := h.copy
    exact ⟨n, (k.copyOf id).trans hn⟩
  copies j hj := (k.copyOf j).trans (h.copies j hj)

/-- What reads egress and buffer alone is as it was. -/
theorem HeadStarted.same {pre : Bool} {cp : Copy} {l : List Byte} (h : HeadStarted pre p c id cp l d t) (buf : u.buf = t.buf)
    (egr : egrOf u p = egrOf t p) : HeadStarted pre p c id cp l d u := by
  have copies (j : Nat) : copyOf u j = copyOf t j := by simp only [copyOf, buf]
  have queues (k : Nat) : queueOf u p k = queueOf t p k := by simp only [queueOf, egr]
  exact ⟨by rw [egr]; exact h.mac, by rw [egr]; exact h.other, by rw [egr]; exact h.ctl, (queues c).trans h.queue,
    fun k hk => (queues k).trans (h.queues k hk), by rw [copies]; exact h.copy, fun j hj => (copies j).trans (h.copies j hj)⟩

theorem taken_started (pre : Bool) {cp : Copy} (l : List Byte) (stamp : Nat) (copy : copyOf d id = some cp) :
    HeadStarted pre p c id cp l d (taken d p c id pre l stamp) := by
  have egr : egrOf (taken d p c id pre l stamp) p = { egrOf d p with
      queues := tmod [] (egrOf d p).queues c List.tail
      express := if pre then (egrOf d p).express else some id
      preempt := if pre then some id else (egrOf d p).preempt } := egrOf_setEgr_self ..
  have copies (j : Nat) : copyOf (taken d p c id pre l stamp) j = if j = id then (copyOf d id).map (onWire l stamp) else copyOf d j :=
    copyOf_setCopy d id j _
  refine ⟨?_, ?_, ?_, ?_, fun k hk => ?_, ⟨stamp, ?_⟩, fun j hj => ?_⟩
  · rw [egr]; cases pre <;> rfl
  · rw [egr]; cases pre <;> rfl
  · rw [egr]
  · rw [queueOf, egr]; exact tget_tmod_self ..
  · rw [queueOf, egr]; exact tget_tmod_ne _ _ _ hk
  · rw [copies, if_pos rfl, copy]; rfl
  · rw [copies, if_neg hj]

theorem HeadStarted.of_bucketed {pre : Bool} {cp : Copy} {l : List Byte} (k : Bucketed p d u) (h : HeadStarted pre p c id cp l u t) :
    HeadStarted pre p c id cp l d t := by
  obtain ⟨b, egr⟩ := k.buckets
  have buf : u.buf = d.buf := by rw [k.eq]
  have queues (j : Nat) : queueOf u p j = queueOf d p j := by simp only [queueOf, egr]
  refine ⟨h.mac, ?_, ?_, ?_, fun j hj => ?_, h.copy, fun j hj => ?_⟩
  · rw [h.other, egr]
  · rw [h.ctl, egr]
  · rw [h.queue, queues]
  · rw [h.queues j hj, queues]
  · rw [h.copies j hj]; simp only [copyOf, buf]

theorem afterTaken_started {pre : Bool} {cp : Copy} {l : List Byte} (h : HeadStarted pre p c id cp l d t) (fin : Nat) (f : Safe → Tab Nat) :
    HeadStarted pre p c id cp l d (afterTaken t p c fin f) := by
  have first : HeadStarted pre p c id cp l d (if c < 6 then tagHead (setVtime t p fin) p c fin else t) := by
    split
    · exact HeadStarted.retagged (t := setVtime t p fin) (h.same rfl rfl) (retagged_tagHead _ p c fin)
    · exact h
  have counted : Moves [.safe] (fun _ => True) (if c < 6 then tagHead (setVtime t p fin) p c fin else t) (afterTaken t p c fin f) :=
    .ite ((moves_onSafe _ _ (by simp)).trans (moves_cnt _ trivial)) (.refl _)
  exact first.same (counted.buf (by simp)) (counted.egr (by simp) p)

/-- The virtual time takes the finish tag that starts (R357). -/
theorem vtime_setVtime (d : Dev) (p v : Nat) : vtime (setVtime d p v) p = v % 2 ^ 48 := by
  have lo : rd (setVtime d p v) (Reg.egr p + Reg.eVtime) = v % two32 := by
    rw [setVtime, rd_wr_ne _ _ (by omega), rd_wr_self, Nat.mod_mod]
  have hi : rd (setVtime d p v) (Reg.egr p + Reg.eVtime + 4) = v / two32 % 65536 := by
    rw [setVtime, rd_wr_self]
    exact Nat.mod_eq_of_lt ((Nat.mod_lt _ (by decide)).trans (by decide))
  rw [vtime, lo, hi]
  unfold two32
  omega

theorem vtime_afterTaken (d : Dev) (p fin : Nat) (f : Safe → Tab Nat) (hc : c < 6) : vtime (afterTaken d p c fin f) p = fin % 2 ^ 48 := by
  have regs (a : Nat) : rd (afterTaken d p c fin f) a = rd (setVtime d p fin) a := by
    simp only [afterTaken, if_pos hc, if_neg (show c ≠ 7 by omega), (retagged_tagHead _ p c fin).rd]
  rw [← vtime_setVtime d p fin]
  simp only [vtime, regs]

theorem osFwd_afterTaken (d : Dev) (p fin : Nat) (f : Safe → Tab Nat) : rd (afterTaken d p 7 fin f) (Reg.outStage (tileOf p) + Reg.osFwd) =
    (rd d (Reg.outStage (tileOf p) + Reg.osFwd) + 1) % two32 := rd_cnt_self ..

theorem rd_taken (d : Dev) (p c id : Nat) (pre : Bool) (l : List Byte) (stamp a : Nat) : rd (taken d p c id pre l stamp) a = rd d a :=
  ((moves_setCopy (ps := [.buf, .egr]) (rs := fun _ => False) d (by simp) id (onWire l stamp)).trans (moves_setEgr _ p _ (by simp))).regs a not_false

/-- The start of a head that is plain: what it brings, the virtual time or the count of its class, and the registers it leaves. -/
theorem startHead_starts {pre : Bool} {cp : Copy} {x : Frame} (copy : copyOf d id = some cp) (ptp : x.parse.ptpOff = none)
    (plain : cp.mirror = none) (mirrors : cp.cls = 7 ∨ d.tel.mirrors = []) (frame : frameOf d cp.frame = some x) (inject : x.inject = none) :
    HeadStarted pre p c id cp (txBytes d x cp) d (startHead d p c id cp x pre) ∧
      (c < 6 → vtime (startHead d p c id cp x pre) p = tget 0 (egrOf d p).fin c % 2 ^ 48) ∧
      (c = 7 → rd (startHead d p c id cp x pre) (Reg.outStage (tileOf p) + Reg.osFwd) =
        (rd d (Reg.outStage (tileOf p) + Reg.osFwd) + 1) % two32) ∧
      ∀ o, p < 512 → o < 0x1000 → rd (startHead d p c id cp x pre) (Reg.port p + o) = rd d (Reg.port p + o) := by
  obtain ⟨e, stamp, f, charged, start⟩ := startHead_plain (d := d) (p := p) (c := c) (id := id) (pre := pre) ptp plain mirrors frame inject
  have copy' : copyOf e id = some cp := by rw [charged.eq]; exact copy
  have started := taken_started (p := p) (c := c) pre (txBytes d x cp) stamp copy'
  rw [start]
  refine ⟨.of_bucketed charged (afterTaken_started started _ f), vtime_afterTaken _ p _ f, ?_, fun o hp ho => ?_⟩
  · rintro rfl
    rw [osFwd_afterTaken, rd_taken, charged.rd]
  · have off : ¬(AbovePorts (Reg.port p + o) ∨ Reg.port p + o = Reg.outStage (tileOf p) + Reg.osFwd) := by
      rintro (above | e)
      · exact not_abovePorts_port hp ho above
      · simp only [Reg.port, Reg.outStage, tileOf, Reg.osFwd] at e; omega
    rw [(moves_afterTaken (rs := fun a => AbovePorts a ∨ a = Reg.outStage (tileOf p) + Reg.osFwd) _ p c _ f (.inl (abovePorts_egr ..))
      (.inl (abovePorts_egr p (Reg.eVtime + 4))) (.inr rfl)).regs _ off, rd_taken, charged.rd]

/-- A head that is picked for the express MAC is what its boundary starts. -/
theorem expressSelect_starts {cp : Copy} {x : Frame} {r : List Nat} (h : preSends d p = false) (tele : (egrOf d p).tele = [])
    (pick : pickExpress d p = some c) (queue : queueOf d p c = id :: r) (copy : copyOf d id = some cp)
    (frame : frameOf d cp.frame = some x) (keeps : headDiscard d p id cp x = none) (ptp : x.parse.ptpOff = none)
    (plain : cp.mirror = none) (mirrors : cp.cls = 7 ∨ d.tel.mirrors = []) (inject : x.inject = none) :
    expressSelect d p = startHead d p c id cp x false := by
  have start : startNext (waitingAt d p + 1) d p false = startHead d p c id cp x false := startNext_starts _ pick queue copy frame keeps
  obtain ⟨started, -⟩ := startHead_starts (p := p) (c := c) (pre := false) copy ptp plain mirrors frame inject
  have sends : (egrOf (startHead d p c id cp x false) p).express = some id := started.mac
  unfold expressSelect
  rw [h, if_neg Bool.false_ne_true, if_neg (not_not.2 tele)]
  simp only [start, sends]
  rfl

end Sys2Proof.Machine
end

section
/-! A copy joins its queue, and what leaves first at a boundary: telegrams, TC7, control frames (R341, R342, R345, R538, R834). -/

namespace Sys2Proof.Machine

open Sys2Proof

variable {d t u : Dev} {s : State} {p c id : Nat} {ps : List Piece} {rs : Nat → Prop}

theorem portDead_congr (h : ∀ o, rd t (Reg.port p + o) = rd d (Reg.port p + o)) : portDead t p = portDead d p := by
  have mode : fld t (Reg.port p + Reg.pMode) 0 4 = fld d (Reg.port p + Reg.pMode) 0 4 := congrArg (bits · 0 4) (h _)
  have covered : flag t (Reg.port p + Reg.pMode) 12 = flag d (Reg.port p + Reg.pMode) 12 := congrArg (bit · 12) (h _)
  have up : linkUp? t p = linkUp? d p := congrArg (bit · 0) (h _)
  rw [portDead, portDead, mode, covered, up]

/-! ## Joining a queue -/

/-- The copy at the end of its queue. -/
def queued (d : Dev) (p id : Nat) (c : Copy) : Dev :=
  setEgr (setCopy d id fun c => { c with loc := .queued }) p
    fun e => { e with queues := tins e.queues c.cls (queueOf d p c.cls ++ [id]) }

/-- The copy in its queue, with its tags where it is the head. -/
def queuedTagged (d : Dev) (p id : Nat) (c : Copy) : Dev :=
  if queueOf d p c.cls = [] ∧ c.cls < 6 then tagHead (queued d p id c) p c.cls (vtime (queued d p id c) p) else queued d p id c

theorem joinQueue_eq (d : Dev) (id : Nat) (c : Copy) : joinQueue d id c =
    if portDead (queued (syncHeads d c.port) c.port id c) c.port then
      dropDown (queued (syncHeads d c.port) c.port id c) (tileOf c.port) id
    else if !preemptable (queuedTagged (syncHeads d c.port) c.port id c) c.port c.cls &&
        expressReady (queuedTagged (syncHeads d c.port) c.port id c) c.port then
      preemptNow (queuedTagged (syncHeads d c.port) c.port id c) c.port
    else queuedTagged (syncHeads d c.port) c.port id c := rfl

theorem moves_queued (d : Dev) (p id : Nat) (c : Copy) : Moves [.buf, .egr] (fun _ => False) d (queued d p id c) :=
  (moves_setCopy _ (by simp) id _).trans (moves_setEgr _ p _ (by simp))

theorem egrOf_setCopy (d : Dev) (i q : Nat) (g : Copy → Copy) : egrOf (setCopy d i g) q = egrOf d q := rfl

theorem egrOf_queued (d : Dev) (p id : Nat) (c : Copy) :
    egrOf (queued d p id c) p = { egrOf d p with queues := tins (egrOf d p).queues c.cls (queueOf d p c.cls ++ [id]) } := by
  rw [queued, egrOf_setEgr_self, egrOf_setCopy]

theorem retagged_queuedTagged (d : Dev) (p id : Nat) (c : Copy) : Retagged p (queued d p id c) (queuedTagged d p id c) := by
  unfold queuedTagged
  split
  · exact retagged_tagHead ..
  · exact .refl _ _

/-- Beside an idle preemptable MAC a join tags a head at most. -/
theorem joinQueue_queued {c : Copy} (hp : c.port = p) (dead : portDead d p = false) (idle : (egrOf d p).preempt = none) :
    joinQueue d id c = queuedTagged (syncHeads d p) p id c := by
  subst hp
  have sync := retagged_syncHeads d c.port
  have eq := joinQueue_eq d id c
  generalize syncHeads d c.port = e at sync eq
  have alive : portDead (queued e c.port id c) c.port = false := by
    rw [← dead]; exact portDead_congr fun _ => ((moves_queued e _ id c).regs _ not_false).trans (sync.rd _)
  have none : (egrOf (queuedTagged e c.port id c) c.port).preempt = none := by
    rw [(retagged_queuedTagged ..).preempt, egrOf_queued]
    exact sync.preempt.trans idle
  rw [eq, alive, if_neg Bool.false_ne_true, preemptNow_none none, ite_self]

theorem copy_joins {c : Copy} (copy : copyOf s.dev id = some c) (hp : c.port = p) (can : canJoin s.dev c = true)
    (first : firstLeft s.dev id c = true) (dead : portDead s.dev p = false) (idle : (egrOf s.dev p).preempt = none) :
    Ends (.egressQueueJoin id) s fun t =>
      queueOf t p c.cls = queueOf s.dev p c.cls ++ [id] ∧ copyOf t id = some { c with loc := .queued } ∧
        (∀ k, k ≠ c.cls → queueOf t p k = queueOf s.dev p k) ∧ (∀ q, q ≠ p → egrOf t q = egrOf s.dev q) ∧
        OnlyParts [.buf, .egr] s.dev t ∧ OnlyRegs [] s.dev t := by
  have run : egressQueueJoin id (begun s) = queuedTagged (syncHeads (begun s) p) p id c := by
    rw [← joinQueue_queued (d := begun s) hp dead idle]
    unfold egressQueueJoin
    rw [show copyOf (begun s) id = some c from copy]
    exact if_pos (Bool.and_eq_true_iff.2 ⟨can, first⟩)
  have sync := retagged_syncHeads (begun s) p
  generalize syncHeads (begun s) p = e at sync run
  have tagged := retagged_queuedTagged e p id c
  have egr := egrOf_queued e p id c
  have moved : Moves [.buf, .egr] (· ∈ []) (begun s) (queuedTagged e p id c) :=
    (sync.moves.mono (by simp) fun _ h => h).trans (((moves_queued e p id c).mono (fun _ h => h) fun _ h => h.elim).trans
      (tagged.moves.mono (by simp) fun _ h => h))
  have settled (k : Nat) : queueOf (settle (queuedTagged e p id c)) p k = queueOf (queued e p id c) p k := by
    rw [← tagged.queue k]; simp only [queueOf, egrOf_settle]
  refine ends_of_runIf (f := egressQueueJoin id) rfl rfl ?_
  rw [run]
  refine ⟨?_, ?_, fun k hk => ?_, fun q hq => ?_, moved.onlyParts, moved.onlyRegs⟩
  · rw [settled, queueOf, egr]
    simp only [tget, tfind_tins_self, Option.getD_some]
    exact congrArg (· ++ [id]) (sync.queue _)
  · rw [copyOf, settle_buf, ← copyOf, tagged.copyOf]
    refine (copyOf_setCopy e id id _).trans ?_
    rw [if_pos rfl, sync.copyOf, show copyOf (begun s) id = some c from copy]
    rfl
  · rw [settled, queueOf, egr]
    simp only [tget, tfind_tins_ne _ _ hk]
    exact sync.queue k
  · rw [egrOf_settle, tagged.others q hq]
    exact (egrOf_setEgr_ne _ _ hq).trans (sync.others q hq)

/-! ## Telegrams (R538) -/

theorem foldl_min_least {r : List Nat} {a j : Nat} (mem : j = a ∨ j ∈ r) (ha : j ≤ a) (hr : ∀ k ∈ r, j ≤ k) : r.foldl min a = j := by
  induction r generalizing a with
  | nil => exact (mem.resolve_right (by simp)).symm
  | cons b r ih =>
    have hb := hr b (by simp)
    refine ih ?_ (le_min ha hb) fun k hk => hr k (by simp [hk])
    rcases mem with rfl | mem
    · exact .inl (min_eq_left hb).symm
    · rcases List.mem_cons.1 mem with rfl | mem
      · exact .inl (min_eq_right ha).symm
      · exact .inr mem

/-- What a port that sends a frame counts is its own. -/
theorem moves_countSent (d : Dev) (p : Nat) (l : List Byte) : Moves ps (OfPort p) d (countSent d p l) := by
  have own {o : Nat} (h : o < 0x1000) : OfPort p (Reg.port p + o) := ⟨Nat.le_add_right .., by omega⟩
  have small : ∀ o ∈ [Reg.txFramesOk, Reg.txBytesOk, Reg.txBytesOk + 4, Reg.txUcast, Reg.txUcast + 4, Reg.txUcast + 8, Reg.pHalfEvc],
      o < 0x1000 := by decide
  unfold countSent
  refine Moves.trans ?_ (moves_pcnt48 _ _ (own (by decide)) (own (o := Reg.txBytesAll + 4) (by decide)) (own (by decide)))
  split
  · exact moves_pcnt d (own (by decide)) (own (by decide))
  · exact moves_pcnt d (own (by decide)) (own (by decide))
  · exact moves_countGood d _ _ (fun o ho => own (small o ho)) fun i hi => own (by simp only [Reg.txSize]; omega)

theorem stage_not_ofPort (p o q : Nat) (ho : o < 0x1000) (hp : tileOf q < 16) : ¬OfPort p (Reg.outStage (tileOf q) + o) := by
  simp only [OfPort, Reg.outStage, Reg.port]; omega

/-- The telegram of lowest index is put on the wire. -/
theorem sendTele_sends {j : Nat} {tl : Tele} (mem : j ∈ (egrOf d p).tele) (least : ∀ k ∈ (egrOf d p).tele, j ≤ k)
    (sent : teleSent d j = some tl) : sendTele d p =
      putExpress (countSent (osCnt ((setEgr d p fun e => { e with tele := e.tele.filter (· ≠ j) }).onSafe
        fun x => { x with teleAt := tins x.teleAt j d.now }) p Reg.osTelegrams) p (tl.bytes.take tl.len ++ fcsOf (tl.bytes.take tl.len))) p
        (tl.bytes.take tl.len ++ fcsOf (tl.bytes.take tl.len)) := by
  unfold sendTele
  split
  · rename_i none
    rw [none] at mem
    exact absurd mem (by simp)
  · rename_i j0 r cons
    rw [cons] at mem least
    have lowest : r.foldl min j0 = j := foldl_min_least (List.mem_cons.1 mem) (least j0 (by simp)) fun k hk => least k (by simp [hk])
    dsimp only
    rw [lowest]
    have same : teleSent (setEgr d p fun e => { e with tele := e.tele.filter (· ≠ j) }) j = some tl := sent
    rw [same]
    rfl

theorem teleSent_retagged (h : Retagged p d t) (j : Nat) : teleSent t j = teleSent d j := by
  rw [h.eq]
  rfl

section
variable (hp : p < 512) (dead : portDead s.dev p = false) (express : (egrOf s.dev p).express = none) (gates : NoGateDue s.dev p)
include hp dead express gates

theorem telegram_first (idle : (egrOf s.dev p).preempt = none) (errs : List CellErr) {j : Nat} {tl : Tele} (mem : j ∈ (egrOf s.dev p).tele)
    (least : ∀ k ∈ (egrOf s.dev p).tele, j ≤ k) (sent : teleSent s.dev j = some tl) : Ends (.frameBoundary p false errs) s fun t =>
      (egrOf t p).out = tl.bytes.take tl.len ++ fcsOf (tl.bytes.take tl.len) ∧ (egrOf t p).lead = wireLead false 0 0 ∧
        (egrOf t p).tele = (egrOf s.dev p).tele.filter (· ≠ j) ∧ tfind t.safe.teleAt j = some s.dev.now ∧
        rd t (Reg.outStage (tileOf p) + Reg.osTelegrams) = (rd s.dev (Reg.outStage (tileOf p) + Reg.osTelegrams) + 1) % two32 := by
  have tagged := retagged_syncHeads (begun s) p
  have run := frameBoundary_express (d := begun s) dead express gates errs
  generalize syncHeads (begun s) p = e at tagged run
  have tele : (egrOf e p).tele = (egrOf s.dev p).tele := tagged.tele
  have now : e.now = s.dev.now := by rw [tagged.eq]; rfl
  have boundary : expressBoundary e p = sendTele e p := by
    rw [expressBoundary_alone (tagged.preempt.trans idle)]
    exact expressSelect_tele (preSends_none (tagged.preempt.trans idle)) (by rw [tele]; exact List.ne_nil_of_mem mem)
  rw [boundary, sendTele_sends (by rw [tele]; exact mem) (by rw [tele]; exact least) ((teleSent_retagged tagged j).trans sent), now] at run
  generalize he : (setEgr e p fun e => { e with tele := e.tele.filter (· ≠ j) }).onSafe
    (fun x => { x with teleAt := tins x.teleAt j s.dev.now }) = f at run
  have counted : Moves [] (OfPort p) (osCnt f p Reg.osTelegrams) (countSent (osCnt f p Reg.osTelegrams) p
    (tl.bytes.take tl.len ++ fcsOf (tl.bytes.take tl.len))) := moves_countSent _ p _
  have stage : Moves [] (fun _ => True) f (osCnt f p Reg.osTelegrams) := moves_osCnt f p _ trivial
  have egr : egrOf f p = { egrOf e p with tele := (egrOf e p).tele.filter (· ≠ j) } := by
    rw [← he]; exact egrOf_setEgr_self e p fun e => { e with tele := e.tele.filter (· ≠ j) }
  have put : egrOf (frameBoundary p false errs (begun s)) p = { egrOf f p with
      lead := wireLead false 0 0, out := tl.bytes.take tl.len ++ fcsOf (tl.bytes.take tl.len) } := by
    rw [run, putExpress, putOut, egrOf_setEgr_self, counted.egr (by simp), stage.egr (by simp)]
  refine ends_of_runIf (f := frameBoundary p false errs) rfl (decide_eq_true hp) ⟨?_, ?_, ?_, ?_, ?_⟩
  · rw [egrOf_settle, put]
  · rw [egrOf_settle, put]
  · rw [egrOf_settle, put, egr, tele]
  · have safe : (frameBoundary p false errs (begun s)).safe = f.safe := by
      rw [run]
      exact (counted.parts .safe (by simp)).trans (stage.parts .safe (by simp))
    rw [settle_safe, safe, ← he]
    exact tfind_tins_self ..
  · have tile : tileOf p < 16 := by unfold tileOf; omega
    rw [rd_settle _ (by simp only [Reg.outStage, Reg.irqMsgCnt]; omega), run]
    refine (counted.regs _ (stage_not_ofPort p _ p (by decide) tile)).trans ((rd_cnt_self ..).trans ?_)
    rw [← he]
    exact congrArg (fun n => (n + 1) % two32) (tagged.rd _)

end

/-! ## TC7 (R345) -/

/-- What decides whether a head is discarded: the port's link; for TC7 the deadline of its words and what its stream sent last, and for
another class its age and the safety VID map. -/
theorem headDiscard_none {cp : Copy} {x : Frame} : headDiscard d p id cp x = none ↔ portDead d p = false ∧
    if cp.cls = 7 then
      tooLate cp (stampExt d p true) = false ∧ sentLast d p ((cp.accepted.map (·.1.stream)).getD 0) x = false
    else overAge d (tileOf p) cp = false ∧ leaks d x cp = false := by
  have pick (a b : Bool) (u v : Dev) :
      (if a then some u else if b then some v else none) = (none : Option Dev) ↔ a = false ∧ b = false := by cases a <;> cases b <;> simp
  unfold headDiscard
  dsimp only
  cases portDead d p with
  | true => simp
  | false =>
    simp only [Bool.false_eq_true, if_false, true_and]
    split
    · exact pick ..
    · exact pick ..

theorem headDiscard_retagged {cp : Copy} {x : Frame} (h : Retagged p d t) (keeps : headDiscard d p id cp x = none) :
    headDiscard t p id cp x = none := by
  have dead : portDead t p = portDead d p := portDead_congr fun _ => h.rd _
  have late : stampExt t p true = stampExt d p true := by rw [h.eq]; rfl
  have last (n : Nat) : sentLast t p n x = sentLast d p n x := by rw [h.eq]; rfl
  have age : overAge t (tileOf p) cp = overAge d (tileOf p) cp := by rw [h.eq]; rfl
  have leak : leaks t x cp = leaks d x cp := by rw [h.eq]; rfl
  rw [headDiscard_none] at keeps ⊢
  rwa [dead, late, last, age, leak]

theorem headDiscard_begun {cp : Copy} {x : Frame} (keeps : headDiscard s.dev p id cp x = none) : headDiscard (begun s) p id cp x = none :=
  (headDiscard_none (d := begun s) (id := id)).2 ((headDiscard_none (d := s.dev) (id := id)).1 keeps)

end Sys2Proof.Machine
end

section
/-! Heads that start at a boundary, and control frames (R69, R345 to R348, R357, R834). -/

namespace Sys2Proof.Machine

open Sys2Proof

variable {d t u e : Dev} {s : State} {p c id : Nat} {ps : List Piece} {rs : Nat → Prop}

/-! ## What a port that sends counts (R69, R85) -/

/-- The count of all bytes leaves the port's other counters. -/
theorem rd_bytesAll (d : Dev) (p n : Nat) {o : Nat} (h : o ∉ [Reg.txBytesAll, Reg.txBytesAll + 4, Reg.pHalfEvc]) :
    rd (pcnt48 d p Reg.txBytesAll n) (Reg.port p + o) = rd d (Reg.port p + o) := by
  have moved : Moves [] (· ∈ [Reg.txBytesAll, Reg.txBytesAll + 4, Reg.pHalfEvc].map (Reg.port p + ·)) d (pcnt48 d p Reg.txBytesAll n) :=
    moves_pcnt48 d n (by simp) (by simp [Nat.add_assoc]) (by simp)
  exact moved.regs _ (by simpa using h)

theorem rd_countSent_pfc {l : List Byte} (h : macControl l = 2) (hc : portCounts d p = true) :
    rd (countSent d p l) (Reg.port p + Reg.txPfc) = (rd d (Reg.port p + Reg.txPfc) + 1) % two32 := by
  rw [countSent_pfc d p h, rd_bytesAll _ _ _ (by decide)]
  exact rd_pcnt hc (by decide)

theorem rd_countSent_pause {l : List Byte} (h : macControl l = 1) (hc : portCounts d p = true) :
    rd (countSent d p l) (Reg.port p + Reg.txPause) = (rd d (Reg.port p + Reg.txPause) + 1) % two32 ∧
      rd (countSent d p l) (Reg.port p + Reg.txFramesOk) = rd d (Reg.port p + Reg.txFramesOk) := by
  have moved : Moves [] (· ∈ [Reg.port p + Reg.txPause, Reg.port p + Reg.pHalfEvc]) d (pcnt d p Reg.txPause) :=
    moves_pcnt d (by simp) (by simp)
  rw [countSent_pause d p h, rd_bytesAll _ _ _ (by decide), rd_bytesAll _ _ _ (by decide)]
  exact ⟨rd_pcnt hc (by decide), moved.regs _ (by simp [Reg.txFramesOk, Reg.txPause, Reg.pHalfEvc])⟩

theorem rd_countSent_good {l : List Byte} (h : macControl l = 0) (hc : portCounts d p = true) :
    rd (countSent d p l) (Reg.port p + Reg.txFramesOk) = (rd d (Reg.port p + Reg.txFramesOk) + 1) % two32 := by
  have other {o : Nat} (ne : o ≠ Reg.txFramesOk) : Reg.port p + o ≠ Reg.port p + Reg.txFramesOk := by simpa using ne
  have size (i : Nat) : Reg.txSize i ≠ Reg.txFramesOk := by simp only [Reg.txSize, Reg.txFramesOk]; omega
  have cast (a b : Bool) : (if a then Reg.txUcast + 8 else if b then Reg.txUcast + 4 else Reg.txUcast) ≠ Reg.txFramesOk := by
    revert a b; decide
  have half : Reg.port p + Reg.pHalfEvc ≠ Reg.port p + Reg.txFramesOk := other (by decide)
  have bytes (e : Dev) (n : Nat) : Moves [] (· ≠ Reg.port p + Reg.txFramesOk) e (pcnt48 e p Reg.txBytesOk n) :=
    moves_pcnt48 e n (other (by decide)) (other (o := Reg.txBytesOk + 4) (by decide)) half
  have one (e : Dev) {o : Nat} (ne : o ≠ Reg.txFramesOk) : Moves [] (· ≠ Reg.port p + Reg.txFramesOk) e (pcnt e p o) :=
    moves_pcnt e (other ne) half
  rw [countSent_other d p h, rd_bytesAll _ _ _ (by decide), ← rd_pcnt (o := Reg.txFramesOk) hc (by decide)]
  exact (((bytes _ _).trans (one _ (by simpa using cast (decide (be l 0 6 = broadcast)) (isGroup (be l 0 6))))).trans
    (one _ (size _))).regs _ (by simp)

/-! ## The PFC frame (IEEE 802.1Qbb, R69) -/

theorem length_toLe (n v : Nat) : (toLe n v).length = n := by
  induction n generalizing v with
  | zero => rfl
  | succ n ih => exact congrArg (· + 1) (ih _)

theorem length_toBe (n v : Nat) : (toBe n v).length = n := by rw [toBe, List.length_reverse, length_toLe]

/-- The number that stands between two parts. -/
theorem be_at {a b l : List Byte} {m n : Nat} (ha : a.length = m) (hb : b.length = n) : be (a ++ (b ++ l)) m n = beVal b := by
  subst ha hb
  simp [be]

/-- A PFC frame is one to whoever receives it. -/
theorem macControl_pfcFrame (sa k q : Nat) : macControl (pfcFrame sa k q) = 2 := by
  have shape : ∃ r, pfcFrame sa k q = toBe 6 0x0180C2000001 ++ (toBe 6 (sa % 2 ^ 48) ++ (toBe 2 0x8808 ++ (toBe 2 0x0101 ++ r))) :=
    ⟨_, by simp only [pfcFrame, List.append_assoc]; rfl⟩
  obtain ⟨r, shape⟩ := shape
  have at12 (l : List Byte) : be (toBe 6 0x0180C2000001 ++ (toBe 6 (sa % 2 ^ 48) ++ (toBe 2 0x8808 ++ l))) 12 2 = 0x8808 := by
    rw [← List.append_assoc]
    refine (be_at ?_ (length_toBe ..)).trans (by decide)
    rw [List.length_append, length_toBe, length_toBe]
  have at14 : be (pfcFrame sa k q) 14 2 = 0x0101 := by
    rw [shape, ← List.append_assoc, ← List.append_assoc]
    refine (be_at ?_ (length_toBe ..)).trans (by decide)
    rw [List.length_append, List.length_append, length_toBe, length_toBe, length_toBe]
  have at0 (l : List Byte) : be (toBe 6 0x0180C2000001 ++ l) 0 6 = 0x0180C2000001 :=
    (be_at (a := []) rfl (length_toBe ..)).trans (by decide)
  have dest : be (pfcFrame sa k q) 0 6 = 0x0180C2000001 := by rw [shape, at0]
  have type : be (pfcFrame sa k q) 12 2 = 0x8808 := by rw [shape, at12]
  unfold macControl
  rw [dest, type, at14]
  rfl

theorem rd_putOut (d : Dev) (p : Nat) (lead l : List Byte) (a : Nat) : rd (putOut d p lead l) a = rd d a := rfl

theorem egrOf_putVerify (d : Dev) (p : Nat) (smd : Byte) : egrOf (putVerify d p smd) p =
    { egrOf d p with lead := List.replicate 7 0x55 ++ [smd], out := zeros 60 ++ mcrcOf (zeros 60) } := egrOf_setEgr_self ..

/-! ## Heads -/

theorem pickExpress_tc7 {r : List Nat} (queue : queueOf d p 7 = id :: r) : pickExpress d p = some 7 := if_pos (eligible_tc7 queue)

/-- A frame that starts, as the statement reads it after the command. -/
theorem HeadStarted.ends {pre : Bool} {cp : Copy} {l : List Byte} {r : List Nat} {a b : Dev} (h : HeadStarted pre p c id cp l a b)
    (queue : queueOf a p c = id :: r) :
    (if pre then (egrOf (settle b) p).preempt else (egrOf (settle b) p).express) = some id ∧ queueOf (settle b) p c = r ∧
      (∀ k, k ≠ c → queueOf (settle b) p k = queueOf a p k) ∧
      ∃ k, copyOf (settle b) id = some k ∧ k.loc = .sending ∧ k.bytes = some l ∧ k.frame = cp.frame := by
  have queues (k : Nat) : queueOf (settle b) p k = queueOf b p k := by simp only [queueOf, egrOf_settle]
  obtain ⟨n, copy⟩ := h.copy
  refine ⟨by rw [egrOf_settle]; exact h.mac, ?_, fun k hk => (queues k).trans (h.queues k hk), onWire l n cp, ?_, rfl, rfl, rfl⟩
  · rw [queues, h.queue, queue]
    rfl
  · rw [copyOf, settle_buf, ← copyOf, copy]

section
variable (hp : p < 512) (dead : portDead s.dev p = false) (express : (egrOf s.dev p).express = none)
  (idle : (egrOf s.dev p).preempt = none) (gates : NoGateDue s.dev p) (tele : (egrOf s.dev p).tele = [])
include hp dead express idle gates tele

/-! ## TC7 (R345) -/

theorem tc7_next {cp : Copy} {x : Frame} {r : List Nat} (queue : queueOf s.dev p 7 = id :: r) (copy : copyOf s.dev id = some cp)
    (h7 : cp.cls = 7) (plain : cp.mirror = none) (frame : frameOf s.dev cp.frame = some x) (keeps : headDiscard s.dev p id cp x = none)
    (ptp : x.parse.ptpOff = none) (inject : x.inject = none) : Ends (.frameBoundary p false []) s fun t =>
      (egrOf t p).express = some id ∧ (egrOf t p).ctl = (egrOf s.dev p).ctl ∧ queueOf t p 7 = r ∧
        (∀ k < 7, queueOf t p k = queueOf s.dev p k) ∧
        (∃ k, copyOf t id = some k ∧ k.loc = .sending ∧ k.bytes = some (txBytes s.dev x cp) ∧ k.frame = cp.frame) ∧
        rd t (Reg.outStage (tileOf p) + Reg.osFwd) = (rd s.dev (Reg.outStage (tileOf p) + Reg.osFwd) + 1) % two32 := by
  have tagged := retagged_syncHeads (begun s) p
  have run := frameBoundary_express (d := begun s) dead express gates []
  generalize syncHeads (begun s) p = e at tagged run
  have queue' : queueOf e p 7 = id :: r := (tagged.queue 7).trans queue
  have copy' : copyOf e id = some cp := (tagged.copyOf id).trans copy
  have frame' : frameOf e cp.frame = some x := (tagged.frameOf _).trans frame
  have none := tagged.preempt.trans idle
  rw [expressBoundary_alone none, expressSelect_starts (preSends_none none) (tagged.tele.trans tele) (pickExpress_tc7 queue') queue' copy' frame'
    (headDiscard_retagged tagged (headDiscard_begun keeps)) ptp plain (.inl h7) inject] at run
  obtain ⟨started, -, count, -⟩ := startHead_starts (p := p) (c := 7) (pre := false) copy' ptp plain (.inl h7) frame' inject
  obtain ⟨mac, left, others, wire⟩ := started.ends queue'
  refine ends_of_runIf (f := frameBoundary p false []) rfl (decide_eq_true hp) ?_
  rw [run]
  refine ⟨mac, ?_, left, fun k hk => ?_, ?_, ?_⟩
  · rw [egrOf_settle, started.ctl]
    exact tagged.ctl
  · exact (others k (by omega)).trans (tagged.queue k)
  · rwa [← show txBytes e x cp = txBytes s.dev x cp from tagged.txBytes x cp]
  · have tile : tileOf p < 16 := by unfold tileOf; omega
    rw [rd_settle _ (by simp only [Reg.outStage, Reg.irqMsgCnt]; omega), count rfl]
    exact congrArg (fun n => (n + 1) % two32) (tagged.rd _)

/-! ## Control frames (R69, R834) -/

omit hp dead gates in
/-- With no TC7 frame a control frame that waits is next, whatever class may send. -/
theorem control_next (tagged : Retagged p (begun s) e) (none7 : queueOf s.dev p 7 = []) (ctl : (egrOf s.dev p).ctl ≠ []) :
    expressBoundary e p = sendCtl e p := by
  have none := tagged.preempt.trans idle
  have waits : (egrOf e p).ctl ≠ [] := by rw [tagged.ctl]; exact ctl
  have pick : pickExpress e p = Option.none := by
    rw [pickExpress, eligible_empty ((tagged.queue 7).trans none7), if_neg Bool.false_ne_true, if_pos waits]
  rw [expressBoundary_alone none, expressSelect_ctl (preSends_none none) (tagged.tele.trans tele) pick (tagged.express.trans express),
    if_pos waits]

omit hp dead express idle gates tele in
theorem sendCtl_respond (ctl : (egrOf e p).ctl = [.respond]) :
    sendCtl e p = putVerify (setEgr e p fun e => { e with ctl := e.ctl.erase .respond }) p 0x19 := by
  unfold sendCtl
  rw [ctl]
  rfl

omit hp dead express idle gates tele in
theorem sendCtl_pfc {k q : Nat} (ctl : (egrOf e p).ctl = [.pfc k q]) : ∃ sa f, Moves ([] : List Piece) (fun _ => False)
      (setEgr e p fun e => { e with ctl := e.ctl.erase (.pfc k q) }) f ∧
    sendCtl e p = putExpress (countSent f p (pfcFrame sa k q)) p (pfcFrame sa k q) := by
  refine ⟨(fresh (setEgr e p fun e => { e with ctl := e.ctl.erase (.pfc k q) })).1, _,
    moves_fresh (setEgr e p fun e => { e with ctl := e.ctl.erase (.pfc k q) }), ?_⟩
  unfold sendCtl
  rw [ctl]
  rfl

theorem respond_next (none7 : queueOf s.dev p 7 = []) (errs : List CellErr) (ctl : (egrOf s.dev p).ctl = [.respond]) :
    Ends (.frameBoundary p false errs) s fun t =>
      (egrOf t p).ctl = [] ∧ (egrOf t p).express = none ∧ (∀ k, queueOf t p k = queueOf s.dev p k) ∧ OnlyParts [.egr] s.dev t ∧
        OnlyRegs [] s.dev t := by
  have tagged := retagged_syncHeads (begun s) p
  have run := frameBoundary_express (d := begun s) dead express gates errs
  generalize syncHeads (begun s) p = e at tagged run
  rw [control_next express idle tele tagged none7 (by simp [ctl]), sendCtl_respond (tagged.ctl.trans ctl)] at run
  have egr := egrOf_putVerify (setEgr e p fun e => { e with ctl := e.ctl.erase .respond }) p 0x19
  rw [egrOf_setEgr_self, tagged.ctl, show (egrOf (begun s) p).ctl = [.respond] from ctl, ← run] at egr
  have moved : Moves [.egr] (· ∈ []) (begun s) (frameBoundary p false errs (begun s)) := by
    rw [run]
    exact tagged.moves.trans ((moves_setEgr e p _ (by simp)).trans (moves_putOut _ p _ _ (by simp)))
  refine ends_of_runIf (f := frameBoundary p false errs) rfl (decide_eq_true hp) ⟨?_, ?_, fun k => ?_, moved.onlyParts, moved.onlyRegs⟩
  · rw [egrOf_settle, egr]
    rfl
  · rw [egrOf_settle, egr]
    exact tagged.express.trans express
  · rw [← show queueOf (begun s) p k = queueOf s.dev p k from rfl, ← tagged.queue k]
    simp only [queueOf, egrOf_settle, egr]

theorem pfc_next (none7 : queueOf s.dev p 7 = []) (errs : List CellErr) {k q : Nat} (ctl : (egrOf s.dev p).ctl = [.pfc k q])
    (counts : portCounts s.dev p = true) : Ends (.frameBoundary p false errs) s fun t =>
      (egrOf t p).ctl = [] ∧ (egrOf t p).express = none ∧ (∀ k, queueOf t p k = queueOf s.dev p k) ∧
        (∃ sa, (egrOf t p).out = pfcFrame sa k q) ∧
        rd t (Reg.port p + Reg.txPfc) = (rd s.dev (Reg.port p + Reg.txPfc) + 1) % two32 := by
  have tagged := retagged_syncHeads (begun s) p
  have run := frameBoundary_express (d := begun s) dead express gates errs
  generalize syncHeads (begun s) p = e at tagged run
  obtain ⟨sa, f, drawn, sends⟩ := sendCtl_pfc (tagged.ctl.trans ctl)
  rw [control_next express idle tele tagged none7 (by simp [ctl]), sends] at run
  have sent : Moves [] (OfPort p) f (countSent f p (pfcFrame sa k q)) := moves_countSent f p _
  have egr : egrOf (frameBoundary p false errs (begun s)) p = { egrOf e p with
      ctl := [], lead := wireLead false 0 0, out := pfcFrame sa k q } := by
    rw [run, putExpress, putOut, egrOf_setEgr_self, sent.egr (by simp), drawn.egr (by simp), egrOf_setEgr_self, tagged.ctl,
      show (egrOf (begun s) p).ctl = [.pfc k q] from ctl, List.erase_cons_head]
  have regs (a : Nat) : rd f a = rd s.dev a := (drawn.regs a not_false).trans (tagged.rd a)
  refine ends_of_runIf (f := frameBoundary p false errs) rfl (decide_eq_true hp) ⟨?_, ?_, fun j => ?_, ⟨sa, ?_⟩, ?_⟩
  · rw [egrOf_settle, egr]
  · rw [egrOf_settle, egr]
    exact tagged.express.trans express
  · rw [← show queueOf (begun s) p j = queueOf s.dev p j from rfl, ← tagged.queue j]
    simp only [queueOf, egrOf_settle, egr]
  · rw [egrOf_settle, egr]
  · have own : portCounts f p = true := (ownPath_congr (regs _)).trans counts
    rw [rd_settle _ (by simp only [Reg.port, Reg.irqMsgCnt]; omega), run, putExpress, rd_putOut,
      rd_countSent_pfc (macControl_pfcFrame sa k q) own, regs]

end

end Sys2Proof.Machine
end

section
/-! The classes of TC0 to TC6 at a boundary, preemption, and the end and the rest of a frame (R346 to R350, R357, R834). -/

namespace Sys2Proof.Machine

open Sys2Proof

variable {d t u e : Dev} {s : State} {p c id : Nat} {ps : List Piece} {rs : Nat → Prop}

theorem vtime_settle (d : Dev) (p : Nat) (hp : p < 512) : vtime (settle d) p = vtime d p := by
  have far (o : Nat) : Reg.egr p + o ≠ Reg.irqMsgCnt := by simp only [Reg.egr, Reg.tile, Reg.irqMsgCnt]; omega
  rw [vtime, vtime, Nat.add_assoc, rd_settle _ (far _), rd_settle _ (far _)]

/-! ## TC6, and the class of the smallest finish tag (R346, R347, R357) -/

theorem preemptable_active (h : preemptable d p c = true) : mmActive d p = true := (Bool.and_eq_true_iff.1 h).1

/-- With no TC7 frame and no control frame, TC6 is the pick of the MAC that it is for, and else the class that fair queuing picks. -/
theorem class_picked {b : Bool} (ctl : (egrOf d p).ctl = []) (none7 : queueOf d p 7 = []) (on : eligible d p c = true)
    (rule : c = 6 ∧ preemptable d p 6 = b ∨ c < 6 ∧ b = mmActive d p ∧ eligible d p 6 = false ∧ wfqPick d p = some c) :
    (if b then pickPre d p else pickExpress d p) = some c := by
  have off7 : eligible d p 7 = false := eligible_empty none7
  rcases rule with ⟨rfl, pre⟩ | ⟨-, active, off6, pick⟩
  · cases b with
    | true => simp [pickPre, pre, on]
    | false => simp [pickExpress, off7, ctl, pre, on]
  · cases b with
    | true => simp [pickPre, off6, pick]
    | false => simp [pickExpress, off7, off6, ctl, ← active, pick]

theorem expressWaits_none (tele : (egrOf d p).tele = []) (ctl : (egrOf d p).ctl = []) (none7 : queueOf d p 7 = [])
    (six : preemptable d p 6 = true ∨ eligible d p 6 = false) : expressWaits d p = false := by
  rcases six with pre | off6
  · simp [expressWaits, expressReady, tele, ctl, eligible_empty none7, pre]
  · simp [expressWaits, expressReady, tele, ctl, eligible_empty none7, off6]

theorem preBoundary_starts {cp : Copy} {x : Frame} {r : List Nat} (waits : expressWaits d p = false) (express : (egrOf d p).express = none)
    (idle : (egrOf d p).preempt = none) (pick : pickPre d p = some c) (queue : queueOf d p c = id :: r) (copy : copyOf d id = some cp)
    (frame : frameOf d cp.frame = some x) (keeps : headDiscard d p id cp x = none) :
    preBoundary d p = startHead d p c id cp x true := by
  simp only [preBoundary, waits, express, idle]
  exact startNext_starts _ pick queue copy frame keeps

section
variable (hp : p < 512) (dead : portDead s.dev p = false) (express : (egrOf s.dev p).express = none)
  (idle : (egrOf s.dev p).preempt = none) (gates : NoGateDue s.dev p) (tele : (egrOf s.dev p).tele = [])
include hp dead express idle gates tele

theorem class_next {b : Bool} {cp : Copy} {x : Frame} {r : List Nat} (ctl : (egrOf s.dev p).ctl = []) (none7 : queueOf s.dev p 7 = [])
    (rule : c = 6 ∧ preemptable s.dev p 6 = b ∨ c < 6 ∧ b = mmActive s.dev p ∧ eligible s.dev p 6 = false ∧
      (∀ k < 6, ∀ h, tfind (egrOf s.dev p).head k = some h → (queueOf s.dev p k).head? = some h) ∧
      ∀ k < 6, k ≠ c → eligible s.dev p k = true →
        if c < k then signed 48 (tget 0 (egrOf s.dev p).fin c + 2 ^ 48 - tget 0 (egrOf s.dev p).fin k) < 0
        else ¬signed 48 (tget 0 (egrOf s.dev p).fin k + 2 ^ 48 - tget 0 (egrOf s.dev p).fin c) < 0)
    (queue : queueOf s.dev p c = id :: r) (on : eligible s.dev p c = true) (copy : copyOf s.dev id = some cp)
    (plain : cp.mirror = none) (frame : frameOf s.dev cp.frame = some x) (keeps : headDiscard s.dev p id cp x = none)
    (ptp : x.parse.ptpOff = none) (inject : x.inject = none) (mirrors : s.dev.tel.mirrors = []) : Ends (.frameBoundary p b []) s fun t =>
      (if b then (egrOf t p).preempt else (egrOf t p).express) = some id ∧ queueOf t p c = r ∧
        (∀ k, k ≠ c → queueOf t p k = queueOf s.dev p k) ∧
        (∃ k, copyOf t id = some k ∧ k.loc = .sending ∧ k.bytes = some (txBytes s.dev x cp) ∧ k.frame = cp.frame) ∧
        (c < 6 → tfind (egrOf s.dev p).head c = some id → vtime t p = tget 0 (egrOf s.dev p).fin c % 2 ^ 48) := by
  have tagged := retagged_syncHeads (begun s) p
  have runE := frameBoundary_express (d := begun s) dead express gates []
  have runP := (frameBoundary_preempt (d := begun s) dead · idle gates)
  have inStep : c < 6 → syncHeads (begun s) p = begun s := by
    intro hc
    rcases rule with ⟨rfl, -⟩ | ⟨-, -, -, heads, -⟩
    · exact absurd hc (by decide)
    · exact syncHeads_inStep (d := begun s) heads
  generalize syncHeads (begun s) p = e at tagged runE runP inStep
  have ruleE : c = 6 ∧ preemptable e p 6 = b ∨ c < 6 ∧ b = mmActive e p ∧ eligible e p 6 = false ∧ wfqPick e p = some c := by
    rcases rule with ⟨six, pre⟩ | ⟨below, active, off6, -, least⟩
    · exact .inl ⟨six, (tagged.preemptable 6).trans pre⟩
    · refine .inr ⟨below, active.trans tagged.mmActive.symm, (tagged.eligible 6).trans off6, ?_⟩
      rw [inStep below]
      exact wfqPick_smallest (d := begun s) below on least
  have queue' : queueOf e p c = id :: r := (tagged.queue c).trans queue
  have copy' : copyOf e id = some cp := (tagged.copyOf id).trans copy
  have frame' : frameOf e cp.frame = some x := (tagged.frameOf _).trans frame
  have keeps' := headDiscard_retagged tagged (headDiscard_begun keeps)
  have mirrors' : e.tel.mirrors = [] := by rw [tagged.eq]; exact mirrors
  have none7' := (tagged.queue 7).trans none7
  have ctl' := tagged.ctl.trans ctl
  have tele' := tagged.tele.trans tele
  have idle' := tagged.preempt.trans idle
  have pick := class_picked ctl' none7' ((tagged.eligible c).trans on) ruleE
  have start : frameBoundary p b [] (begun s) = startHead e p c id cp x b := by
    cases b with
    | false =>
      rw [runE, expressBoundary_alone idle']
      exact expressSelect_starts (preSends_none idle') tele' pick queue' copy' frame' keeps' ptp plain (.inr mirrors') inject
    | true =>
      have active : mmActive s.dev p = true := by
        rcases rule with ⟨-, pre⟩ | ⟨-, active, -⟩
        · exact preemptable_active pre
        · exact active.symm
      have six : preemptable e p 6 = true ∨ eligible e p 6 = false := ruleE.imp (·.2) (·.2.2.1)
      rw [runP active]
      exact preBoundary_starts (expressWaits_none tele' ctl' none7' six) (tagged.express.trans express) idle' pick queue' copy' frame' keeps'
  obtain ⟨started, vt, -⟩ := startHead_starts (p := p) (c := c) (pre := b) copy' ptp plain (.inr mirrors') frame' inject
  obtain ⟨mac, left, others, wire⟩ := started.ends queue'
  refine ends_of_runIf (f := frameBoundary p b []) rfl (decide_eq_true hp) ?_
  rw [start]
  refine ⟨mac, left, fun k hk => (others k hk).trans (tagged.queue k), ?_, fun below _ => ?_⟩
  · rwa [← show txBytes e x cp = txBytes s.dev x cp from tagged.txBytes x cp]
  · rw [vtime_settle _ p hp, vt below, inStep below]
    rfl

end

/-! ## Preemption (R348) -/

theorem stampExt_moved (m : Moves ps rs d t) (now : .now ∉ ps) (time : .time ∉ ps) (tx : Bool)
    (off : ∀ a ∈ [Reg.tsuWrap, Reg.tsuNs, Reg.tsuSts, Reg.tsTrim p, Reg.port p + Reg.pMode], ¬rs a) : stampExt t p tx = stampExt d p tx := by
  have clock : t.time = d.time := m.parts .time time
  have ext : extTime t = extTime d := by rw [extTime, extTime, m.regs _ (off _ (by simp)), m.regs _ (off _ (by simp))]
  have slave (k : Nat) : slavePs t k = slavePs d k := by
    simp only [slavePs, unaligned, m.flag (off Reg.tsuSts (by simp)), m.now now, ext, clock]
    rfl
  simp only [stampExt, slave, ext, m.fld (off (Reg.port p + Reg.pMode) (by simp)), m.regs _ (off (Reg.tsTrim p) (by simp))]

/-- A copy that a cut at byte n leaves for later. -/
def cutAt (n : Nat) (c : Copy) : Copy := { c with loc := .preempted, fragBytes := n, frags := c.frags + 1 }

/-- The registers that a preemption counts in. -/
def CutRegs (p : Nat) (a : Nat) : Prop := a ∈ [Reg.port p + Reg.txMmPreempt, Reg.port p + Reg.pHalfEvc]

/-- The frame that copy i carries has been cut at byte n. -/
structure Cut (p i n : Nat) (c : Copy) (d t : Dev) : Prop where
  moves : Moves [.buf, .egr] (CutRegs p) d t
  atLeast : c.fragBytes + minFrag d p ≤ n + 4
  leaves : n + 64 ≤ (copyBytes d c).length
  egr : ∃ a b, egrOf t p = { egrOf d p with lead := a, out := b }
  copies : ∀ j, copyOf t j = if j = i then some (cutAt n c) else copyOf d j
  frames : ∀ f, frameOf t f = frameOf d f
  counts : portCounts d p = true → rd t (Reg.port p + Reg.txMmPreempt) = (rd d (Reg.port p + Reg.txMmPreempt) + 1) % two32

/-- A frame with enough bytes left is cut: at least the least fragment goes out with its check sum, and at least 64 bytes stay. -/
theorem preemptNow_cuts {i : Nat} {c : Copy} (sends : (egrOf d p).preempt = some i) (copy : copyOf d i = some c) (loc : c.loc = .sending)
    (active : mmActive d p = true) (room : 64 + minFrag d p + c.fragBytes ≤ (copyBytes d c).length) : ∃ n, Cut p i n c d (preemptNow d p) := by
  have least : 64 ≤ minFrag d p := by unfold minFrag; omega
  generalize hn : c.fragBytes + (minFrag d p - 4) +
    (fresh d).1 % ((copyBytes d c).length - c.fragBytes - 59 - minFrag d p) = n
  have bound : (fresh d).1 % ((copyBytes d c).length - c.fragBytes - 59 - minFrag d p) <
    (copyBytes d c).length - c.fragBytes - 59 - minFrag d p := Nat.mod_lt _ (by omega)
  have run : preemptNow d p = pcnt (setCopy (putOut (fresh d).2 p (wireLead true (egrOf d p).smd c.frags)
      (((copyBytes d c).take n).drop c.fragBytes ++ mcrcOf ((copyBytes d c).take n))) i (cutAt n)) p Reg.txMmPreempt := by
    have free : ¬(c.loc ≠ .sending ∨ !mmActive d p ∨ (copyBytes d c).length - c.fragBytes < 64 + minFrag d p) := by
      simp only [loc, active, not_or]
      exact ⟨by simp, by simp, by omega⟩
    subst hn
    simp only [preemptNow, sends, copy, if_neg free]
    rfl
  generalize hf : putOut (fresh d).2 p (wireLead true (egrOf d p).smd c.frags)
      (((copyBytes d c).take n).drop c.fragBytes ++ mcrcOf ((copyBytes d c).take n)) = f at run
  have egr : ∃ a b, egrOf f p = { egrOf d p with lead := a, out := b } := by
    rw [← hf, putOut, egrOf_setEgr_self]
    exact ⟨_, _, rfl⟩
  have put : Moves [.egr] (fun _ => False) d f := by
    rw [← hf]; exact (moves_fresh d).trans (moves_putOut _ p _ _ (by simp))
  have set : Moves [.buf, .egr] (fun _ => False) d (setCopy f i (cutAt n)) :=
    (put.mono (by simp) fun _ h => h).trans (moves_setCopy f (by simp) i _)
  have count : Moves [] (CutRegs p) (setCopy f i (cutAt n)) (preemptNow d p) := by
    rw [run]; exact moves_pcnt _ (by simp [CutRegs]) (by simp [CutRegs])
  refine ⟨n, (set.mono (fun _ h => h) fun _ h => h.elim).trans (count.mono (by simp) fun _ h => h), by omega, by omega, ?_, fun j => ?_,
    fun k => ?_, fun counts => ?_⟩
  · rwa [count.egr (by simp) p, egrOf_setCopy]
  · have mine (j : Nat) : copyOf f j = copyOf d j := by simp only [copyOf, put.buf (by simp)]
    rw [copyOf, count.buf (by simp), ← copyOf, copyOf_setCopy, mine, mine, copy]
    rfl
  · rw [frameOf, count.buf (by simp), ← frameOf, frameOf_setCopy, frameOf, put.buf (by simp), ← frameOf]
  · rw [run, rd_pcnt ((ownPath_congr (set.regs _ not_false)).trans counts) (by decide), set.regs _ not_false]

/-- A preemption leaves what decides whether a head is discarded. -/
theorem Cut.keeps {i n : Nat} {c0 : Copy} (h : Cut p i n c0 d t) (hp : p < 512) {cp : Copy} {x : Frame} (h7 : cp.cls = 7)
    (keeps : headDiscard d p id cp x = none) : headDiscard t p id cp x = none := by
  have low {a : Nat} (ha : a < 0x80_0000) : ¬CutRegs p a := by simp [CutRegs, Reg.port]; omega
  have own {o : Nat} (ho : o ∉ [Reg.txMmPreempt, Reg.pHalfEvc]) : ¬CutRegs p (Reg.port p + o) := by simpa [CutRegs] using ho
  have mode : rd t (Reg.port p + Reg.pMode) = rd d (Reg.port p + Reg.pMode) := h.moves.regs _ (own (by decide))
  have sts : rd t (Reg.port p + Reg.pSts) = rd d (Reg.port p + Reg.pSts) := h.moves.regs _ (own (by decide))
  have dead : portDead t p = portDead d p := by
    unfold portDead linkUp? fld flag
    rw [mode, sts]
  have stamp : stampExt t p true = stampExt d p true := by
    refine stampExt_moved h.moves (by simp) (by simp) true fun a ha => ?_
    simp only [List.mem_cons, List.not_mem_nil, or_false] at ha
    rcases ha with rfl | rfl | rfl | rfl | rfl
    · exact low (by decide)
    · exact low (by decide)
    · exact low (by decide)
    · exact low (by simp only [Reg.tsTrim, Reg.tsu]; omega)
    · exact own (by decide)
  have safe : t.safe = d.safe := h.moves.parts .safe (by simp)
  have last (m : Nat) : sentLast t p m x = sentLast d p m x := by simp only [sentLast, safe]
  rw [headDiscard_none, if_pos h7] at keeps ⊢
  rwa [dead, stamp, last]

/-- A TC7 frame that waits cuts the frame on the preemptable MAC and starts (R348). -/
theorem tc7_preempts (hp : p < 512) {i : Nat} {c0 cp : Copy} {x : Frame} {r : List Nat} (dead : portDead s.dev p = false)
    (express : (egrOf s.dev p).express = none) (sends : (egrOf s.dev p).preempt = some i) (gates : NoGateDue s.dev p)
    (tele : (egrOf s.dev p).tele = []) (active : mmActive s.dev p = true) (copy0 : copyOf s.dev i = some c0) (loc : c0.loc = .sending)
    (ne : i ≠ id) (room : 64 + minFrag s.dev p + c0.fragBytes ≤ (copyBytes s.dev c0).length) (queue : queueOf s.dev p 7 = id :: r)
    (copy : copyOf s.dev id = some cp) (h7 : cp.cls = 7) (plain : cp.mirror = none) (frame : frameOf s.dev cp.frame = some x)
    (keeps : headDiscard s.dev p id cp x = none) (ptp : x.parse.ptpOff = none) (inject : x.inject = none)
    (counts : portCounts s.dev p = true) : Ends (.frameBoundary p false []) s fun t =>
      (egrOf t p).express = some id ∧ (egrOf t p).preempt = some i ∧ queueOf t p 7 = r ∧
        (∃ k, copyOf t i = some k ∧ k.loc = .preempted ∧ k.frags = c0.frags + 1 ∧
          c0.fragBytes + minFrag s.dev p ≤ k.fragBytes + 4 ∧ k.fragBytes + 64 ≤ (copyBytes s.dev c0).length) ∧
        rd t (Reg.port p + Reg.txMmPreempt) = (rd s.dev (Reg.port p + Reg.txMmPreempt) + 1) % two32 := by
  have tagged := retagged_syncHeads (begun s) p
  have run := frameBoundary_express (d := begun s) dead express gates []
  generalize syncHeads (begun s) p = e at tagged run
  have least : minFrag e p = minFrag s.dev p := tagged.minFrag
  have bytes : copyBytes e c0 = copyBytes s.dev c0 := by
    simp only [copyBytes, tagged.frameOf]
    rfl
  have queueE : queueOf e p 7 = id :: r := (tagged.queue 7).trans queue
  have waits : expressWaits e p = true := by simp [expressWaits, expressReady, eligible_tc7 queueE]
  obtain ⟨n, cut⟩ := preemptNow_cuts (tagged.preempt.trans sends) ((tagged.copyOf i).trans copy0) loc (tagged.mmActive.trans active)
    (by rw [least, bytes]; exact room)
  obtain ⟨a, b, egr⟩ := cut.egr
  rw [expressBoundary_eq, waits, if_pos rfl] at run
  have keepsE := cut.keeps hp h7 (headDiscard_retagged tagged (headDiscard_begun keeps))
  have atLeast := cut.atLeast
  have leaves := cut.leaves
  have count := cut.counts ((ownPath_congr (tagged.rd _)).trans counts)
  have cutI := (cut.copies i).trans (if_pos rfl)
  have copyG := (cut.copies id).trans ((if_neg ne.symm).trans ((tagged.copyOf id).trans copy))
  have frameG := (cut.frames cp.frame).trans ((tagged.frameOf _).trans frame)
  generalize preemptNow e p = g at run egr keepsE count cutI copyG frameG
  have queueG : queueOf g p 7 = id :: r := by rw [← queueE]; simp only [queueOf, egr]
  have sendsG : (egrOf g p).preempt = some i := by rw [egr]; exact tagged.preempt.trans sends
  have teleG : (egrOf g p).tele = [] := by rw [egr]; exact tagged.tele.trans tele
  have yields : preSends g p = false := by simp [preSends, sendsG, cutI, cutAt]
  rw [expressSelect_starts yields teleG (pickExpress_tc7 queueG) queueG copyG frameG keepsE ptp plain (.inl h7) inject] at run
  obtain ⟨started, -, -, ports⟩ := startHead_starts (p := p) (c := 7) (pre := false) copyG ptp plain (.inl h7) frameG inject
  obtain ⟨mac, left, -⟩ := started.ends queueG
  refine ends_of_runIf (f := frameBoundary p false []) rfl (decide_eq_true hp) ?_
  rw [run]
  refine ⟨mac, ?_, left, ⟨cutAt n c0, ?_, rfl, rfl, ?_, ?_⟩, ?_⟩
  · rw [egrOf_settle]
    exact started.other.trans sendsG
  · rw [copyOf, settle_buf, ← copyOf, started.copies i ne, cutI]
  · rwa [← least]
  · rwa [← bytes]
  · rw [rd_settle _ (by simp only [Reg.port, Reg.irqMsgCnt]; omega), ports _ hp (by decide), count]
    exact congrArg (fun n => (n + 1) % two32) (tagged.rd _)

end Sys2Proof.Machine
end

section
/-! A frame ends, and a preempted frame goes on (R69, R343, R349, R352). -/

namespace Sys2Proof.Machine

open Sys2Proof

variable {d t u e : Dev} {s : State} {p id : Nat} {ps : List Piece} {rs : Nat → Prop}

/-! ## A copy leaves the device -/

theorem mem_of_mem_tdel {α : Type} {t : Tab α} {k : Nat} {x : Nat × α} (h : x ∈ tdel t k) : x ∈ t := by
  induction t with
  | nil => exact h
  | cons y r ih =>
    unfold tdel at h
    split at h
    · exact List.mem_cons_of_mem _ (ih h)
    · rcases List.mem_cons.1 h with rfl | h
      · exact List.mem_cons_self
      · exact List.mem_cons_of_mem _ (ih h)

theorem copies_sweepFrame (d : Dev) (f : Nat) : (sweepFrame d f).buf.copies = d.buf.copies := by
  unfold sweepFrame
  split
  · rfl
  · split <;> rfl

/-- An empty queue has nothing to lose. -/
theorem tget_filtered_empty (g : List Nat → List Nat) (hg : g [] = []) (l : List Nat) (q : Tab (List Nat)) {k : Nat} (h : tget [] q k = []) :
    tget [] (l.foldl (fun q j => tmod [] q j g) q) k = [] := by
  induction l generalizing q with
  | nil => exact h
  | cons j r ih =>
    refine ih _ ?_
    rw [tget_tmod]
    split
    · rename_i same
      rw [← same, h, hg]
    · exact h

/-- What egress holds when copy id has left. -/
def without (id : Nat) (e : EgrPort) : EgrPort :=
  { e with
    queues := (List.range 8).foldl (fun q k => tmod [] q k (List.filter (· ≠ id))) e.queues
    express := if e.express = some id then none else e.express
    preempt := if e.preempt = some id then none else e.preempt }

/-- Copy id, one of port p, has left the device, and its last bytes are on the wire. -/
structure Gone (p id : Nat) (lead out : List Byte) (d t : Dev) : Prop where
  copy : copyOf t id = none
  copies : ∀ x ∈ t.buf.copies, x ∈ d.buf.copies
  egr : egrOf t p = without id { egrOf d p with lead, out }
  regs : ∀ a, rd t a = rd d a

theorem removeCopy_gone {c : Copy} {lead out : List Byte} (copy : copyOf d id = some c) (hp : c.port = p) :
    Gone p id lead out d (removeCopy (putOut d p lead out) id) := by
  subst hp
  have put : egrOf (putOut d c.port lead out) c.port = { egrOf d c.port with lead, out } := egrOf_setEgr_self ..
  have moved : Moves [.buf, .egr] (fun _ => False) d (removeCopy (putOut d c.port lead out) id) :=
    (moves_putOut d _ _ _ (by simp)).trans (moves_removeCopy _ id (by simp) (by simp))
  have buf : (putOut d c.port lead out).buf = d.buf := rfl
  have copy' : copyOf (putOut d c.port lead out) id = some c := copy
  generalize putOut d c.port lead out = e at put moved buf copy'
  have run : removeCopy e id = sweepFrame (setEgr (e.onBuf fun b => { b with copies := tdel b.copies id }) c.port (without id)) c.frame := by
    unfold removeCopy without
    rw [copy']
  have copies : (removeCopy e id).buf.copies = tdel d.buf.copies id := by rw [run, copies_sweepFrame, setEgr_buf, ← buf]; rfl
  refine ⟨?_, fun x hx => ?_, ?_, fun a => moved.regs a not_false⟩
  · rw [copyOf, copies]
    exact tfind_tdel_self ..
  · rw [copies] at hx
    exact mem_of_mem_tdel hx
  · rw [run, (moves_sweepFrame (ps := [.buf]) (rs := fun _ => False) _ (by simp) c.frame).egr (by simp), egrOf_setEgr_self, ← put]
    rfl

section
variable {a b : List Byte} (h : Gone p id a b d t)
include h

theorem Gone.express (sends : (egrOf d p).express = some id) : (egrOf t p).express = none := by
  rw [h.egr, without]
  exact if_pos sends

theorem Gone.tele : (egrOf t p).tele = (egrOf d p).tele := by rw [h.egr, without]

theorem Gone.ctl : (egrOf t p).ctl = (egrOf d p).ctl := by rw [h.egr, without]

theorem Gone.lead : (egrOf t p).lead = a := by rw [h.egr, without]

theorem Gone.out : (egrOf t p).out = b := by rw [h.egr, without]

theorem Gone.queue {k : Nat} (empty : queueOf d p k = []) : queueOf t p k = [] := by
  rw [queueOf, h.egr, without]
  dsimp only
  exact tget_filtered_empty _ List.filter_nil _ _ empty

end

/-! ## The end of a frame (R69, R352) -/

/-- An express frame that is whole has gone: its bytes are put on the wire and counted. -/
theorem endMac_ends {c : Copy} (express : (egrOf d p).express = some id) (copy : copyOf d id = some c) (sending : c.loc = .sending)
    (plain : c.corked = false) (whole : canEnd d c = true) : endMac d p false = (true,
      removeCopy (putOut (countSent d p (copyBytes d c)) p (wireLead false 0 0) ((copyBytes d c).drop c.fragBytes)) id) := by
  simp [endMac, express, copy, sending, whole, endCopy, plain]
  rfl

/-- With nothing that waits, a boundary of the express MAC sends nothing. -/
theorem expressBoundary_idle (express : (egrOf d p).express = none) (tele : (egrOf d p).tele = []) (ctl : (egrOf d p).ctl = [])
    (empty : ∀ k < 8, queueOf d p k = []) (life : ∀ k ∈ d.buf.copies, k.2.lifeline = false) : expressBoundary d p = d := by
  have off (k : Nat) (hk : k < 8) : eligible d p k = false := eligible_empty (empty k hk)
  have waits : expressWaits d p = false := expressWaits_none tele ctl (empty 7 (by decide)) (.inr (off 6 (by decide)))
  have pick : pickExpress d p = none := by
    simp [pickExpress, off 7 (by decide), off 6 (by decide), ctl, wfqPick_none empty]
  have next : lifeNext d p = none := by
    have none : (d.buf.copies.filter fun e => e.2.lifeline && decide (e.2.port = p ∧ e.2.loc = .landed)) = [] := by
      rw [List.filter_eq_nil_iff]
      intro k hk
      simp [life k hk]
    simp only [lifeNext, none]
    rfl
  have start (n : Nat) : startLife (n + 1) d p = d := by simp only [startLife, next]
  rw [expressBoundary_eq, waits, if_neg Bool.false_ne_true]
  cases sends : preSends d p with
  | true => exact if_pos sends
  | false => rw [expressSelect_ctl sends tele pick express, if_neg (not_not.2 ctl), start]

theorem frame_ends (hp : p < 512) {c : Copy} (express : (egrOf s.dev p).express = some id) (dead : portDead s.dev p = false)
    (gates : NoGateDue s.dev p) (tele : (egrOf s.dev p).tele = []) (ctl : (egrOf s.dev p).ctl = [])
    (empty : ∀ k < 8, queueOf s.dev p k = []) (life : ∀ k ∈ s.dev.buf.copies, k.2.lifeline = false) (copy : copyOf s.dev id = some c)
    (port : c.port = p) (sending : c.loc = .sending) (plain : c.corked = false) (whole : canEnd s.dev c = true)
    (counts : portCounts s.dev p = true) : Ends (.frameBoundary p false []) s fun t =>
      (egrOf t p).out = (copyBytes s.dev c).drop c.fragBytes ∧ (egrOf t p).lead = wireLead false 0 0 ∧ (egrOf t p).express = none ∧
        copyOf t id = none ∧
        (macControl (copyBytes s.dev c) = 0 →
          rd t (Reg.port p + Reg.txFramesOk) = (rd s.dev (Reg.port p + Reg.txFramesOk) + 1) % two32) ∧
        (macControl (copyBytes s.dev c) = 1 → rd t (Reg.port p + Reg.txPause) = (rd s.dev (Reg.port p + Reg.txPause) + 1) % two32 ∧
          rd t (Reg.port p + Reg.txFramesOk) = rd s.dev (Reg.port p + Reg.txFramesOk)) := by
  have ended := endMac_ends (d := begun s) express copy sending plain whole
  have run : frameBoundary p false [] (begun s) = expressBoundary (syncHeads (endMac (begun s) p false).2 p) p := by
    simp [frameBoundary, show portDead (begun s) p = false from dead, gatesDue_none (d := begun s) gates, ended]
  rw [ended] at run
  generalize hl : copyBytes (begun s) c = l at run
  obtain rfl : copyBytes s.dev c = l := hl
  generalize copyBytes s.dev c = l at run ⊢
  have counted : Moves [] (OfPort p) (begun s) (countSent (begun s) p l) := moves_countSent _ p l
  have ok := rd_countSent_good (d := begun s) (p := p) (l := l)
  have pause := rd_countSent_pause (d := begun s) (p := p) (l := l)
  generalize countSent (begun s) p l = f at run counted ok pause
  have egr : egrOf f p = egrOf s.dev p := counted.egr (by simp) p
  have buf : f.buf = s.dev.buf := counted.buf (by simp)
  have gone : Gone p id (wireLead false 0 0) (l.drop c.fragBytes) f _ := removeCopy_gone (by rw [copyOf, buf]; exact copy) port
  generalize removeCopy (putOut f p (wireLead false 0 0) (l.drop c.fragBytes)) id = h at run gone
  have queue (k : Nat) : queueOf f p k = queueOf s.dev p k := by simp only [queueOf, egr]
  have tagged := retagged_syncHeads h p
  have none := tagged.express.trans (gone.express (by rw [egr]; exact express))
  rw [expressBoundary_idle none (tagged.tele.trans (gone.tele.trans (by rw [egr]; exact tele)))
    (tagged.ctl.trans (gone.ctl.trans (by rw [egr]; exact ctl)))
    (fun k hk => (tagged.queue k).trans (gone.queue ((queue k).trans (empty k hk)))) fun k hk => by
      rw [tagged.buf] at hk
      exact life k (buf ▸ gone.copies k hk)] at run
  obtain ⟨st, fi, he, tags⟩ := tagged.tags
  have reg (o : Nat) (ho : o < 0x1000) : rd (settle (frameBoundary p false [] (begun s))) (Reg.port p + o) = rd f (Reg.port p + o) := by
    rw [rd_settle _ (by simp only [Reg.port, Reg.irqMsgCnt]; omega), run, tagged.rd, gone.regs]
  refine ends_of_runIf (f := frameBoundary p false []) rfl (decide_eq_true hp) ⟨?_, ?_, ?_, ?_, fun kind => ?_, fun kind => ?_⟩
  · rw [egrOf_settle, run, tags, gone.out]
  · rw [egrOf_settle, run, tags, gone.lead]
  · rw [egrOf_settle, run, none]
  · rw [copyOf, settle_buf, ← copyOf, run, tagged.copyOf, gone.copy]
  · rw [reg _ (by decide)]
    exact ok kind counts
  · rw [reg _ (by decide), reg _ (by decide)]
    exact pause kind counts

/-! ## The rest of a preempted frame (R349) -/

section
variable (h : Retagged p d t)
include h

theorem Retagged.expressWaits : expressWaits t p = expressWaits d p := by
  simp only [Machine.expressWaits, expressReady, h.tele, h.ctl, h.eligible, h.preemptable]

theorem Retagged.copyBytes (c : Copy) : copyBytes t c = copyBytes d c := by simp only [Machine.copyBytes, h.frameOf]

theorem Retagged.restFits (c : Copy) : restFits t p c = restFits d p c := by
  simp only [Machine.restFits, h.copyBytes, h.preemptable, h.gateFor, h.minFrag]

end

/-- A preempted frame is not the MAC's to end. -/
theorem endMac_preempted {c : Copy} (waits : (egrOf d p).preempt = some id) (copy : copyOf d id = some c) (loc : c.loc = .preempted) :
    endMac d p true = (true, d) := by
  simp [endMac, waits, copy, loc]

theorem preBoundary_resumes {c : Copy} (express : (egrOf d p).express = none) (idle : expressWaits d p = false)
    (waits : (egrOf d p).preempt = some id) (copy : copyOf d id = some c) (fits : restFits d p c = true)
    (free : (mmActive d p && flag d (stsAddr p) 8) = false) :
    preBoundary d p = pcnt (setFlag (setCopy d id fun k => { k with loc := .sending }) (stsAddr p) 12 false) p Reg.txMmFrag := by
  simp only [preBoundary, idle, express, waits, copy, fits, free, Option.isSome_none, Bool.or_false, Bool.not_true, Bool.false_eq_true,
    or_self, if_false]

theorem frame_resumes (hp : p < 512) {c : Copy} (express : (egrOf s.dev p).express = none) (preempted : (egrOf s.dev p).preempt = some id)
    (dead : portDead s.dev p = false) (gates : NoGateDue s.dev p) (waits : expressWaits s.dev p = false)
    (copy : copyOf s.dev id = some c) (loc : c.loc = .preempted) (fits : restFits s.dev p c = true)
    (free : (mmActive s.dev p && flag s.dev (stsAddr p) 8) = false) : Ends (.frameBoundary p true []) s fun t =>
      copyOf t id = some { c with loc := .sending } ∧ flag t (stsAddr p) 12 = false ∧ (egrOf t p).preempt = some id ∧
        (∀ q, q ≠ p → egrOf t q = egrOf s.dev q) ∧ OnlyParts [.buf, .egr] s.dev t := by
  have tagged := retagged_syncHeads (begun s) p
  have run : frameBoundary p true [] (begun s) = preBoundary (syncHeads (begun s) p) p := by
    simp [frameBoundary, show portDead (begun s) p = false from dead, gatesDue_none (d := begun s) gates, preempted,
      endMac_preempted (d := begun s) preempted copy loc, tagged.preempt]
  generalize syncHeads (begun s) p = e at tagged run
  have freeE : (mmActive e p && flag e (stsAddr p) 8) = false := by
    rw [tagged.mmActive, flag, tagged.rd]
    exact free
  rw [preBoundary_resumes (tagged.express.trans express) (tagged.expressWaits.trans waits) (tagged.preempt.trans preempted)
    ((tagged.copyOf id).trans copy) ((tagged.restFits c).trans fits) freeE] at run
  have counted (f : Dev) : Moves [] (· ∈ [Reg.port p + Reg.txMmFrag, Reg.port p + Reg.pHalfEvc]) f (pcnt f p Reg.txMmFrag) :=
    moves_pcnt f (by simp) (by simp)
  have flagged (f : Dev) : Moves [] (fun _ => True) f (setFlag f (stsAddr p) 12 false) := moves_setFlag f 12 false trivial
  have set : Moves [.buf] (fun _ => True) e (setCopy e id fun k => { k with loc := .sending }) := moves_setCopy e (by simp) id _
  have after : Moves [] (fun _ => True) (setCopy e id fun k => { k with loc := .sending }) (frameBoundary p true [] (begun s)) := by
    rw [run]
    exact (flagged _).trans ((counted _).mono (by simp) fun _ _ => trivial)
  have egr (q : Nat) : egrOf (frameBoundary p true [] (begun s)) q = egrOf e q :=
    (after.egr (by simp) q).trans (set.egr (by simp) q)
  have moved : Moves [.buf, .egr] (fun _ => True) (begun s) (frameBoundary p true [] (begun s)) :=
    (tagged.moves.mono (by simp) fun _ h => h).trans ((set.mono (by simp) fun _ h => h).trans (after.mono (by simp) fun _ h => h))
  have far : stsAddr p ∉ [Reg.port p + Reg.txMmFrag, Reg.port p + Reg.pHalfEvc] := by
    simp [stsAddr, Reg.egr, Reg.tile, Reg.port, Reg.eSts, Reg.txMmFrag, Reg.pHalfEvc]
    omega
  refine ends_of_runIf (f := frameBoundary p true []) rfl (decide_eq_true hp) ⟨?_, ?_, ?_, fun q hq => ?_, moved.onlyParts⟩
  · rw [copyOf, settle_buf, ← copyOf, copyOf, after.buf (by simp), ← copyOf, copyOf_setCopy, if_pos rfl, tagged.copyOf,
      show copyOf (begun s) id = some c from copy]
    rfl
  · have ne : stsAddr p ≠ Reg.irqMsgCnt := by simp only [stsAddr, Reg.egr, Reg.tile, Reg.irqMsgCnt]; omega
    rw [flag_settle _ _ ne, run, (counted _).flag far, flag_setFlag_self _ _ _ _ (by decide)]
  · rw [egrOf_settle, egr, tagged.preempt]
    exact preempted
  · rw [egrOf_settle, egr, tagged.others q hq]
    rfl

/-! ## The statement -/

/-- Settles O52: each clause is the boundary's choice in its order: a telegram, a TC7 frame, control frames, TC6, the smallest finish tag;
then the preemption by a waiting TC7 frame, the end of a frame and the rest of a preempted one. -/
theorem boundariesSendWhatComesFirst : Obligations.BoundariesSendWhatComesFirst := by
  intro s p hp
  refine ⟨fun id c => copy_joins, ?_, ?_, ?_, ?_⟩
  · rintro _ rfl dead express idle gates
    refine ⟨fun errs j tl => telegram_first hp dead express gates idle errs, fun id cp x r tele => tc7_next hp dead express idle gates tele,
      fun tele none7 => ⟨respond_next hp dead express idle gates tele none7, fun errs k q => pfc_next hp dead express idle gates tele none7 errs⟩,
      ?_⟩
    intro b c id cp x r tele ctl none7 rule queue on copy _
    exact class_next hp dead express idle gates tele ctl none7 rule queue on copy
  · rintro _ i c0 id cp x r rfl dead express sends gates tele active copy0 loc
    exact tc7_preempts hp dead express sends gates tele active copy0 loc
  · rintro _ id c rfl express dead gates tele ctl empty life copy port sending plain - whole
    exact frame_ends hp express dead gates tele ctl empty life copy port sending plain whole
  · rintro _ id c rfl express preempted dead gates
    exact frame_resumes hp express preempted dead gates

end Sys2Proof.Machine
end

section
/-! Pattern sets (R119, R126, R127): a tile takes a load into its inactive set and swaps, and the other tiles keep both sets. -/

namespace Sys2Proof.Machine

open Sys2Proof

variable {d e f : Dev} {s : State} {ps : List Piece} {rs : Nat → Prop} {es : List (List Byte)} {n t : Nat}

theorem moves_onFwd (d : Dev) (f : Fwd → Fwd) (hp : .fwd ∈ ps) : Moves ps rs d (d.onFwd f) :=
  ⟨fun x hx => by cases x <;> simp_all [Same], fun _ _ => rfl, .refl d, .refl d.buf⟩

/-! ## One tile -/

/-- The set that a load makes of the active one: valid patterns are put at their numbers, others taken out (R126). -/
def loadedSet (es : List (List Byte)) (set : Tab PatEnt) : Tab PatEnt :=
  es.foldl (fun s l => if (parsePat l).valid then tins s (le l 0 2) (parsePat l) else tdel s (le l 0 2)) set

/-- The two sets of a tile. -/
def patSet (d : Dev) (n a : Nat) : Tab PatEnt := tget [] d.fwd.pats (2 * n + a)

/-- The tile has its sets, and the same of them is active. -/
def TileKept (d e : Dev) (n : Nat) : Prop := activeSet e n = activeSet d n ∧ ∀ a < 2, patSet e n a = patSet d n a

/-- The tile has swapped its sets: the one now active is what the load makes of the other, which stays (R127). -/
def TileSwapped (es : List (List Byte)) (d e : Dev) (n : Nat) : Prop :=
  activeSet e n = 1 - activeSet d n ∧ patSet e n (activeSet e n) = loadedSet es (patSet d n (activeSet d n)) ∧
    patSet e n (activeSet d n) = patSet d n (activeSet d n)

theorem activeSet_lt (d : Dev) (n : Nat) : activeSet d n < 2 := bits_lt ..

theorem TileKept.trans (h : TileKept d e n) (g : TileKept e f n) : TileKept d f n :=
  ⟨g.1.trans h.1, fun a ha => (g.2 a ha).trans (h.2 a ha)⟩

theorem TileKept.swapped (h : TileKept d e n) (g : TileSwapped es e f n) : TileSwapped es d f n := by
  obtain ⟨active, sets⟩ := h
  simpa only [TileSwapped, active, sets _ (activeSet_lt d n)] using g

theorem TileSwapped.kept (h : TileSwapped es d e n) (g : TileKept e f n) : TileSwapped es d f n := by
  obtain ⟨active, sets⟩ := g
  simpa only [TileSwapped, active, sets _ (activeSet_lt e n), sets _ (activeSet_lt d n)] using h

/-- The registers of tile n that a load writes. -/
def swapRegs (n : Nat) : List Nat := [Reg.tile n + Reg.patSts, Reg.tile n + Reg.patSwapEvc]

theorem patSts_ne (n t : Nat) : Reg.tile n + Reg.patSts ≠ Reg.tile t + Reg.patSwapEvc := by
  simp only [Reg.tile, Reg.patSts, Reg.patSwapEvc]; omega

/-- The device of a load before the swap: the inactive set and the configuration records are written. -/
def patsWritten (es : List (List Byte)) (d : Dev) (t : Nat) : Dev :=
  es.foldl (fun d l => putCfg d 38 (1024 * t + le l 0 2) l) (d.onFwd fun w =>
    { w with pats := tput [] w.pats (2 * t + (1 - activeSet d t)) (loadedSet es (patSet d t (activeSet d t))) })

theorem loadPats_eq (es : List (List Byte)) (d : Dev) (t : Nat) : loadPats es d t =
    tcnt (setFld (patsWritten es d t) (Reg.tile t + Reg.patSts) 0 1 (1 - activeSet d t)) t Reg.patSwapEvc := rfl

theorem moves_records (es : List (List Byte)) (d : Dev) (t : Nat) :
    Moves [.host] (fun _ => False) d (es.foldl (fun d l => putCfg d 38 (1024 * t + le l 0 2) l) d) :=
  .foldl es (fun d _ _ => moves_putCfg d _ _ _ (by simp)) d

theorem moves_patsWritten (es : List (List Byte)) (d : Dev) (t : Nat) :
    Moves [.fwd, .host] (fun _ => False) d (patsWritten es d t) :=
  (moves_onFwd d _ (by simp)).trans ((moves_records es _ t).mono (by simp) fun _ h => h)

theorem moves_swap (d : Dev) (t x : Nat) :
    Moves ([] : List Piece) (· ∈ swapRegs t) d (tcnt (setFld d (Reg.tile t + Reg.patSts) 0 1 x) t Reg.patSwapEvc) :=
  (moves_setFld d 0 1 x (by simp [swapRegs])).trans (moves_tcnt _ (by simp [swapRegs]))

theorem moves_loadPats (es : List (List Byte)) (d : Dev) (t : Nat) : Moves [.fwd, .host] (· ∈ swapRegs t) d (loadPats es d t) :=
  ((moves_patsWritten es d t).mono (by simp) fun _ h => h.elim).trans ((moves_swap _ t _).mono (by simp) fun _ h => h)

theorem patSet_loadPats (es : List (List Byte)) (d : Dev) (t n a : Nat) : patSet (loadPats es d t) n a =
    if 2 * n + a = 2 * t + (1 - activeSet d t) then loadedSet es (patSet d t (activeSet d t)) else patSet d n a := by
  have swap : (loadPats es d t).fwd = (patsWritten es d t).fwd := (moves_swap _ t _).parts .fwd (by simp)
  have records : (patsWritten es d t).fwd = _ := (moves_records es _ t).parts .fwd (by simp)
  rw [patSet, swap, records, Dev.onFwd_fwd, tget_tput]
  rfl

theorem activeSet_loadPats_self (es : List (List Byte)) (d : Dev) (t : Nat) : activeSet (loadPats es d t) t = 1 - activeSet d t := by
  have bound := activeSet_lt d t
  rw [activeSet, loadPats_eq, fld, tcnt, rd_cnt_ne _ (patSts_ne t t), ← fld, fld_setFld_self _ _ _ _ _ (by decide)]
  omega

theorem loadPats_swaps (es : List (List Byte)) (d : Dev) (t : Nat) : TileSwapped es d (loadPats es d t) t := by
  have bound := activeSet_lt d t
  refine ⟨activeSet_loadPats_self es d t, ?_, ?_⟩
  · rw [activeSet_loadPats_self, patSet_loadPats, if_pos rfl]
  · rw [patSet_loadPats, if_neg (by omega)]

theorem loadPats_keeps (es : List (List Byte)) (d : Dev) (h : n ≠ t) : TileKept d (loadPats es d t) n := by
  have far : Reg.tile n + Reg.patSts ∉ swapRegs t := by
    simp only [swapRegs, List.mem_cons, List.not_mem_nil, or_false, Reg.tile, Reg.patSts, Reg.patSwapEvc]; omega
  refine ⟨(moves_loadPats es d t).fld far 0 1, fun a ha => ?_⟩
  rw [patSet_loadPats, if_neg (by omega)]

/-! ## The tiles of the bitmap -/

theorem moves_loadTiles (es : List (List Byte)) (l : List Nat) (d : Dev) :
    Moves [.fwd, .host] (∃ n ∈ l, · ∈ swapRegs n) d (l.foldl (loadPats es) d) :=
  .foldl l (fun d n hn => (moves_loadPats es d n).mono (by simp) fun _ ha => ⟨n, hn, ha⟩) d

/-- Each tile loaded once swaps its own sets; a tile not loaded keeps them. -/
theorem loadTiles_tile (es : List (List Byte)) {l : List Nat} (once : l.Nodup) (d : Dev) :
    (n ∈ l → TileSwapped es d (l.foldl (loadPats es) d) n) ∧ (n ∉ l → TileKept d (l.foldl (loadPats es) d) n) := by
  induction l generalizing d with
  | nil => exact ⟨fun h => absurd h List.not_mem_nil, fun _ => ⟨rfl, fun _ _ => rfl⟩⟩
  | cons t r ih =>
    obtain ⟨fresh, once⟩ := List.nodup_cons.1 once
    obtain ⟨swaps, keeps⟩ := ih once (loadPats es d t)
    by_cases h : n = t
    · subst h
      exact ⟨fun _ => (loadPats_swaps es d n).kept (keeps fresh), fun out => absurd List.mem_cons_self out⟩
    · have kept := loadPats_keeps es d h
      exact ⟨fun hn => kept.swapped (swaps (List.mem_of_ne_of_mem h hn)),
        fun out => kept.trans (keeps fun hn => out (List.mem_cons_of_mem t hn))⟩

theorem mem_ones {k v : Nat} : n ∈ ones k v ↔ n < k ∧ bit v n = true := by simp [ones]

theorem nodup_ones (k v : Nat) : (ones k v).Nodup := List.nodup_range.filter _

/-! ## The command -/

theorem tileKept_complete {ch : Nat} {sl : Slot} (hc : ch < 16) (hs : Served d ch sl) (hn : n < 16) :
    TileKept d (settle (complete ch sl { dev := d, vint := true })) n := by
  have fwd : (settle (complete ch sl { dev := d, vint := true })).fwd = d.fwd := by
    rw [settle_fwd]
    exact complete_same (r := { dev := d, vint := true }) hc hs (x := .fwd) (by decide) (by decide) (by decide)
  have sts : rd (settle (complete ch sl { dev := d, vint := true })) (Reg.tile n + Reg.patSts) = rd d (Reg.tile n + Reg.patSts) := by
    rw [rd_settle _ (by simp only [Reg.tile, Reg.irqMsgCnt]; omega), rd_complete (r := { dev := d, vint := true }) hc hs] <;>
      simp only [ChanReg, Reg.tile, Reg.patSts, Reg.chan, Reg.coopBadFree, Reg.coopBadFreeLast, Reg.cc] <;> omega
  exact ⟨by simp only [activeSet, fld, sts], fun a _ => by simp only [patSet, fwd]⟩

/-- A payload of one good element loads it into the tiles of its bitmap. -/
theorem patternRes_one (d : Dev) {sl : Slot} (len : sl.payload.length = 52) (one : le sl.payload 2 2 = 1)
    (ok : patElemOk (sl.payload.drop 4) = true) :
    patternRes d sl = { dev := (ones 16 (le sl.payload 0 2)).foldl (loadPats [sl.payload.drop 4]) d, vint := true } := by
  have whole : (sl.payload.drop 4).take 48 = sl.payload.drop 4 := List.take_of_length_le (by simp [len])
  simp [patternRes, one, len, whole, findIdx, ok]

theorem loadedSet_valid {l : List Byte} (valid : (parsePat l).valid = true) (set : Tab PatEnt) :
    loadedSet [l] set = tins set (le l 0 2) (parsePat l) := if_pos valid

/-- Settles O15: the tiles named swap once each, the others keep their sets, and completion touches neither. -/
theorem patternLoadSwapsSets : Obligations.PatternLoadSwapsSets := by
  rintro s ch i m sl hc hs ha hlen len rfl one rfl ok valid
  have element : le (sl.payload.drop 4) 0 2 = le sl.payload 4 2 := by simp [le]
  have moved := moves_loadTiles [sl.payload.drop 4] (ones 16 (le sl.payload 0 2)) (begun s)
  have tiles := fun n => loadTiles_tile (n := n) [sl.payload.drop 4] (nodup_ones 16 (le sl.payload 0 2)) (begun s)
  obtain ⟨served, answered, vintage⟩ := complete_moved hc hs moved (by simp) (by simp) fun o ho => by
    rintro ⟨n, -, hn⟩
    simp only [swapRegs, List.mem_cons, List.not_mem_nil, or_false, Reg.tile, Reg.patSts, Reg.patSwapEvc, Reg.chan] at hn
    omega
  refine ends_cmd (op := 0x303) (fl := 0) (flags := 0) rfl (decide_eq_true hc) hc hs ha rfl (by simp [headedLen, hlen]) rfl ?_
  rw [patternRes_one _ len one ok]
  refine ⟨answered, vintage, fun n hn named => ?_, fun n hn other => ?_, ?_⟩
  · obtain ⟨active, loaded, stays⟩ := ((tiles n).1 (mem_ones.2 ⟨hn, named⟩)).kept (tileKept_complete hc served hn)
    rw [loadedSet_valid valid, element] at loaded
    refine ⟨active, ?_, fun j hj => ?_, stays⟩
    · rw [← patSet, loaded, tfind_tins_self]
    · rw [← patSet, loaded, tfind_tins_ne _ _ hj]
      rfl
  · exact ((tiles n).2 fun h => by simp [mem_ones.1 h] at other).trans (tileKept_complete hc served hn)
  · refine complete_onlyRegs hc served fun a outside _ => moved.regs a ?_
    rintro ⟨n, hn, hm⟩
    exact outside (List.mem_flatMap.2 ⟨n, List.mem_range.2 (mem_ones.1 hn).1, hm⟩)

end Sys2Proof.Machine
end

section
/-! Writes of rule entries and meters (R150, R154, R365): what a chunk clears, and the meter that its table does not list. -/

namespace Sys2Proof.Machine

open Sys2Proof

variable {d : Dev}

/-- A `RULE_WRITE` slot. -/
def ruleSlot (flags : Nat) (payload : List Byte) : Slot :=
  { opcode := 0x301, flags, len := payload.length, tag := 0, expVint := 0, rspLen := 0, payload }

/-- The device in full service, its channel 0 at work on a slot. -/
def atWork (sl : Slot) : Dev :=
  { boot := { phase := .full, fwRunning := true }, host := { busMaster := true, chan := [(0, { inflight := [sl] })] } }

/-! ## A chunk clears the totals of its entries -/

/-- Firmware holds no total of the frames of entry g of complex k. -/
def NoTotal (d : Dev) (k g : Nat) : Prop := tfind d.tel.totals (Reg.cplx k + Reg.ruleFrames g) = none

theorem writeRule_noTotal (d : Dev) (k g : Nat) (e : RuleEnt) : NoTotal (writeRule d k g e) k g := by
  simp [NoTotal, writeRule, tfind_tdel]

theorem NoTotal.writeRule {k g : Nat} (h : NoTotal d k g) (m j : Nat) (e : RuleEnt) : NoTotal (writeRule d m j e) k g := by
  simp only [NoTotal] at h
  simp [NoTotal, Machine.writeRule, tfind_tdel, h]

theorem writeRules_noTotal (k : Nat) (f : Nat → Nat) (e : Nat → RuleEnt) {l : List Nat} {j : Nat} (hj : j ∈ l ∨ NoTotal d k (f j)) :
    NoTotal (l.foldl (fun d j => writeRule d k (f j) (e j)) d) k (f j) := by
  induction l generalizing d with
  | nil => exact hj.resolve_left List.not_mem_nil
  | cons x r ih =>
    refine ih ?_
    obtain hj | hj := hj
    · obtain rfl | hj := List.mem_cons.1 hj
      · exact .inr (writeRule_noTotal ..)
      · exact .inl hj
    · exact .inr (hj.writeRule ..)

/-- R150: what a chunk writes has no total. -/
theorem writeChunk_noTotal (p : List Byte) (d : Dev) (i : Nat) {j : Nat} (hj : j < min 16 (le p 2 2 - i / 4 * 16)) :
    NoTotal (writeChunk p d i) (i % 4) (le p 0 2 + i / 4 * 16 + j) := by
  simp only [NoTotal, writeChunk, cnt_tel_totals, Dev.onFwd_tel]
  exact writeRules_noTotal (i % 4) (le p 0 2 + i / 4 * 16 + ·) _ (.inl (List.mem_range.2 hj))

/-- The next chunk of an accepted command is written where no key waits. -/
theorem ruleChunkWrite_runs {ch : Nat} {sl : Slot} (hc : ch < 16) (hs : Served d ch sl) (ha : Accepted d ch sl 0x301 0)
    (len : ruleLen sl = true) (ok : rulePayloadOk sl.payload = true) (left : chunksDone d ch < chunkCount sl.payload)
    (free : backlog d (chunksDone d ch % 4) = 0) : ruleChunkWrite ch d =
      (writeChunk sl.payload d (chunksDone d ch)).onFwd fun w => { w with ruleJob := some (ch, chunksDone d ch + 1) } := by
  have pass : checks d ch sl 1 (ruleLen sl) = 0 := checks_zero hc ha len rfl
  obtain ⟨running, inflight, -⟩ := hs
  obtain ⟨op, -, flags, -, -, -, -, lock⟩ := ha
  simp [ruleChunkWrite, running, inflight, op, slotFlag, flags, bit, lock, pass, ok, free, Nat.not_le.2 left]

/-- `RULE_WRITE` of one entry, index 0. -/
def oneRule : List Byte := toLe 2 0 ++ toLe 2 1 ++ zeros 84

/-- The total of that entry in complex 0 stands at 1 frame. -/
def countedRule : State :=
  { dev := { atWork (ruleSlot 0 oneRule) with tel := { totals := [(Reg.cplx 0 + Reg.ruleFrames 0, 1)] } } }

/-- Refutes O13: a chunk sets firmware's totals of the entries that it writes to 0 (R150), where the statement's frame of a chunk keeps
every total. -/
theorem not_ruleWritesReachComplexes : ¬Obligations.RuleWritesReachComplexes := by
  intro h
  obtain ⟨-, chunk⟩ := h countedRule 0 0 1 (ruleSlot 0 oneRule) (by decide) (by decide) (by decide) (by decide) (by decide) (by decide)
  obtain ⟨-, -, -, -, -, only⟩ := Ends.effect (f := ruleChunkWrite 0) rfl (chunk 0 (by decide) (by decide) (by decide))
  have tel := only .tel (by decide)
  obtain ⟨-, -, -, -, -, -, -, -, -, -, -, kept, -⟩ := tel
  have cleared : NoTotal (writeChunk oneRule (begun countedRule) 0) 0 0 := writeChunk_noTotal oneRule _ 0 (j := 0) (by decide)
  rw [settle_tel_totals, ruleChunkWrite_runs (d := begun countedRule) (sl := ruleSlot 0 oneRule) (by decide) (by decide) (by decide)
    (by decide) (by decide) (by decide) (by decide)] at kept
  have none : tfind countedRule.dev.tel.totals (Reg.cplx 0 + Reg.ruleFrames 0) = none := kept ▸ cleared
  exact absurd none (by decide)

/-! ## The meter that its table does not list -/

theorem tfind_tput_dflt {α : Type} [DecidableEq α] (dflt : α) (t : Tab α) (k : Nat) : tfind (tput dflt t k dflt) k = none := by
  rw [tput, if_pos rfl, tfind_tdel_self]

/-- The meters that one good element leaves in a complex (R18). -/
theorem meterRes_meters {sl : Slot} {g k : Nat} (len : sl.payload.length = 24) (one : le sl.payload 2 2 = 1) (hg : g = le sl.payload 0 2)
    (pos : 0 < g) (most : g < 16384) (ok : meterElemOk (sl.payload.drop 4) = true) (hk : k < 4) :
    tget [] (meterRes d sl).dev.fwd.meters k = tput {} (tget [] d.fwd.meters k) g (parseMeter d.now (sl.payload.drop 4)) := by
  have whole : (sl.payload.drop 4).take 20 = sl.payload.drop 4 := List.take_of_length_le (by simp [len])
  have room : ¬16384 < g + 1 := by omega
  have copies : k = 0 ∨ k = 1 ∨ k = 2 ∨ k = 3 := by omega
  obtain rfl | rfl | rfl | rfl := copies <;>
    simp [meterRes, one, ← hg, pos.ne', room, len, whole, findIdx, ok, putCfg, List.range_succ, tget_tmod]

/-- `RULE_WRITE` with `METER` of meter 1: mode 0, both rates encoded as 0, both bursts 0. -/
def zeroMeter : List Byte := toLe 2 1 ++ toLe 2 1 ++ zeros 20

/-- The command at time 0. -/
def meterAtZero : State := { dev := atWork (ruleSlot 1 zeroMeter) }

/-- Its element is good, and with its buckets full at time 0 it is the default meter. -/
theorem zeroMeter_dflt : meterElemOk (zeroMeter.drop 4) = true ∧ parseMeter (begun meterAtZero).now (zeroMeter.drop 4) = {} := by decide

/-- Refutes O14: a meter of zeros whose buckets are full at time 0 is the table's default, and no default stands in a table; the statement
asks for the meter by `tfind`. -/
theorem not_metersAndMatches : ¬Obligations.MetersAndMatches := by
  intro h
  obtain ⟨ok, dflt⟩ := zeroMeter_dflt
  have served : Served meterAtZero.dev 0 (ruleSlot 1 zeroMeter) := by decide
  have accepted : Accepted meterAtZero.dev 0 (ruleSlot 1 zeroMeter) 0x301 1 := by decide
  obtain ⟨meter, -⟩ := h meterAtZero 0 (ruleSlot 1 zeroMeter) (by decide) served
  obtain ⟨-, -, set, -⟩ := Ends.effect (f := ruleWriteMeter 0) rfl
    (meter 1 accepted (by decide) (by decide) (by decide) (by decide) (by decide) (by decide) ok)
  obtain ⟨listed, -⟩ := set 0 (by decide)
  have meters := meterRes_meters (d := begun meterAtZero) (sl := ruleSlot 1 zeroMeter) (g := 1) (k := 0) (by decide) (by decide) (by decide)
    (by decide) (by decide) ok (by decide)
  have fwd : (ruleWriteMeter 0 (begun meterAtZero)).fwd = (meterRes (begun meterAtZero) (ruleSlot 1 zeroMeter)).dev.fwd := by
    rw [ruleWriteMeter, runCmd_eq (by decide) (d := begun meterAtZero) served accepted rfl (by decide) rfl]
    exact complete_same (x := .fwd) (by decide) (by decide) (by decide) (by decide) (by decide)
  rw [settle_fwd, fwd, meters, show (ruleSlot 1 zeroMeter).payload = zeroMeter from rfl, dflt, tfind_tput_dflt] at listed
  cases listed

end Sys2Proof.Machine
end

section
/-! The shared ground of the forwarding tables' statements: what a command that completes leaves, and tables of which each of the four
complexes holds a copy (R18). -/

namespace Sys2Proof.Machine

open Sys2Proof

variable {d t : Dev} {s : State} {ps : List Piece} {rs : Nat → Prop} {ch : Nat} {sl : Slot} {r : Res}

/-! ## What a completed command leaves -/

/-- From d on a command has completed with a result whose body moved parts of `ps` and registers of `rs`. -/
structure Completed (ps : List Piece) (rs : Nat → Prop) (ch : Nat) (sl : Slot) (r : Res) (d t : Dev) : Prop where
  answered : Answered d t ch sl r.status r.detail r.payload
  fwd : t.fwd = r.dev.fwd
  vintage : t.host.vintage = if r.vint then nextVintage d.host.vintage else d.host.vintage
  regs : ∀ l : List Nat, (∀ a, rs a → a ∈ l) → OnlyRegsBeside ch l d t
  parts : r.vint = false → OnlyParts (.chan :: .cc :: ps) d t

theorem completed_of_moves (hc : ch < 16) (hs : Served s.dev ch sl) (h : Moves ps rs (begun s) r.dev) (boot : .boot ∉ ps)
    (chan : .chan ∉ ps) (regs : ∀ o, o < 0x100 → ¬rs (Reg.chan ch + o)) (reason : r.reason = 0) :
    Completed ps rs ch sl r s.dev (settle (complete ch sl r)) := by
  obtain ⟨master, d3, vintage⟩ := h.access
  have served : Served r.dev ch sl := Served.of_same hs (h.boot boot) (h.parts .chan chan) master d3 (h.regs _ (regs _ (by decide)))
  refine ⟨complete_answered s.dev hc served (h.regs _ (regs _ (by decide))) reason, ?_, ?_, fun l hl => ?_, fun hv => ?_⟩
  · rw [settle_fwd]
    exact complete_same hc served (x := .fwd) (by decide) (by decide) (by decide)
  · rw [settle_host_vintage, complete_vintage hc served, vintage, begun_host_vintage]
  · exact complete_onlyRegs hc served fun a ha _ => h.regs a fun m => ha (hl a m)
  · refine complete_onlyParts hc served (by simp) (by simp) (.inl hv) fun x hx => Same.trans (begun_same s x) (h.parts x fun m => hx ?_)
    simp [m]

/-- How an accepted command ends whose body gives result r and moves no register of the mailboxes. -/
theorem ends_completed {c : Instr} {op fl flags : Nat} {lenOk : Slot → Bool} {body : Dev → Slot → Res} {p : Dev → Prop}
    (hx : exec c s = s.runIf c.wf fun d => runCmd d ch op flags anySlot lenOk body) (hw : c.wf = true) (hc : ch < 16)
    (hs : Served s.dev ch sl) (ha : Accepted s.dev ch sl op fl) (len : lenOk sl = true) (hf : fl &&& flags = fl)
    (run : body (begun s) sl = r) (h : Moves ps rs (begun s) r.dev) (boot : .boot ∉ ps) (chan : .chan ∉ ps)
    (regs : ∀ o, o < 0x100 → ¬rs (Reg.chan ch + o)) (reason : r.reason = 0)
    (hp : ∀ t, Completed ps rs ch sl r s.dev t → p t) : Ends c s p :=
  ends_cmd hx hw hc hs ha rfl len hf (run ▸ hp _ (completed_of_moves hc hs h boot chan regs reason))

/-- A command that only reads: no part and no register beside the mailbox moves. -/
theorem Completed.reads (h : Completed [] (fun _ => False) ch sl r d t) (vint : r.vint = false) :
    OnlyParts [.chan, .cc] d t ∧ OnlyRegsBeside ch [] d t := ⟨h.parts vint, h.regs [] fun _ => False.elim⟩

/-! ## The copies of the four complexes -/

section
variable {α β : Type} {f : Dev → Nat → Dev}

/-- Complexes written one after another, each its own copy alone. -/
theorem foldl_copies {get : Dev → Nat → α} {g : Nat → α → α} (own : ∀ d k, get (f d k) k = g k (get d k))
    (other : ∀ d k j, j ≠ k → get (f d k) j = get d j) {l : List Nat} (once : l.Nodup) (d : Dev) (k : Nat) :
    get (l.foldl f d) k = if k ∈ l then g k (get d k) else get d k := by
  induction l generalizing d with
  | nil => simp
  | cons x l ih =>
    obtain ⟨fresh, once⟩ := List.nodup_cons.1 once
    rw [List.foldl_cons, ih once]
    by_cases h : k = x
    · subst h
      simp [fresh, own]
    · simp [h, other _ _ _ h]

/-- The four complexes, complex 0 first. -/
theorem four_copies {get : Dev → Nat → α} {g : Nat → α → α} (own : ∀ d k, get (f d k) k = g k (get d k))
    (other : ∀ d k j, j ≠ k → get (f d k) j = get d j) (d : Dev) {k : Nat} (hk : k < 4) :
    get ((List.range 4).foldl f d) k = g k (get d k) := by
  rw [foldl_copies own other List.nodup_range, if_pos (List.mem_range.2 hk)]

/-- What no step of a list of writes touches stays. -/
theorem foldl_keeps {get : Dev → β} (keeps : ∀ d k, get (f d k) = get d) (l : List Nat) (d : Dev) : get (l.foldl f d) = get d := by
  induction l generalizing d with
  | nil => rfl
  | cons x l ih => rw [List.foldl_cons, ih, keeps]

end

/-! ## The MAC/host table and the learn queues -/

/-- The table and the queues are parts of the forwarding state. -/
theorem macTab_congr (h : t.fwd = d.fwd) (k : Nat) : macTab t k = macTab d k := by rw [macTab, h, macTab]

theorem learnQueue_congr (h : t.fwd = d.fwd) (k : Nat) : learnQueue t k = learnQueue d k := by rw [learnQueue, h, learnQueue]

theorem macTab_setMac_self (d : Dev) (k : Nat) (f : Tab MacEnt → Tab MacEnt) : macTab (setMac d k f) k = f (macTab d k) := tget_tmod_self ..

theorem macTab_setMac_ne (d : Dev) {k j : Nat} (f : Tab MacEnt → Tab MacEnt) (h : j ≠ k) : macTab (setMac d k f) j = macTab d j :=
  tget_tmod_ne _ _ f h

/-- Each complex's table after all four are written. -/
theorem macTab_setMacs (f : Nat → Tab MacEnt → Tab MacEnt) (d : Dev) {k : Nat} (hk : k < 4) :
    macTab ((List.range 4).foldl (fun d k => setMac d k (f k)) d) k = f k (macTab d k) :=
  four_copies (get := macTab) (fun d k => macTab_setMac_self d k (f k)) (fun d k _ h => macTab_setMac_ne d (f k) h) d hk

theorem learnQueue_setMacs (f : Nat → Tab MacEnt → Tab MacEnt) (d : Dev) (k : Nat) :
    learnQueue ((List.range 4).foldl (fun d k => setMac d k (f k)) d) k = learnQueue d k :=
  foldl_keeps (f := fun d k => setMac d k (f k)) (get := (learnQueue · k)) (fun _ _ => rfl) _ d

theorem moves_setMacs (f : Nat → Tab MacEnt → Tab MacEnt) (d : Dev) (hp : .fwd ∈ ps) :
    Moves ps rs d ((List.range 4).foldl (fun d k => setMac d k (f k)) d) := .foldl _ (fun d _ _ => moves_onFwd d _ hp) d

theorem moves_delCfg (d : Dev) (ty i : Nat) (v : List Byte) (hp : .host ∈ ps) : Moves ps rs d (delCfg d ty i v) :=
  moves_onHost d rfl ⟨rfl, rfl, rfl⟩ hp

theorem moves_dropStatic (d : Dev) (fid mac : Nat) (hp : .host ∈ ps) : Moves ps rs d (dropStatic d fid mac) := moves_delCfg d _ _ _ hp

theorem fwd_putCfg (d : Dev) (ty i : Nat) (v : List Byte) : (putCfg d ty i v).fwd = d.fwd := rfl
theorem fwd_delCfg (d : Dev) (ty i : Nat) (v : List Byte) : (delCfg d ty i v).fwd = d.fwd := rfl
theorem fwd_dropStatic (d : Dev) (fid mac : Nat) : (dropStatic d fid mac).fwd = d.fwd := rfl

/-- The acknowledge registers of the four learn queues. -/
def learnAcks : List Nat := (List.range 4).map fun k => Reg.cplx k + Reg.learnqAck

theorem learnAcks_not_chan (hc : ch < 16) (o : Nat) (ho : o < 0x100) : Reg.chan ch + o ∉ learnAcks := by
  intro h
  obtain ⟨k, -, e⟩ := List.mem_map.1 h
  simp only [Reg.cplx, Reg.learnqAck, Reg.chan] at e
  omega

theorem moves_dropNotes (d : Dev) (p : MacEnt → Bool) : Moves [.fwd] (· ∈ learnAcks) d (dropNotes d p) :=
  .foldl _ (fun d _ hk => (moves_onFwd d _ (by simp)).trans (moves_cntAdd _ _ (List.mem_map_of_mem hk))) d

/-- A discard of notifications keeps the others, in their order (R203). -/
theorem learnQueue_dropNotes (d : Dev) (p : MacEnt → Bool) {k : Nat} (hk : k < 4) :
    learnQueue (dropNotes d p) k = (learnQueue d k).filter fun e => !p e := by
  refine four_copies (get := learnQueue) (g := fun _ q => q.filter fun e => !p e) (fun d k => ?_) (fun d k j h => ?_) d hk
  · simp only [learnQueue, cntAdd_fwd, Dev.onFwd_fwd, tget_tput_self]
  · simp only [learnQueue, cntAdd_fwd, Dev.onFwd_fwd, tget_tput_ne _ _ _ h]

theorem macTab_dropNotes (d : Dev) (p : MacEnt → Bool) (k : Nat) : macTab (dropNotes d p) k = macTab d k :=
  foldl_keeps (get := (macTab · k)) (fun d _ => by simp only [macTab, cntAdd_fwd, Dev.onFwd_fwd]) _ d

/-! ## Commands of elements -/

/-- A payload of one element is that element. -/
theorem elements_one {size : Nat} {l : List Byte} (pos : 0 < size) (len : l.length = size) : elements size l = [l] := by
  simp [elements, len, Nat.div_self pos, List.take_of_length_le (Nat.le_of_eq len)]

/-- A command of one good element that is applied (R690, R691). -/
theorem elemCmd_one {size : Nat} {ok : List Byte → Bool} {f : Dev → List Byte → Nat × Bool × Dev} {rsp : Nat → Dev → List Byte} {e : Dev}
    {v : Bool} (pos : 0 < size) (len : sl.payload.length = size) (good : ok sl.payload = true) (applied : f d sl.payload = (0, v, e)) :
    elemCmd size ok f rsp d sl = { dev := e, payload := rsp 1 e, vint := v } := by
  simp [elemCmd, elements_one pos len, findIdx, good, applyElems, applied, elemRes]

theorem lenTimes_one {size most : Nat} (len : sl.len = size) (pos : 0 < size) (room : 1 ≤ most) : lenTimes size most sl = true := by
  simp [lenTimes, len, Nat.div_self pos, room]

end Sys2Proof.Machine
end

section
/-! `FDB_INSERT` and `FDB_DELETE` of one element (R185, R203, R825, Table 12-10). -/

namespace Sys2Proof.Machine

open Sys2Proof

variable {d t : Dev} {s : State} {ch : Nat} {sl : Slot}

/-! ## Insertion -/

/-- Some copy holds a static entry of the address. -/
def anyStatic (d : Dev) (fid mac : Nat) : Bool :=
  ((List.range 4).map fun k => macGet (macTab d k) fid mac).any fun o => (o.map (·.static)).getD false

theorem anyStatic_iff {fid mac : Nat} :
    anyStatic d fid mac = true ↔ ∃ k < 4, ∃ o, macGet (macTab d k) fid mac = some o ∧ o.static = true := by
  simp [anyStatic, Option.getD_eq_iff]

/-- The slots of an address in the four complexes. -/
def macSlots (d : Dev) (fid mac : Nat) : List (Option Nat) := (List.range 4).map fun k => macSlot d k fid mac

theorem macSlots_getD {k : Nat} (hk : k < 4) (fid mac : Nat) : (macSlots d fid mac).getD k none = macSlot d k fid mac := by
  simp [macSlots, hk]

/-- The device with an entry in the four copies, and with its record if it is static. -/
def entered (d : Dev) (e : MacEnt) (l : List Byte) : Dev :=
  let w := dropStatic ((List.range 4).foldl (fun w k => setMac w k fun t => match (macSlots d e.fid e.mac).getD k none with
    | some i => tins t i e
    | none => t) d) e.fid e.mac
  if e.static then putCfg w 34 0 l else w

theorem moves_entered (d : Dev) (e : MacEnt) (l : List Byte) : Moves [.fwd, .host] (fun _ => False) d (entered d e l) :=
  ((moves_setMacs _ d (by simp)).trans (moves_dropStatic _ _ _ (by simp))).trans (.ite (moves_putCfg _ _ _ _ (by simp)) (.refl _))

theorem macTab_entered (e : MacEnt) (l : List Byte) {k i : Nat} (hk : k < 4) (slot : macSlot d k e.fid e.mac = some i) :
    macTab (entered d e l) k = tins (macTab d k) i e := by
  have records : (entered d e l).fwd = _ := (Moves.trans (moves_dropStatic (ps := [.host]) (rs := fun _ => False) _ e.fid e.mac (by simp))
    (.ite (moves_putCfg _ _ _ _ (by simp)) (.refl _))).parts .fwd (by simp)
  rw [macTab_congr records, macTab_setMacs _ d hk]
  simp only [macSlots_getD hk, slot]

/-- An element is refused where a static entry would be replaced unasked or a copy has no room, and else entered. -/
theorem insertElem_eq {l : List Byte} {e : MacEnt} (he : e = { parseMacElem l with ts := tsuNs d }) (replace : Bool) :
    insertElem d replace l = if anyStatic d e.fid e.mac && !replace then (eExist, false, d)
      else if (macSlots d e.fid e.mac).any (·.isNone) then (eFull, false, d)
      else (0, anyStatic d e.fid e.mac || e.static, entered d e l) := by
  subst he
  rfl

theorem insertElem_applied {replace : Bool} {l : List Byte} {e : MacEnt} (he : e = { parseMacElem l with ts := tsuNs d })
    (room : ∀ k < 4, (macSlot d k e.fid e.mac).isSome = true) (free : replace = true ∨ anyStatic d e.fid e.mac = false) :
    insertElem d replace l = (0, anyStatic d e.fid e.mac || e.static, entered d e l) := by
  have allowed : (anyStatic d e.fid e.mac && !replace) = false := by
    obtain h | h := free <;> simp [h]
  have slots : (macSlots d e.fid e.mac).any (·.isNone) = false := by
    simpa [macSlots, Option.isSome_iff_ne_none] using room
  simp [insertElem_eq he, allowed, slots]

theorem fdbInsert_enters {fl : Nat} {e : MacEnt} (hc : ch < 16) (hs : Served s.dev ch sl) (ha : Accepted s.dev ch sl 0x201 fl)
    (hfl : fl < 2) (hlen : sl.len = 16) (len : sl.payload.length = 16) (good : macElemOk sl.payload = true)
    (he : e = { parseMacElem sl.payload with ts := rd s.dev Reg.tsuNs })
    (room : ∀ k < 4, (macSlot s.dev k e.fid e.mac).isSome = true)
    (free : fl = 1 ∨ ∀ k < 4, ∀ o, macGet (macTab s.dev k) e.fid e.mac = some o → o.static = false) :
    Ends (.fdbInsert ch) s fun t =>
      AnsweredOk s.dev t ch sl (toLe 4 1) ∧
        (∀ k < 4, ∀ i, macSlot s.dev k e.fid e.mac = some i →
          tfind (macTab t k) i = some e ∧ ∀ j, j ≠ i → tfind (macTab t k) j = tfind (macTab s.dev k) j) ∧
        (e.static = true ∨ (∃ k < 4, ∃ o, macGet (macTab s.dev k) e.fid e.mac = some o ∧ o.static = true) →
          t.host.vintage = nextVintage s.dev.host.vintage) ∧
        (e.static = false → (∀ k < 4, ∀ o, macGet (macTab s.dev k) e.fid e.mac = some o → o.static = false) →
          t.host.vintage = s.dev.host.vintage) ∧
        OnlyRegsBeside ch [] s.dev t := by
  have none_static (h : ∀ k < 4, ∀ o, macGet (macTab s.dev k) e.fid e.mac = some o → o.static = false) :
      anyStatic s.dev e.fid e.mac = false := by
    rw [← Bool.not_eq_true, anyStatic_iff]
    rintro ⟨k, hk, o, get, static⟩
    exact absurd static (by simp [h k hk o get])
  have flags : sl.flags = fl := ha.2.2.1
  have applied := insertElem_applied (d := begun s) (replace := slotFlag 0 sl) he room <| free.imp
    (fun h => by simp [slotFlag, flags, h, bit]) none_static
  refine ends_completed (op := 0x201) (flags := 1) rfl (decide_eq_true hc) hc hs ha (lenTimes_one hlen (by decide) (by decide))
    (by interval_cases fl <;> rfl) (elemCmd_one (by decide) len good applied) (moves_entered ..) (by simp) (by simp)
    (fun _ _ => id) rfl fun t done => ?_
  refine ⟨done.answered, fun k hk i slot => ?_, fun h => ?_, fun h none => ?_, done.regs [] fun _ => False.elim⟩
  · have tab : macTab t k = tins (macTab s.dev k) i e := (macTab_congr done.fwd k).trans (macTab_entered e _ hk slot)
    exact ⟨tab ▸ tfind_tins_self .., fun j hj => tab ▸ tfind_tins_ne _ _ hj⟩
  · have vint : (anyStatic (begun s) e.fid e.mac || e.static) = true := by
      rw [Bool.or_eq_true, Or.comm]
      exact h.imp_right anyStatic_iff.2
    exact done.vintage.trans (if_pos vint)
  · have vint : ¬(anyStatic (begun s) e.fid e.mac || e.static) = true := by
      rw [h, show anyStatic (begun s) e.fid e.mac = false from none_static none]
      exact Bool.false_ne_true
    exact done.vintage.trans (if_neg vint)

/-! ## Deletion -/

/-- The device without an address: its entries, its queued notifications and its record are gone. -/
def forgotten (d : Dev) (fid mac : Nat) : Dev :=
  dropStatic (dropNotes ((List.range 4).foldl (fun d k => setMac d k fun t => match macFind t fid mac with
    | some i => tdel t i
    | none => t) d) fun e => decide (e.fid = fid ∧ e.mac = mac)) fid mac

theorem moves_forgotten (d : Dev) (fid mac : Nat) : Moves [.fwd, .host] (· ∈ learnAcks) d (forgotten d fid mac) :=
  ((moves_setMacs _ d (by simp)).trans ((moves_dropNotes _ _).mono (by simp) fun _ h => h)).trans (moves_dropStatic _ _ _ (by simp))

theorem macTab_forgotten {fid mac k i : Nat} (hk : k < 4) (found : macFind (macTab d k) fid mac = some i) :
    macTab (forgotten d fid mac) k = tdel (macTab d k) i := by
  rw [forgotten, macTab_congr (fwd_dropStatic ..), macTab_dropNotes, macTab_setMacs _ d hk]
  simp only [found]

theorem learnQueue_forgotten {fid mac k : Nat} (hk : k < 4) :
    learnQueue (forgotten d fid mac) k = (learnQueue d k).filter fun e => !decide (e.fid = fid ∧ e.mac = mac) := by
  rw [forgotten, learnQueue_congr (fwd_dropStatic ..), learnQueue_dropNotes _ _ hk, learnQueue_setMacs]

/-- An address that some copy holds is deleted. -/
theorem deleteElem_applied {l : List Byte} (held : ∃ k < 4, (macGet (macTab d k) (le l 0 2) (be l 2 6)).isSome = true) :
    ∃ v, deleteElem d l = (0, v, forgotten d (le l 0 2) (be l 2 6)) := by
  have some_copy : (List.range 4).filterMap (fun k => macGet (macTab d k) (le l 0 2) (be l 2 6)) ≠ [] := by
    obtain ⟨k, hk, get⟩ := held
    rw [Option.isSome_iff_exists] at get
    obtain ⟨o, get⟩ := get
    exact List.ne_nil_of_mem (List.mem_filterMap.2 ⟨k, List.mem_range.2 hk, get⟩)
  exact ⟨_, if_neg some_copy⟩

theorem fdbDelete_forgets {fid mac : Nat} (hc : ch < 16) (hs : Served s.dev ch sl) (ha : Accepted s.dev ch sl 0x202 0)
    (hlen : sl.len = 8) (len : sl.payload.length = 8) (hfid : fid = le sl.payload 0 2) (hmac : mac = be sl.payload 2 6)
    (small : fid < 4096) (held : ∃ k < 4, (macGet (macTab s.dev k) fid mac).isSome = true) :
    Ends (.fdbDelete ch) s fun t =>
      AnsweredOk s.dev t ch sl (toLe 4 1) ∧
        (∀ k < 4, ∀ i, macFind (macTab s.dev k) fid mac = some i → tfind (macTab t k) i = none) ∧
        (∀ k < 4, ∀ e ∈ learnQueue t k, ¬(e.fid = fid ∧ e.mac = mac)) ∧ OnlyRegsBeside ch learnAcks s.dev t := by
  subst hfid hmac
  obtain ⟨v, applied⟩ := deleteElem_applied (d := begun s) held
  refine ends_completed (op := 0x202) (flags := 0) rfl (decide_eq_true hc) hc hs ha (lenTimes_one hlen (by decide) (by decide)) rfl
    (elemCmd_one (by decide) len (decide_eq_true small) applied) (moves_forgotten ..) (by simp) (by simp) (learnAcks_not_chan hc) rfl
    fun t done => ⟨done.answered, fun k hk i found => ?_, fun k hk e he => ?_, done.regs _ fun _ => id⟩
  · rw [macTab_congr done.fwd, macTab_forgotten (d := begun s) hk found, tfind_tdel_self]
  · rw [learnQueue_congr done.fwd, learnQueue_forgotten hk] at he
    simpa only [Bool.not_eq_true', decide_eq_false_iff_not] using (List.mem_filter.1 he).2

/-- Settles O8: one good element is entered in the slots of its address, and a deletion forgets its address in every complex. -/
theorem fdbEntriesAreInsertedAndDeleted : Obligations.FdbEntriesAreInsertedAndDeleted :=
  ⟨fun _ _ _ _ _ hc hs ha hfl hlen len good he room free => fdbInsert_enters hc hs ha hfl hlen len good he room free,
    fun _ _ _ _ _ hc hs ha hlen len hfid hmac small held => fdbDelete_forgets hc hs ha hlen len hfid hmac small held⟩

end Sys2Proof.Machine
end

section
/-! `FDB_SEARCH`, `FDB_NEXT` and `FDB_FLUSH_BY_PORT` of a port's dynamic entries (R203 to R207). -/

namespace Sys2Proof.Machine

open Sys2Proof

variable {d : Dev} {s : State} {ch : Nat} {sl : Slot}

/-! ## Reads -/

/-- The copies of an address that some complex holds (R204). -/
theorem searchRes_held {fid mac : Nat} (held : ∃ k < 4, (macGet (macTab d k) fid mac).isSome = true) : searchRes d fid mac =
    { dev := d
      payload := toLe 4 (bitSet ((List.range 4).filter fun k => (macGet (macTab d k) fid mac).isSome)) ++
        (List.range 4).flatMap fun k => ((macGet (macTab d k) fid mac).map MacEnt.encode).getD (zeros 16) } := by
  have known : ((List.range 4).map fun k => macGet (macTab d k) fid mac).all (·.isNone) = false := by
    simpa [List.all_eq_false, ← Option.isSome_iff_ne_none] using held
  have valid : ((List.range 4).filter fun k => (((List.range 4).map fun k => macGet (macTab d k) fid mac).getD k none).isSome) =
      (List.range 4).filter fun k => (macGet (macTab d k) fid mac).isSome :=
    List.filter_congr fun k hk => by simp [List.mem_range.1 hk]
  have copies (c : Option MacEnt) : (match c with | some e => e.encode | none => zeros 16) = (c.map MacEnt.encode).getD (zeros 16) := by
    cases c <;> rfl
  unfold searchRes
  dsimp only
  rw [if_neg (by simp [known]), valid, List.flatMap_map]
  congr 3
  funext k
  exact copies _

theorem fdbSearch_answers {fid mac : Nat} (hc : ch < 16) (hs : Served s.dev ch sl) (ha : Accepted s.dev ch sl 0x203 0) (len : sl.len = 8)
    (hfid : fid = le sl.payload 0 2) (hmac : mac = be sl.payload 2 6) (small : fid < 4096)
    (held : ∃ k < 4, (macGet (macTab s.dev k) fid mac).isSome = true) :
    Ends (.fdbSearch ch) s fun t =>
      AnsweredOk s.dev t ch sl
        (toLe 4 (bitSet ((List.range 4).filter fun k => (macGet (macTab s.dev k) fid mac).isSome)) ++
          (List.range 4).flatMap fun k => ((macGet (macTab s.dev k) fid mac).map MacEnt.encode).getD (zeros 16)) ∧
        OnlyParts [.chan, .cc] s.dev t ∧ OnlyRegsBeside ch [] s.dev t := by
  subst hfid hmac
  have key : macKeyOk sl.payload = true := decide_eq_true small
  exact ends_completed (op := 0x203) (flags := 0) rfl (decide_eq_true hc) hc hs ha (decide_eq_true len) rfl
    ((if_pos key).trans (searchRes_held (d := begun s) held)) (.refl _) (by simp) (by simp) (fun _ _ => id) rfl
    fun t done => ⟨done.answered, done.reads rfl⟩

/-- Entries from a cursor on, no filter asked for (R205, R206). -/
theorem nextRes_found {p : List Byte} {l : Nat × MacEnt} {es : Tab MacEnt} (hk : le p 0 1 < 4) (cur : le p 4 4 < 524288)
    (all : le p 1 1 = 0) (fid : le p 2 2 < 4096) (least : 1 ≤ le p 8 2) (most : le p 8 2 ≤ 1023) (zero : le p 10 2 = 0)
    (hes : es = ((macTab d (le p 0 1)).filter fun e => decide (le p 4 4 ≤ e.1)).take (le p 8 2)) (last : es.getLast? = some l) :
    nextRes d p = { dev := d, payload := toLe 4 (l.1 + 1) ++ toLe 2 es.length ++ zeros 10 ++ es.flatMap fun e => e.2.encode } := by
  have ok : ¬(4 ≤ le p 0 1 ∨ 524287 < le p 4 4 ∨ 1 < le p 1 1 ∨ 4096 ≤ le p 2 2 ∨ le p 8 2 = 0 ∨ 1023 < le p 8 2 ∨ le p 10 2 ≠ 0) := by
    omega
  have unfiltered : bit (le p 1 1) 0 = false := by rw [all]; rfl
  simp only [nextRes, if_neg ok, unfiltered, Bool.not_false, Bool.true_or, Bool.and_true, ← hes, last]

theorem fdbNext_answers {k cur n : Nat} {l : Nat × MacEnt} {es : Tab MacEnt} (hc : ch < 16) (hs : Served s.dev ch sl)
    (ha : Accepted s.dev ch sl 0x204 0) (len : sl.len = 12) (hk : k = le sl.payload 0 1) (hcur : cur = le sl.payload 4 4)
    (hn : n = le sl.payload 8 2) (all : le sl.payload 1 1 = 0) (fid : le sl.payload 2 2 < 4096) (zero : le sl.payload 10 2 = 0)
    (k4 : k < 4) (inside : cur < 524288) (least : 1 ≤ n) (most : n ≤ 1023)
    (hes : es = ((macTab s.dev k).filter fun e => decide (cur ≤ e.1)).take n) (last : es.getLast? = some l) :
    Ends (.fdbNext ch) s fun t =>
      AnsweredOk s.dev t ch sl (toLe 4 (l.1 + 1) ++ toLe 2 es.length ++ zeros 10 ++ es.flatMap fun e => e.2.encode) ∧
        OnlyParts [.chan, .cc] s.dev t ∧ OnlyRegsBeside ch [] s.dev t := by
  subst hk hcur hn
  exact ends_completed (op := 0x204) (flags := 0) rfl (decide_eq_true hc) hc hs ha (decide_eq_true len) rfl
    (nextRes_found (d := begun s) k4 inside all fid least most zero hes last) (.refl _) (by simp) (by simp) (fun _ _ => id) rfl
    fun t done => ⟨done.answered, done.reads rfl⟩

/-! ## The flush of a port's dynamic entries -/

/-- A dynamic entry for a port, of any VLAN. -/
abbrev portFlushed (p : Nat) : MacEnt → Bool := flushed false p none false

/-- Entries that the flush of a port removes: its own, and every dynamic copy of the addresses that it affects (R203). -/
def flushGone (d : Dev) (p : Nat) (e : MacEnt) : Bool :=
  portFlushed p e || ((affected d (portFlushed p)).contains e.key && decide (e.ty = 0) && !e.static)

/-- The device after the flush of a port. -/
def portCleared (d : Dev) (p : Nat) : Dev :=
  (List.range 4).foldl (fun w k => setMac w k fun t => t.filter fun e => !flushGone d p e.2)
    (dropNotes d fun n => (affected d (portFlushed p)).contains n.key)

/-- A flushed entry is a dynamic MAC entry. -/
theorem portFlushed_dynamic {p : Nat} {e : MacEnt} (h : portFlushed p e = true) : e.ty = 0 ∧ e.static = false := by
  simp only [portFlushed, flushed, Bool.false_or, Bool.and_true, Bool.and_eq_true, decide_eq_true_eq, Bool.not_eq_true'] at h
  exact ⟨h.1.1, h.2⟩

theorem mem_affected {p k : Nat} {e : Nat × MacEnt} (hk : k < 4) (mem : e ∈ macTab d k) (hit : portFlushed p e.2 = true) :
    e.2.key ∈ affected d (portFlushed p) :=
  List.mem_flatMap.2 ⟨k, List.mem_range.2 hk, List.mem_map.2 ⟨e, List.mem_filter.2 ⟨mem, hit⟩, rfl⟩⟩

/-- An entry stays that is not flushed and not a dynamic copy of an affected address. -/
theorem flushGone_eq_false {p : Nat} {e : MacEnt} : flushGone d p e = false ↔
    portFlushed p e = false ∧ (e.ty = 0 → e.static = false → e.key ∉ affected d (portFlushed p)) := by
  simp only [flushGone, Bool.or_eq_false_iff, and_congr_right_iff]
  intro
  cases e.static <;> simp [imp_not_comm]

theorem mem_portCleared {p k : Nat} (hk : k < 4) {e : Nat × MacEnt} :
    e ∈ macTab (portCleared d p) k ↔ e ∈ macTab d k ∧ flushGone d p e.2 = false := by
  rw [portCleared, macTab_setMacs _ _ hk, macTab_dropNotes, List.mem_filter, Bool.not_eq_true']

theorem moves_portCleared (d : Dev) (p : Nat) : Moves [.fwd] (· ∈ learnAcks) d (portCleared d p) :=
  (moves_dropNotes _ _).trans (moves_setMacs _ _ (by simp))

theorem learnQueue_portCleared {p k : Nat} (hk : k < 4) : learnQueue (portCleared d p) k =
    (learnQueue d k).filter fun n => !(affected d (portFlushed p)).contains n.key := by
  rw [portCleared, learnQueue_setMacs, learnQueue_dropNotes _ _ hk]

theorem le_two (l : List Byte) (o : Nat) : le l o 2 = le l o 1 + 256 * le l (o + 1) 1 := by
  have rest : l.drop (o + 1) = (l.drop o).tail := by rw [← List.drop_one, List.drop_drop]
  rw [le, le, le, rest]
  rcases l.drop o with _ | ⟨a, _ | ⟨b, r⟩⟩ <;> simp [leVal]

/-- The result of a flush of a port's dynamic entries over every VLAN: no static entry goes. -/
theorem flushRes_port {l : List Byte} (port : le l 0 2 < 512) (plain : le l 2 2 = 0) (zero : le l 6 2 = 0) : flushRes d l =
    { dev := portCleared d (le l 0 2)
      payload := (List.range 4).flatMap fun k => toLe 4 ((macTab d k).filter fun e => portFlushed (le l 0 2) e.2).length } := by
  have flags : le l 2 1 = 0 ∧ le l 3 1 = 0 := by
    have split : le l 2 2 = le l 2 1 + 256 * le l 3 1 := le_two l 2
    omega
  have one : bit 0 0 = false ∧ bit 0 1 = false ∧ bit 0 2 = false := by decide
  have no_static : ((List.range 4).flatMap fun k =>
      ((macTab d k).filter fun e => portFlushed (le l 0 2) e.2 && e.2.static).map (·.2.key)) = [] := by
    simp only [List.flatMap_eq_nil_iff, List.map_eq_nil_iff, List.filter_eq_nil_iff, Bool.and_eq_true, not_and]
    exact fun k _ e _ hit => by simp [(portFlushed_dynamic hit).2]
  simp only [flushRes, flags, zero, one, Bool.false_eq_true, if_false, false_and, or_false]
  rw [if_neg (by omega)]
  rw [no_static, List.flatMap_map]
  simp only [List.foldl_nil, List.isEmpty_nil, Bool.not_true, portCleared, flushGone]

theorem fdbFlushByPort_clears {p : Nat} (hc : ch < 16) (hs : Served s.dev ch sl) (ha : Accepted s.dev ch sl 0x205 0) (len : sl.len = 8)
    (hp : p = le sl.payload 0 2) (port : p < 512) (plain : le sl.payload 2 2 = 0) (zero : le sl.payload 6 2 = 0) :
    Ends (.fdbFlushByPort ch) s fun t =>
      AnsweredOk s.dev t ch sl
          ((List.range 4).flatMap fun k => toLe 4 ((macTab s.dev k).filter fun e => flushed false p none false e.2).length) ∧
        (∀ k < 4,
          (∀ e ∈ macTab t k, e ∈ macTab s.dev k ∧ flushed false p none false e.2 = false) ∧
          (∀ e ∈ macTab t k, e.2.ty = 0 → e.2.static = false → e.2.key ∉ affected s.dev (flushed false p none false)) ∧
          (∀ e ∈ macTab s.dev k, (e.2.ty ≠ 0 ∨ e.2.static = true ∨ e.2.key ∉ affected s.dev (flushed false p none false)) →
            e ∈ macTab t k) ∧
          learnQueue t k =
            (learnQueue s.dev k).filter fun n => !(affected s.dev (flushed false p none false)).contains n.key) ∧
        t.host.vintage = s.dev.host.vintage ∧ OnlyRegsBeside ch learnAcks s.dev t := by
  subst hp
  refine ends_completed (op := 0x205) (flags := 0) rfl (decide_eq_true hc) hc hs ha (decide_eq_true len) rfl
    (flushRes_port (d := begun s) port plain zero) (moves_portCleared ..) (by simp) (by simp) (learnAcks_not_chan hc) rfl
    fun t done => ⟨done.answered, fun k hk => ?_, done.vintage, done.regs _ fun _ => id⟩
  have tab (e : Nat × MacEnt) : e ∈ macTab t k ↔ e ∈ macTab s.dev k ∧ flushGone s.dev (le sl.payload 0 2) e.2 = false := by
    rw [macTab_congr done.fwd]
    exact mem_portCleared (d := begun s) hk
  refine ⟨fun e he => ?_, fun e he => ?_, fun e he keeps => ?_, (learnQueue_congr done.fwd k).trans (learnQueue_portCleared hk)⟩
  · obtain ⟨mem, stays⟩ := (tab e).1 he
    exact ⟨mem, (flushGone_eq_false.1 stays).1⟩
  · exact (flushGone_eq_false.1 ((tab e).1 he).2).2
  · refine (tab e).2 ⟨he, flushGone_eq_false.2 ⟨?_, fun ty dynamic => ?_⟩⟩
    · rw [← Bool.not_eq_true]
      intro hit
      obtain ⟨ty, dynamic⟩ := portFlushed_dynamic hit
      obtain h | h | h := keeps
      · exact h ty
      · exact absurd h (by simp [dynamic])
      · exact h (mem_affected hk he hit)
    · exact (keeps.resolve_left (not_not.2 ty)).resolve_left (by simp [dynamic])

/-- Settles O9: a search and a walk answer from the copies, and a flush of a port clears its dynamic entries with the other dynamic copies
of their addresses. -/
theorem fdbReadsAndFlushesAnswer : Obligations.FdbReadsAndFlushesAnswer :=
  ⟨fun _ _ _ hc hs => ⟨fun _ _ ha len hfid hmac small held => fdbSearch_answers hc hs ha len hfid hmac small held,
      fun _ _ _ _ _ ha len hk hcur hn all fid zero k4 inside least most hes last =>
        fdbNext_answers hc hs ha len hk hcur hn all fid zero k4 inside least most hes last⟩,
    fun _ _ _ _ hc hs ha len hp port plain _ zero => fdbFlushByPort_clears hc hs ha len hp port plain zero⟩

end Sys2Proof.Machine
end

section
/-! Learn synchronisation after `CM_FATAL` (R199, R592, R819): a device whose cellarmaster stays FAULTED acknowledges no notification. -/

namespace Sys2Proof.Machine

open Sys2Proof

/-- A device that does not acknowledge serves no learn queue. -/
theorem learnSync_halted {d : Dev} (k : Nat) (fatal : d.cc.cmFatal = true) : learnSync k d = d := by
  simp [learnSync, acking, fatal]

/-- Firmware has started and the cellarmaster has faulted for good; complex 0 has a learn queued. -/
def fatalLearn : State :=
  { dev := { boot := { fwRunning := true }, cc := { cmFatal := true }, fwd := { learnQ := [(0, [{}])] } } }

/-- Refutes O10: after `CM_FATAL` firmware acknowledges nothing (R819), so that the notification stays in its queue; the statement asks
only that firmware has started. -/
theorem not_learningSpreadsAndAges : ¬Obligations.LearningSpreadsAndAges := by
  rintro ⟨sync, -⟩
  obtain ⟨taken, -⟩ := Ends.effect (f := learnSync 0) rfl (sync fatalLearn 0 {} [] (by decide) rfl (by decide) (by decide))
  have waits : learnQueue (settle (learnSync 0 (begun fatalLearn))) 0 = [{}] := by
    rw [learnSync_halted 0 rfl, learnQueue_congr (settle_fwd _)]
    decide
  exact absurd (waits.symm.trans taken) (by decide)

end Sys2Proof.Machine
end

section
/-! Prefixes: `LPM_ADD` and `LPM_DELETE` of one, and `LPM_SEARCH` (R18, R212, R213, R217). -/

namespace Sys2Proof.Machine

open Sys2Proof

variable {d t : Dev} {s : State} {ps : List Piece} {rs : Nat → Prop} {ch : Nat} {sl : Slot}

/-! ## The prefixes of the four complexes -/

theorem lpmOf_congr (h : t.fwd = d.fwd) (k : Nat) : lpmOf t k = lpmOf d k := by rw [lpmOf, h, lpmOf]

theorem lpmUnits_congr (h : t.fwd = d.fwd) (k : Nat) : lpmUnits t k = lpmUnits d k := by rw [lpmUnits, lpmOf_congr h, lpmUnits]

/-- The pages of a length follow its prefixes. -/
@[simp] theorem fitPages_prefixes (x : Lpm) (fam len : Nat) : (fitPages x fam len).prefixes = x.prefixes := by
  unfold fitPages
  dsimp only
  split_ifs <;> rfl

theorem lpmOf_setLpm (d : Dev) (fam len : Nat) (f : List Prefix → List Prefix) {k : Nat} (hk : k < 4) :
    lpmOf (setLpm d fam len f) k = f (lpmOf d k) := by
  refine four_copies (get := lpmOf) (g := fun _ => f) (fun d k => ?_) (fun d k j h => ?_) d hk
  · simp only [lpmOf, Dev.onFwd_fwd, tget_tmod_self, fitPages_prefixes]
  · simp only [lpmOf, Dev.onFwd_fwd, tget_tmod_ne _ _ _ h]

theorem moves_setLpm (d : Dev) (fam len : Nat) (f : List Prefix → List Prefix) (hp : .fwd ∈ ps) : Moves ps rs d (setLpm d fam len f) :=
  .foldl _ (fun d _ _ => moves_onFwd d _ hp) d

/-! ## Addition -/

/-- The first unit of a length goes into the store while a page is free. -/
abbrev FirstInStore (d : Dev) (p : Prefix) (pl : Place) : Prop :=
  lengthUnits (lpmOf d 0) p.fam p.len = 0 → 0 < freePages (tget {} d.fwd.lpm 0) → pl = .hash

/-- A prefix that is neither a default route nor a host, with room for it, goes into the hash store or into the spill CAM. -/
theorem placeOf_short {p : Prefix} (pos : 0 < p.len) (short : p.len < addrBits p.fam)
    (units : lpmUnits d 0 + prefixUnits p.fam p.len ≤ 1048576) (cam : camUsed d 0 + camEntries p.fam p.len ≤ 16384) :
    ∃ pl e, placeOf d p = (some pl, e) ∧ (pl = .hash ∨ pl = .cam) ∧ (e = d ∨ e = (fresh d).2) ∧ FirstInStore d p pl := by
  have branches : placeOf d p =
      if lengthUnits (lpmOf d 0) p.fam p.len = 0 then (if 0 < freePages (tget {} d.fwd.lpm 0) then some .hash else some .cam, d)
      else if 4096 * tget 0 (tget {} d.fwd.lpm 0).pages (lengthKey p.fam p.len) < lengthUnits (lpmOf d 0) p.fam p.len + prefixUnits p.fam p.len
      then (some .cam, d) else (if (fresh d).1 % 2 = 0 then some .hash else some .cam, (fresh d).2) := by
    simp only [placeOf, if_neg pos.ne', if_neg short.ne, if_neg (Nat.not_lt.2 units), if_pos cam]
    rfl
  rw [branches]
  split_ifs with first free full even
  · exact ⟨.hash, d, rfl, .inl rfl, .inl rfl, fun _ _ => rfl⟩
  · exact ⟨.cam, d, rfl, .inr rfl, .inl rfl, fun _ h => absurd h free⟩
  · exact ⟨.cam, d, rfl, .inr rfl, .inl rfl, fun h => absurd h first⟩
  · exact ⟨.hash, _, rfl, .inl rfl, .inr rfl, fun _ _ => rfl⟩
  · exact ⟨.cam, _, rfl, .inr rfl, .inr rfl, fun h => absurd h first⟩

/-- The device with a prefix at the end of each complex's list, and with its record. -/
def listed (d : Dev) (p : Prefix) (l : List Byte) : Dev := putCfg (setLpm d p.fam p.len (· ++ [p])) 35 0 l

theorem moves_listed (d : Dev) (p : Prefix) (l : List Byte) : Moves [.fwd, .host] rs d (listed d p l) :=
  (moves_setLpm d _ _ _ (by simp)).trans (moves_putCfg _ _ _ _ (by simp))

theorem lpmOf_listed (d : Dev) (p : Prefix) (l : List Byte) {k : Nat} (hk : k < 4) : lpmOf (listed d p l) k = lpmOf d k ++ [p] :=
  (lpmOf_congr (fwd_putCfg ..) k).trans (lpmOf_setLpm d _ _ _ hk)

/-- A new prefix with room for it is listed, in the store or in the CAM. -/
theorem addPrefix_lists {p : Prefix} {l : List Byte} (replace : Bool) (hp : p = parsePrefix l) (pos : 0 < p.len)
    (short : p.len < addrBits p.fam) (new : ∀ q ∈ lpmOf d 0, q.same p.fam p.len p.addr = false)
    (units : lpmUnits d 0 + prefixUnits p.fam p.len ≤ 1048576) (cam : camUsed d 0 + camEntries p.fam p.len ≤ 16384) :
    ∃ pl e, addPrefix replace d l = (0, true, listed e { p with place := pl } l) ∧ (pl = .hash ∨ pl = .cam) ∧
      (e = d ∨ e = (fresh d).2) ∧ FirstInStore d p pl := by
  obtain ⟨pl, e, placed, short, he, first⟩ := placeOf_short pos short units cam
  have unknown : (lpmOf d 0).find? (fun q => q.same p.fam p.len p.addr) = none := by
    simpa [List.find?_eq_none] using new
  have plain : pl ≠ .host := by obtain rfl | rfl := short <;> decide
  refine ⟨pl, e, ?_, short, he, first⟩
  subst hp
  simp only [addPrefix, unknown, placed, if_neg plain]
  rfl

theorem lpmAdd_lists {p : Prefix} {fl : Nat} (hc : ch < 16) (hs : Served s.dev ch sl) (hlen : sl.len = 24) (len : sl.payload.length = 24)
    (hp : p = parsePrefix sl.payload) (hfl : fl < 2) (ha : Accepted s.dev ch sl 0x210 fl) (good : prefixOk false sl.payload = true)
    (pos : 0 < p.len) (short : p.len < addrBits p.fam) (new : ∀ q ∈ lpmOf s.dev 0, q.same p.fam p.len p.addr = false)
    (units : lpmUnits s.dev 0 + prefixUnits p.fam p.len ≤ 1048576) (cam : camUsed s.dev 0 + camEntries p.fam p.len ≤ 16384) :
    Ends (.lpmAdd ch) s fun t =>
      AnsweredOk s.dev t ch sl (toLe 4 (lpmUnits t 0)) ∧
        (∃ pl : Place, (pl = .hash ∨ pl = .cam) ∧ (∀ k < 4, lpmOf t k = lpmOf s.dev k ++ [{ p with place := pl }]) ∧
          (lengthUnits (lpmOf s.dev 0) p.fam p.len = 0 → 0 < freePages (tget {} s.dev.fwd.lpm 0) → pl = .hash)) ∧
        t.host.vintage = nextVintage s.dev.host.vintage ∧ OnlyRegsBeside ch [] s.dev t := by
  obtain ⟨pl, e, added, place, he, first⟩ := addPrefix_lists (d := begun s) (slotFlag 0 sl) hp pos short new units cam
  have start : Moves [.fwd, .host] (fun _ => False) (begun s) e := by
    obtain rfl | rfl := he
    · exact .refl _
    · exact moves_fresh _
  have fwd : e.fwd = s.dev.fwd := by obtain rfl | rfl := he <;> rfl
  refine ends_completed (op := 0x210) (flags := 1) rfl (decide_eq_true hc) hc hs ha (lenTimes_one hlen (by decide) (by decide))
    (by interval_cases fl <;> rfl) (elemCmd_one (by decide) len good added) (start.trans (moves_listed ..)) (by simp) (by simp)
    (fun _ _ => id) rfl fun t done => ⟨?_, ⟨pl, place, fun k hk => ?_, first⟩, done.vintage, done.regs [] fun _ => False.elim⟩
  · rw [lpmUnits_congr done.fwd]
    exact done.answered
  · rw [lpmOf_congr done.fwd, lpmOf_listed _ _ _ hk, lpmOf_congr fwd]

/-! ## Deletion -/

/-- The device without a prefix, of a family and length, in each complex's list. -/
def unlisted (d : Dev) (fam len : Nat) (q : Prefix) (l : List Byte) : Dev := delCfg (setLpm d fam len (List.filter (· ≠ q))) 35 0 l

theorem moves_unlisted (d : Dev) (fam len : Nat) (q : Prefix) (l : List Byte) : Moves [.fwd, .host] rs d (unlisted d fam len q l) :=
  (moves_setLpm d _ _ _ (by simp)).trans (moves_delCfg _ _ _ _ (by simp))

theorem lpmOf_unlisted (d : Dev) (fam len : Nat) (q : Prefix) (l : List Byte) {k : Nat} (hk : k < 4) :
    lpmOf (unlisted d fam len q l) k = (lpmOf d k).filter (· ≠ q) :=
  (lpmOf_congr (fwd_delCfg ..) k).trans (lpmOf_setLpm d _ _ _ hk)

/-- A listed prefix that no host entry holds is taken out. -/
theorem delPrefix_unlists {p q : Prefix} {l : List Byte} (hp : p = parsePrefix l)
    (found : (lpmOf d 0).find? (fun x => x.same p.fam p.len p.addr) = some q) (plain : q.place ≠ .host) :
    delPrefix d l = (0, true, unlisted d p.fam p.len q l) := by
  subst hp
  simp only [delPrefix, found, if_neg plain]
  rfl

theorem lpmDelete_unlists {p q : Prefix} (hc : ch < 16) (hs : Served s.dev ch sl) (hlen : sl.len = 24) (len : sl.payload.length = 24)
    (hp : p = parsePrefix sl.payload) (ha : Accepted s.dev ch sl 0x211 0) (good : prefixOk true sl.payload = true)
    (found : (lpmOf s.dev 0).find? (fun x => x.same p.fam p.len p.addr) = some q) (plain : q.place ≠ .host) :
    Ends (.lpmDelete ch) s fun t =>
      AnsweredOk s.dev t ch sl (toLe 4 (lpmUnits t 0)) ∧ (∀ k < 4, lpmOf t k = (lpmOf s.dev k).filter (· ≠ q)) ∧
        t.host.vintage = nextVintage s.dev.host.vintage ∧ OnlyRegsBeside ch [] s.dev t := by
  refine ends_completed (op := 0x211) (flags := 0) rfl (decide_eq_true hc) hc hs ha (lenTimes_one hlen (by decide) (by decide)) rfl
    (elemCmd_one (by decide) len good (delPrefix_unlists (d := begun s) hp found plain)) (moves_unlisted ..) (by simp) (by simp)
    (fun _ _ => id) rfl fun t done => ⟨?_, fun k hk => ?_, done.vintage, done.regs [] fun _ => False.elim⟩
  · rw [lpmUnits_congr done.fwd]
    exact done.answered
  · exact (lpmOf_congr done.fwd k).trans (lpmOf_unlisted _ _ _ _ _ hk)

/-! ## Search -/

/-- The address that a search names: of IPv4 with zeros behind it, or of IPv6. -/
abbrev SearchFor (l : List Byte) (fam a : Nat) : Prop := (fam = 4 ∧ l.drop 8 = zeros 12 ∧ a = be l 4 4) ∨ (fam = 6 ∧ a = be l 4 16)

/-- Such a search is well formed, and the address is the one looked for. -/
theorem SearchFor.wellFormed {l : List Byte} {a : Nat} (h : SearchFor l (le l 0 1) a) (hk : le l 1 1 < 4) (zero : le l 2 2 = 0) :
    ¬(¬(le l 0 1 = 4 ∨ le l 0 1 = 6) ∨ 4 ≤ le l 1 1 ∨ le l 2 2 ≠ 0 ∨ (le l 0 1 = 4 ∧ l.drop 8 ≠ zeros 12)) ∧
      (if le l 0 1 = 4 then be l 4 4 else be l 4 16) = a := by
  obtain ⟨fam, rest, rfl⟩ | ⟨fam, rfl⟩ := h
  · simp [fam, rest, zero, hk]
  · simp [fam, zero, hk]

theorem lpmSearchRes_found {l : List Byte} {a len via route : Nat} (h : SearchFor l (le l 0 1) a) (hk : le l 1 1 < 4) (zero : le l 2 2 = 0)
    (found : routeFind d (le l 1 1) (le l 0 1) a = some (len, via, route)) :
    lpmSearchRes d l = { dev := d, payload := toLe 1 len ++ toLe 1 via ++ toLe 3 route ++ zeros 3 } := by
  obtain ⟨ok, addr⟩ := h.wellFormed hk zero
  simp only [lpmSearchRes, if_neg ok, addr, found]

theorem lpmSearchRes_none {l : List Byte} {a : Nat} (h : SearchFor l (le l 0 1) a) (hk : le l 1 1 < 4) (zero : le l 2 2 = 0)
    (none : routeFind d (le l 1 1) (le l 0 1) a = none) : lpmSearchRes d l = fail d eNoent := by
  obtain ⟨ok, addr⟩ := h.wellFormed hk zero
  simp only [lpmSearchRes, if_neg ok, addr, none]

/-- A search only reads, whatever it answers. -/
theorem lpmSearch_answers (hc : ch < 16) (hs : Served s.dev ch sl) (ha : Accepted s.dev ch sl 0x212 0) (len : sl.len = 20)
    {status : Nat} {payload : List Byte}
    (run : lpmSearchRes (begun s) sl.payload = { dev := begun s, status, payload }) :
    Ends (.lpmSearch ch) s fun t => Answered s.dev t ch sl status 0xFFFF payload ∧ OnlyParts [.chan, .cc] s.dev t ∧
      OnlyRegsBeside ch [] s.dev t :=
  ends_completed (op := 0x212) (flags := 0) rfl (decide_eq_true hc) hc hs ha (decide_eq_true len) rfl run (.refl _) (by simp) (by simp)
    (fun _ _ => id) rfl fun _ done => ⟨done.answered, done.reads rfl⟩

/-- Settles O11: one new prefix is listed in every complex and one listed prefix taken out, and a search answers what its complex finds. -/
theorem prefixesAreStoredAndSearched : Obligations.PrefixesAreStoredAndSearched := by
  refine ⟨fun s ch sl p hc hs hlen len hp => ⟨?_, ?_⟩, ?_⟩
  · exact fun fl hfl ha good pos short new units cam => lpmAdd_lists hc hs hlen len hp hfl ha good pos short new units cam
  · exact fun q ha good found plain => lpmDelete_unlists hc hs hlen len hp ha good found plain
  · rintro s ch sl _ _ a hc hs ha len rfl rfl hk zero addr
    exact ⟨fun n via route found => lpmSearch_answers hc hs ha len (lpmSearchRes_found (d := begun s) addr hk zero found),
      fun none => lpmSearch_answers hc hs ha len (lpmSearchRes_none (d := begun s) addr hk zero none)⟩

end Sys2Proof.Machine
end

section
/-! Buckets of ECMP groups and LAGs: who takes them over from a lost member, and what a returning member takes (R237, R238). -/

namespace Sys2Proof.Machine

open Sys2Proof

variable {d : Dev} {s : State} {bs surv live : List Nat} {ms : List (Nat × Nat)} {m : Nat}

/-! ## Lists of buckets -/

theorem setNth_eq_set {α : Type} (l : List α) (i : Nat) (x : α) : setNth l i x = l.set i x := by
  rw [setNth, List.set_eq_take_append_cons_drop]
  split_ifs with h
  · simp
  · simp [List.drop_eq_nil_of_le (show l.length ≤ i + 1 by omega), List.take_of_length_le (Nat.not_lt.1 h)]

/-- What bucket j holds after bucket i was written. -/
theorem getD_set (l : List Nat) (i j x : Nat) : (l.set i x).getD j 0 = if i = j ∧ i < l.length then x else l.getD j 0 := by
  simp only [List.getD_eq_getElem?_getD, List.getElem?_set]
  by_cases h : i = j
  · subst h
    by_cases hl : i < l.length <;> simp [hl]
  · simp [h]

/-- A fold that keeps its choice or takes the element chooses one of the list. -/
theorem foldl_choice_mem {step : Option Nat → Nat → Option Nat} (choice : ∀ b x, step b x = b ∨ step b x = some x) (l : List Nat)
    (b : Option Nat) {x : Nat} (h : l.foldl step b = some x) : b = some x ∨ x ∈ l := by
  induction l generalizing b with
  | nil => exact .inl h
  | cons y l ih =>
    obtain h | h := ih _ h
    · obtain e | e := choice b y
      · exact .inl (e ▸ h)
      · exact .inr (by simp [Option.some.inj (e.symm.trans h)])
    · exact .inr (List.mem_cons_of_mem y h)

/-- A fold that takes the first element, and keeps its choice or takes another, has one at the end. -/
theorem foldl_choice_isSome {step : Option Nat → Nat → Option Nat} (choice : ∀ b x, (step b x).isSome = true) {l : List Nat}
    (h : l ≠ []) (b : Option Nat) : (l.foldl step b).isSome = true := by
  rw [← List.dropLast_append_getLast h, List.foldl_append]
  exact choice _ _

theorem argmin_mem {f : Nat → Nat} {l : List Nat} {x : Nat} (h : argmin f l = some x) : x ∈ l := by
  refine (foldl_choice_mem (fun b x => ?_) l none h).resolve_left (by simp)
  cases b with
  | none => exact .inr rfl
  | some y => dsimp only; split <;> simp

theorem argmin_isSome (f : Nat → Nat) {l : List Nat} (h : l ≠ []) : (argmin f l).isSome = true := by
  refine foldl_choice_isSome (fun b x => ?_) h none
  cases b with
  | none => rfl
  | some y => dsimp only; split <;> rfl

theorem argmax_mem {f : Nat → Nat} {l : List Nat} {x : Nat} (h : argmax f l = some x) : x ∈ l := by
  refine (foldl_choice_mem (fun b x => ?_) l none h).resolve_left (by simp)
  cases b with
  | none => exact .inr rfl
  | some y => dsimp only; split <;> simp

theorem argmax_isSome (f : Nat → Nat) {l : List Nat} (h : l ≠ []) : (argmax f l).isSome = true := by
  refine foldl_choice_isSome (fun b x => ?_) h none
  cases b with
  | none => rfl
  | some y => dsimp only; split <;> rfl

/-! ## A lost member (R237) -/

/-- Bucket i goes to a survivor if it is the lost member's. -/
def reassignOne (m : Nat) (surv bs : List Nat) (i : Nat) : List Nat :=
  if bs.getD i 0 = m then
    match argmin (held bs) surv with
    | some x => setNth bs i x
    | none => bs
  else bs

theorem reassign_eq (bs : List Nat) (m : Nat) (surv : List Nat) :
    reassign bs m surv = (List.range bs.length).foldl (reassignOne m surv) bs := rfl

/-- A bucket stays, or it was the lost member's and goes to a survivor; it stays only if there is none. -/
theorem reassignOne_cases (m : Nat) (surv bs : List Nat) (i : Nat) :
    (reassignOne m surv bs i = bs ∧ (bs.getD i 0 = m → surv = [])) ∨
      ∃ x ∈ surv, bs.getD i 0 = m ∧ reassignOne m surv bs i = bs.set i x := by
  unfold reassignOne
  split_ifs with mine
  · cases pick : argmin (held bs) surv with
    | some x => exact .inr ⟨x, argmin_mem pick, mine, setNth_eq_set ..⟩
    | none =>
      refine .inl ⟨rfl, fun _ => ?_⟩
      by_contra h
      simpa [pick] using argmin_isSome (held bs) h
  · exact .inl ⟨rfl, fun h => absurd h mine⟩

theorem reassignOne_length (m : Nat) (surv bs : List Nat) (i : Nat) : (reassignOne m surv bs i).length = bs.length := by
  obtain ⟨e, -⟩ | ⟨x, -, -, e⟩ := reassignOne_cases m surv bs i <;> simp [e]

theorem reassignOne_others (i : Nat) {j : Nat} (h : bs.getD j 0 ≠ m) : (reassignOne m surv bs i).getD j 0 = bs.getD j 0 := by
  obtain ⟨e, -⟩ | ⟨x, -, mine, e⟩ := reassignOne_cases m surv bs i
  · rw [e]
  · rw [e, getD_set, if_neg]
    rintro ⟨rfl, -⟩
    exact h mine

theorem reassignOne_own (some : surv ≠ []) {i : Nat} (hi : i < bs.length) (h : bs.getD i 0 = m) :
    (reassignOne m surv bs i).getD i 0 ∈ surv := by
  obtain ⟨-, none⟩ | ⟨x, mem, -, e⟩ := reassignOne_cases m surv bs i
  · exact absurd (none h) some
  · rw [e, getD_set, if_pos ⟨rfl, hi⟩]
    exact mem

/-- No bucket of another member moves (R237). -/
theorem reassigned_others (l : List Nat) {j : Nat} (h : bs.getD j 0 ≠ m) : (l.foldl (reassignOne m surv) bs).getD j 0 = bs.getD j 0 := by
  induction l generalizing bs with
  | nil => rfl
  | cons i l ih =>
    have one := reassignOne_others (surv := surv) i h
    rw [List.foldl_cons, ih (one ▸ h), one]

/-- A bucket of the lost member that is gone through goes to a survivor. -/
theorem reassigned_own (lost : m ∉ surv) (some : surv ≠ []) {l : List Nat} {j : Nat} (mem : j ∈ l) (hj : j < bs.length) (h : bs.getD j 0 = m) :
    (l.foldl (reassignOne m surv) bs).getD j 0 ∈ surv := by
  induction l generalizing bs with
  | nil => cases mem
  | cons i l ih =>
    rw [List.foldl_cons]
    by_cases still : (reassignOne m surv bs i).getD j 0 = m
    · have other : j ≠ i := by
        rintro rfl
        exact lost (still ▸ reassignOne_own some hj h)
      exact ih (List.mem_of_ne_of_mem other mem) (by rwa [reassignOne_length]) still
    · have one : (reassignOne m surv bs i).getD j 0 ∈ surv := by
        obtain ⟨e, -⟩ | ⟨x, hx, -, e⟩ := reassignOne_cases m surv bs i
        · exact absurd (by rw [e]; exact h) still
        · rw [e, getD_set] at still ⊢
          split_ifs at still ⊢
          · exact hx
          · exact absurd h still
      rwa [reassigned_others l still]

/-! ## A returning member (R238) -/

theorem held_set {i : Nat} (hi : i < bs.length) (x y : Nat) :
    held (bs.set i x) y = held bs y - (if bs.getD i 0 = y then 1 else 0) + if x = y then 1 else 0 := by
  simp [held, List.count_set hi, hi]

/-- The member's bucket taken is one of another's that holds more than its share; none is taken only if no other holds more. -/
theorem takeOne_cases (m : Nat) (others : List Nat) (share : Nat → Nat) (bs : List Nat) :
    (takeOne m others share bs = bs ∧ ∀ x ∈ others, held bs x ≤ share x) ∨
      ∃ i < bs.length, bs.getD i 0 ∈ others ∧ share (bs.getD i 0) < held bs (bs.getD i 0) ∧ takeOne m others share bs = bs.set i m := by
  unfold takeOne
  cases pick : argmax (held bs) (others.filter fun x => decide (share x < held bs x)) with
  | none =>
    refine .inl ⟨rfl, fun x hx => ?_⟩
    by_contra more
    have above : x ∈ others.filter fun x => decide (share x < held bs x) := List.mem_filter.2 ⟨hx, decide_eq_true (Nat.not_le.1 more)⟩
    have some := argmax_isSome (held bs) (List.ne_nil_of_mem above)
    simp [pick] at some
  | some x =>
    obtain ⟨mem, more⟩ := List.mem_filter.1 (argmax_mem pick)
    have more := of_decide_eq_true more
    dsimp only
    cases last : ((List.range bs.length).reverse).find? fun i => decide (bs.getD i 0 = x) with
    | none =>
      have holds : x ∈ bs := List.count_pos_iff.1 (Nat.zero_lt_of_lt more)
      obtain ⟨i, hi, at_i⟩ := List.getElem_of_mem holds
      have missing := List.find?_eq_none.1 last i (by simpa using hi)
      simp [hi, at_i] at missing
    | some i =>
      have hi : i < bs.length := by simpa using List.mem_of_find?_eq_some last
      have at_i : bs.getD i 0 = x := by simpa using List.find?_some last
      subst at_i
      exact .inr ⟨i, hi, mem, more, setNth_eq_set ..⟩

/-- What a return may do to the buckets: it leaves their number, moves none to another member, and leaves every other member its share. -/
structure Regained (m : Nat) (share : Nat → Nat) (a b : List Nat) : Prop where
  length : b.length = a.length
  moves : ∀ i, b.getD i 0 = a.getD i 0 ∨ b.getD i 0 = m
  keeps : ∀ x, x ≠ m → share x ≤ held a x → share x ≤ held b x

variable {share : Nat → Nat} {a b c : List Nat}

theorem Regained.refl : Regained m share a a := ⟨rfl, fun _ => .inl rfl, fun _ _ => id⟩

theorem Regained.trans (h : Regained m share a b) (g : Regained m share b c) : Regained m share a c :=
  ⟨g.length.trans h.length, fun i => (g.moves i).elim (fun e => (h.moves i).imp e.trans e.trans) .inr,
    fun x hx hs => g.keeps x hx (h.keeps x hx hs)⟩

theorem takeOne_regains (m : Nat) (others : List Nat) (share : Nat → Nat) (bs : List Nat) :
    Regained m share bs (takeOne m others share bs) := by
  obtain ⟨e, -⟩ | ⟨i, hi, -, more, e⟩ := takeOne_cases m others share bs
  · rw [e]
    exact .refl
  · rw [e]
    refine ⟨by simp, fun j => ?_, fun x hx hs => ?_⟩
    · rw [getD_set]
      split_ifs <;> simp
    · rw [held_set hi, if_neg hx.symm]
      split_ifs with at_i
      · subst at_i
        omega
      · exact hs

theorem iter_regains (others : List Nat) (n : Nat) (bs : List Nat) : Regained m share bs (iter n (takeOne m others share) bs) := by
  induction n generalizing bs with
  | zero => exact .refl
  | succ n ih => exact (takeOne_regains m others share bs).trans (ih _)

/-- While another member holds more than its share, a bucket comes to the member. -/
theorem takeOne_held {others : List Nat} (other : m ∉ others) (more : ∃ x ∈ others, share x < held bs x) :
    held (takeOne m others share bs) m = held bs m + 1 := by
  obtain ⟨-, none⟩ | ⟨i, hi, mem, -, e⟩ := takeOne_cases m others share bs
  · obtain ⟨x, hx, h⟩ := more
    exact absurd (none x hx) (Nat.not_le.2 h)
  · rw [e, held_set hi, if_neg fun h : bs.getD i 0 = m => other (h ▸ mem), if_pos rfl]
    rfl

/-- Buckets of numbers below n, counted by number. -/
theorem sum_held {n : Nat} (bound : ∀ x ∈ bs, x < n) : ∑ x ∈ Finset.range n, held bs x = bs.length := by
  have := Multiset.sum_count_eq_card (s := Finset.range n) (m := (bs : Multiset Nat)) (by simpa using bound)
  simpa [held] using this

theorem Regained.bound {n : Nat} (h : Regained m share a b) (hm : m < n) (bound : ∀ x ∈ a, x < n) : ∀ x ∈ b, x < n := by
  intro x hx
  obtain ⟨i, hi, rfl⟩ := List.getElem_of_mem hx
  have ha : i < a.length := h.length ▸ hi
  have moves := h.moves i
  rw [List.getD_eq_getElem _ _ hi, List.getD_eq_getElem _ _ ha] at moves
  obtain e | e := moves
  · exact e ▸ bound _ (List.getElem_mem ha)
  · exact e ▸ hm

/-- The members beside m. -/
abbrev others (n m : Nat) : List Nat := (List.range n).filter (· ≠ m)

theorem mem_others {n x : Nat} : x ∈ others n m ↔ x < n ∧ x ≠ m := by simp

/-- If shares add up to no more than the buckets, some other member holds more than its share while one holds less. -/
theorem exists_above {n : Nat} (hm : m < n) (bound : ∀ x ∈ bs, x < n) (total : ∑ x ∈ Finset.range n, share x ≤ bs.length)
    (less : held bs m < share m) : ∃ x ∈ others n m, share x < held bs x := by
  by_contra none
  have most (x : Nat) (hx : x ∈ Finset.range n) : held bs x ≤ share x := by
    by_cases h : x = m
    · exact h ▸ less.le
    · by_contra above
      exact none ⟨x, mem_others.2 ⟨Finset.mem_range.1 hx, h⟩, Nat.not_le.1 above⟩
  have sum := Finset.sum_lt_sum most ⟨m, Finset.mem_range.2 hm, less⟩
  rw [sum_held bound] at sum
  omega

/-- The member comes to its share. -/
theorem iter_held {n : Nat} (hm : m < n) (bound : ∀ x ∈ bs, x < n) (total : ∑ x ∈ Finset.range n, share x ≤ bs.length) (k : Nat)
    (hk : held bs m + k ≤ share m) : held (iter k (takeOne m (others n m) share) bs) m = held bs m + k := by
  induction k generalizing bs with
  | zero => rfl
  | succ k ih =>
    have one := takeOne_held (fun h => (mem_others.1 h).2 rfl) (exists_above hm bound total (by omega))
    have step := takeOne_regains m (others n m) share bs
    rw [iter, ih (step.bound hm bound) (step.length ▸ total) (by omega), one]
    omega

/-! ## Fair shares -/

theorem sumOf_eq_sum (l : List Nat) (f : Nat → Nat) : sumOf l f = (l.map f).sum := by
  have from_ (n : Nat) : l.foldl (fun a x => a + f x) n = n + (l.map f).sum := by
    induction l generalizing n with
    | nil => rfl
    | cons x l ih => rw [List.foldl_cons, ih, List.map_cons, List.sum_cons, Nat.add_assoc]
  rw [sumOf, from_, Nat.zero_add]

/-- Parts in proportion to weights, each rounded down, add up to no more than the whole. -/
theorem sum_parts (l : Finset Nat) (w : Nat → Nat) (b : Nat) : ∑ x ∈ l, b * w x / ∑ y ∈ l, w y ≤ b := by
  obtain zero | pos := Nat.eq_zero_or_pos (∑ y ∈ l, w y)
  · simp [zero]
  · refine Nat.le_of_mul_le_mul_right ?_ pos
    calc (∑ x ∈ l, b * w x / ∑ y ∈ l, w y) * ∑ y ∈ l, w y
        = ∑ x ∈ l, b * w x / (∑ y ∈ l, w y) * ∑ y ∈ l, w y := Finset.sum_mul ..
      _ ≤ ∑ x ∈ l, b * w x := Finset.sum_le_sum fun _ _ => Nat.div_mul_le_self ..
      _ = b * ∑ y ∈ l, w y := (Finset.mul_sum ..).symm

/-- The shares of the live members add up to no more than the buckets. -/
theorem sum_shares (ms : List (Nat × Nat)) (once : live.Nodup) {n : Nat} (inside : ∀ x ∈ live, x < n) (b : Nat) :
    ∑ x ∈ Finset.range n, shareOf ms live b x ≤ b := by
  have weights : sumOf live (fun i => (ms.getD i (0, 0)).2) = ∑ y ∈ live.toFinset, (ms.getD y (0, 0)).2 := by
    rw [sumOf_eq_sum, List.sum_toFinset _ once]
  have live_only : ∑ x ∈ Finset.range n, shareOf ms live b x = ∑ x ∈ live.toFinset, fairShare ms live x b := by
    rw [← Finset.sum_subset (fun x hx => Finset.mem_range.2 (inside x (List.mem_toFinset.1 hx))) fun x _ dead => ?_]
    · exact Finset.sum_congr rfl fun x hx => by simp [shareOf, List.mem_toFinset.1 hx]
    · have out : x ∉ live := fun h => dead (List.mem_toFinset.2 h)
      simp [shareOf, out]
  rw [live_only]
  simp only [fairShare, weights]
  exact sum_parts _ _ b

theorem regain_regains (ms : List (Nat × Nat)) (live : List Nat) (m : Nat) (bs : List Nat) :
    Regained m (shareOf ms live bs.length) bs (regain ms live m bs) := iter_regains ..

/-- A member that held no more than its share holds it after its return. -/
theorem regain_held (once : live.Nodup) (inside : ∀ x ∈ live, x < ms.length) (hm : m ∈ live) (bound : ∀ x ∈ bs, x < ms.length)
    (less : held bs m ≤ shareOf ms live bs.length m) : held (regain ms live m bs) m = shareOf ms live bs.length m := by
  have come := iter_held (inside m hm) bound (sum_shares ms once inside bs.length) (shareOf ms live bs.length m - held bs m) (by omega)
  rw [regain, come]
  omega

/-! ## The copies -/

theorem mem_liveMembers {lag : Bool} {g x : Nat} (h : x ∈ liveMembers d lag g) : x < (groupMembers d 0 lag g).length :=
  List.mem_range.1 (List.mem_filter.1 h).1

theorem nodup_liveMembers (d : Dev) (lag : Bool) (g : Nat) : (liveMembers d lag g).Nodup := List.nodup_range.filter _

theorem groupBuckets_setBuckets (d : Dev) (lag : Bool) (g : Nat) (l : List Nat) {k : Nat} (hk : k < 4) :
    groupBuckets (setBuckets d lag g l) k lag g = l := by
  refine four_copies (get := fun d k => groupBuckets d k lag g) (g := fun _ _ => l) (fun d k => ?_) (fun d k j h => ?_) d hk
  · simp only [groupBuckets, Dev.onFwd_fwd, tget_tmod_self, tget_tput_self]
  · simp only [groupBuckets, Dev.onFwd_fwd, tget_tmod_ne _ _ _ h]

theorem moves_setBuckets (d : Dev) (lag : Bool) (g : Nat) (l : List Nat) : Moves [.fwd] (· ∈ ([] : List Nat)) d (setBuckets d lag g l) :=
  .foldl _ (fun d _ _ => moves_onFwd d _ (by simp)) d

/-- A command that writes a group's buckets ends with them in every complex, and changes nothing else. -/
theorem ends_setBuckets {c : Instr} {f : Dev → Dev} {lag : Bool} {g : Nat} {l : List Nat} (hx : exec c s = s.runIf c.wf f)
    (hw : c.wf = true) (run : f (begun s) = setBuckets (begun s) lag g l) :
    Ends c s fun t => (∀ k < 4, groupBuckets t k lag g = l) ∧ OnlyParts [.fwd] s.dev t ∧ OnlyRegs [] s.dev t := by
  have moved := moves_setBuckets (begun s) lag g l
  refine ends_of_runIf hx hw (run ▸ ⟨fun k hk => ?_, moved.onlyParts, moved.onlyRegs⟩)
  rw [groupBuckets, settle_fwd]
  exact groupBuckets_setBuckets _ lag g l hk

theorem memberReassign_runs {lag : Bool} {g : Nat} (fw : d.boot.fwRunning = true) (lost : m ∉ liveMembers d lag g)
    (hm : m < (groupMembers d 0 lag g).length) :
    memberReassign lag g m d = setBuckets d lag g (reassign (groupBuckets d 0 lag g) m (liveMembers d lag g)) := by
  simp [memberReassign, fw, lost, hm]

theorem memberAdd_runs {lag : Bool} {g : Nat} (fw : d.boot.fwRunning = true) (back : m ∈ liveMembers d lag g) : memberAdd lag g m d =
    setBuckets d lag g (regain (groupMembers d 0 lag g) (liveMembers d lag g) m (groupBuckets d 0 lag g)) := by
  simp [memberAdd, fw, back]

/-- Settles O12: the reassignment moves the lost member's buckets alone, and a return takes buckets from members above their share
alone. -/
theorem membersMoveBuckets : Obligations.MembersMoveBuckets := by
  intro s lag g m fw
  refine ⟨fun lost hm => ?_, fun back => ?_⟩
  · refine Ends.imp (ends_setBuckets (c := .memberReassign lag g m) rfl rfl (memberReassign_runs (d := begun s) fw lost hm)) ?_
    rintro t ⟨written, parts, regs⟩
    refine ⟨fun k hk => ⟨written k hk, fun i other => ?_, fun some i hi own => ?_⟩, parts, regs⟩ <;> rw [written k hk]
    · exact reassigned_others _ other
    · exact reassigned_own lost some (List.mem_range.2 hi) hi own
  · have regained := regain_regains (groupMembers s.dev 0 lag g) (liveMembers s.dev lag g) m (groupBuckets s.dev 0 lag g)
    refine Ends.imp (ends_setBuckets (c := .memberAdd lag g m) rfl rfl (memberAdd_runs (d := begun s) fw back)) ?_
    rintro t ⟨written, parts, regs⟩
    refine ⟨fun k hk => ⟨written k hk, ?_⟩, parts, regs⟩
    rw [written k hk]
    refine ⟨regained.length, regained.moves, ?_⟩
    rintro _ rfl
    exact ⟨regained.keeps, fun less bound => regain_held (nodup_liveMembers ..) (fun _ => mem_liveMembers) back bound less⟩

end Sys2Proof.Machine
end

section
/-! Admission of one copy of a waiting frame (R244, R249, R251, R252, R262): it takes a place in its VOQ, or is counted by what refused it. -/

namespace Sys2Proof.Machine

open Sys2Proof

variable {d t u : Dev} {f p : Nat} {x y : Frame} {b : Bid}

/-! ## The answer of admission -/

/-- The counters of a refusal (R252, R254, R262). -/
abbrev refusals : List Nat := [Reg.dropThresh, Reg.dropTenantCap, Reg.dropHeadroom]

theorem admitPart_cases (d : Dev) (b : Bid) :
    (∃ pt, admitPart d b = .ok pt ∧ pt ≠ .tc7) ∨ ∃ r ∈ refusals, admitPart d b = .error r := by
  unfold admitPart
  dsimp only
  split_ifs
  · exact .inl ⟨.reservation, rfl, by decide⟩
  · exact .inl ⟨.guarantee, rfl, by decide⟩
  · exact .inl ⟨.shared, rfl, by decide⟩
  · exact .inr ⟨Reg.dropTenantCap, by simp, rfl⟩
  · exact .inr ⟨Reg.dropThresh, by simp, rfl⟩

/-- What is admitted goes to a part of TC0 to TC6. -/
theorem admitPair_cases (d : Dev) (b : Bid) (p : Nat) :
    (∃ pt, admitPair d b p = .ok pt ∧ pt ≠ .tc7) ∨ ∃ r ∈ refusals, admitPair d b p = .error r := by
  unfold admitPair
  obtain ⟨pt, e, h⟩ | ⟨r, hr, e⟩ := admitPart_cases d b
  · exact .inl ⟨pt, by rw [e], h⟩
  · rw [e]
    dsimp only
    split_ifs
    · exact .inl ⟨.headroom, rfl, by decide⟩
    · exact .inr ⟨Reg.dropHeadroom, by simp, rfl⟩
    · exact .inr ⟨r, hr, rfl⟩

/-- The VOQ's reservation is not used up. -/
abbrev Reserved (d : Dev) (k port cls : Nat) : Prop :=
  voqPart d k (8 * port + cls) .reservation < bits (classCfg d k cls) 4 8

theorem admitPair_reserved (p : Nat) (h : Reserved d b.tile b.port b.cls) : admitPair d b p = .ok .reservation := by
  have part : admitPart d b = .ok .reservation := if_pos h
  rw [admitPair, part]

/-! ## A place in a VOQ -/

/-- From d to t frames and copies stay. -/
structure SameFlow (d t : Dev) : Prop where
  frames : t.buf.frames = d.buf.frames
  copies : t.buf.copies = d.buf.copies

theorem SameFlow.refl (d : Dev) : SameFlow d d := ⟨rfl, rfl⟩

theorem SameFlow.trans (h : SameFlow d t) (g : SameFlow t u) : SameFlow d u := ⟨g.frames.trans h.frames, g.copies.trans h.copies⟩

theorem SameFlow.ite {c : Prop} [Decidable c] (h : SameFlow d t) (g : SameFlow d u) : SameFlow d (if c then t else u) := by
  split
  · exact h
  · exact g

theorem SameFlow.of_buf (h : t.buf = d.buf) : SameFlow d t := ⟨by rw [h], by rw [h]⟩

theorem SameFlow.frameOf (h : SameFlow d t) (f : Nat) : frameOf t f = frameOf d f := by rw [Machine.frameOf, h.frames, Machine.frameOf]
theorem SameFlow.copyOf (h : SameFlow d t) (c : Nat) : copyOf t c = copyOf d c := by rw [Machine.copyOf, h.copies, Machine.copyOf]
theorem SameFlow.copiesOf (h : SameFlow d t) (f : Nat) : copiesOf t f = copiesOf d f := by rw [Machine.copiesOf, h.copies, Machine.copiesOf]

theorem sameFlow_tcnt (d : Dev) (k o : Nat) : SameFlow d (tcnt d k o) := .of_buf (cnt_buf ..)

theorem sameFlow_onBuf (d : Dev) (g : Buf → Buf) (hf : (g d.buf).frames = d.buf.frames := by rfl)
    (hc : (g d.buf).copies = d.buf.copies := by rfl) : SameFlow d (d.onBuf g) := ⟨hf, hc⟩

theorem sameFlow_checkSpill (d : Dev) (k v : Nat) : SameFlow d (checkSpill d k v) :=
  .ite ((sameFlow_onBuf d _).trans (sameFlow_tcnt ..)) (.refl d)

theorem sameFlow_sendPfc (d : Dev) (p c time : Nat) : SameFlow d (sendPfc d p c time) := .ite (.refl d) ⟨rfl, rfl⟩

theorem sameFlow_checkXoff (d : Dev) (p c : Nat) (pt : Part) : SameFlow d (checkXoff d p c pt) :=
  .ite (.ite (.refl d) ((sameFlow_onBuf d _).trans ((sameFlow_tcnt _ _ _).trans (sameFlow_sendPfc ..)))) (.refl d)

/-- A write of a frame that is there. -/
theorem frameOf_setFrame (g : Frame → Frame) (h : frameOf d f = some y) : frameOf (setFrame d f g) f = some (g y) := by
  rw [frameOf] at h
  simp only [frameOf, setFrame, Dev.onBuf_buf, h, tfind_tins_self]

theorem frameOf_setFrame_ne (d : Dev) {n : Nat} (g : Frame → Frame) (h : n ≠ f) : frameOf (setFrame d f g) n = frameOf d n := by
  simp only [frameOf, setFrame, Dev.onBuf_buf]
  cases tfind d.buf.frames f with
  | none => rfl
  | some y => exact tfind_tins_ne _ _ h

theorem copies_setFrame (d : Dev) (f : Nat) (g : Frame → Frame) :
    (setFrame d f g).buf.copies = d.buf.copies ∧ (setFrame d f g).buf.nextCopy = d.buf.nextCopy := by
  simp only [setFrame, Dev.onBuf_buf]
  cases tfind d.buf.frames f <;> exact ⟨rfl, rfl⟩

/-- A copy takes its frame's own cells, if no other has them. -/
theorem chainFor_own {c : Copy} (part : c.part ≠ .tc7) (plain : c.mirror = none) (frame : frameOf d c.frame = some y) :
    ∃ l ch t, chainFor d c = (l, t) ∧ (y.chain ≠ [] → l = y.chain) ∧ frameOf t c.frame = some { y with chain := ch } ∧
      t.buf.nextCopy = d.buf.nextCopy := by
  simp only [chainFor, if_neg part, frame, plain]
  split_ifs with h
  · exact ⟨_, y.chain, _, rfl, fun own => absurd (h.resolve_right (by simp)) own, frame, rfl⟩
  · exact ⟨y.chain, [], _, rfl, fun _ => rfl, frameOf_setFrame _ frame, (copies_setFrame ..).2⟩

/-- The copy of frame f for port p that stands under a number, in the frame's own cells (R244). -/
structure CopyFor (f p : Nat) (x : Frame) (n : Nat) (t : Dev) : Prop where
  copy : ∃ c, copyOf t n = some c ∧ c.frame = f ∧ c.tile = x.tile ∧ c.port = p ∧ c.cls = x.cls ∧ c.cells = cellsOf x.len ∧
    c.rewrite = none ∧ c.mirror = none ∧ (x.chain ≠ [] → c.chain = x.chain)

theorem CopyFor.same {n : Nat} (h : CopyFor f p x n t) (g : SameFlow t u) : CopyFor f p x n u := by
  obtain ⟨c, copy, rest⟩ := h
  exact ⟨c, (g.copyOf n).trans copy, rest⟩

theorem mem_of_tfind {α : Type} {l : Tab α} {k : Nat} {v : α} (h : tfind l k = some v) : (k, v) ∈ l := by
  induction l with
  | nil => cases h
  | cons e l ih =>
    unfold tfind at h
    split at h
    · rename_i same
      rw [← same, ← Option.some.inj h]
      exact List.mem_cons_self
    · exact List.mem_cons_of_mem _ (ih h)

/-- The frame lives on in a copy that is no mirror copy. -/
theorem CopyFor.lives {n : Nat} (h : CopyFor f p x n t) : ¬((copiesOf t f).all fun e => e.2.mirror.isSome) = true := by
  obtain ⟨c, copy, frame, -, -, -, -, -, plain, -⟩ := h
  intro all
  have mirror := List.all_eq_true.1 all (n, c) (List.mem_filter.2 ⟨mem_of_tfind copy, decide_eq_true frame⟩)
  simp [plain] at mirror

/-- A copy as it stands in its VOQ with cells l. -/
def placedCopy (d : Dev) (c : Copy) (l : List Nat) : Copy :=
  { c with loc := if spilled d c.tile c.voq then .staging else .voq, since := d.trl.slot, chain := l }

/-- The device with a copy of the next number. -/
def placed (d : Dev) (c : Copy) (l : List Nat) : Dev :=
  d.onBuf fun b => { b with copies := tins b.copies b.nextCopy (placedCopy d c l), nextCopy := b.nextCopy + 1 }

theorem copyOf_placed (d : Dev) (c : Copy) (l : List Nat) : copyOf (placed d c l) d.buf.nextCopy = some (placedCopy d c l) :=
  tfind_tins_self ..

theorem enqueue_eq {c : Copy} {l : List Nat} (h : chainFor d c = (l, t)) : enqueue d c = checkSpill (placed t c l) c.tile c.voq := by
  rw [enqueue, h]
  rfl

/-- A copy of frame f that is enqueued stands under the next number, and its frame stays. -/
theorem enqueue_places {c : Copy} (part : c.part ≠ .tc7) (plain : c.mirror = none) (frame : frameOf d f = some y) (hf : c.frame = f)
    (tile : c.tile = x.tile) (port : c.port = p) (cls : c.cls = x.cls) (cells : c.cells = cellsOf x.len) (rewrite : c.rewrite = none)
    (chain : y.chain = x.chain) :
    CopyFor f p x d.buf.nextCopy (enqueue d c) ∧ ∃ ch, frameOf (enqueue d c) f = some { y with chain := ch } := by
  subst hf
  obtain ⟨l, ch, e, taken, own, stays, next⟩ := chainFor_own part plain frame
  have stands : CopyFor c.frame p x d.buf.nextCopy (placed e c l) :=
    ⟨placedCopy e c l, next ▸ copyOf_placed e c l, rfl, tile, port, cls, cells, rewrite, plain, fun h => (own (chain ▸ h)).trans chain⟩
  have spill := sameFlow_checkSpill (placed e c l) c.tile c.voq
  rw [enqueue_eq taken]
  exact ⟨stands.same spill, ch, (spill.frameOf _).trans stays⟩

end Sys2Proof.Machine
end

section
/-! The key search of a unicast frame that its complex bridges to one port (R180 to R188, R249, R251, R252). -/

namespace Sys2Proof.Machine

open Sys2Proof

variable {d t u : Dev} {f p k slot : Nat} {x y : Frame} {e : MacEnt}

/-! ## The decision -/

/-- With no rule search in its profile a key meets no rule. -/
theorem ruleSearch_off {prof : Nat} (off : flag d (Reg.cplx k + Reg.ruleProfCfg prof) 4 = false) (key n : Nat) (yellow : Bool) :
    ruleSearch d k prof key n yellow = (0, false, [], d) := by
  simp [ruleSearch, off]

/-- An entry for a single port, which is none of the router's, is not discarded, and names no set of ports and no LAG. -/
structure ForPort (e : MacEnt) : Prop where
  router : e.router = false
  discard : e.discardDa = false
  mcast : e.isMcast = false
  lag : e.isLag = false

/-- A frame from outside any LAG goes to the one other port that its destination's entry names. -/
theorem bridgeFrame_port (known : macGet (macTab d k) (vlanOf d k x.vid).fid (be x.bytes 0 6) = some e) (single : ForPort e)
    (other : e.dest ≠ x.inPort) (alone : lagOf d k x.inPort = none) :
    bridgeFrame d k x = (.send [e.dest] true x.cls none, d) := by
  simp [bridgeFrame, known, single.router, single.discard, single.mcast, single.lag, other, alone, onePort]

/-- The frame as lookup notes it for its tail. -/
def noted (d : Dev) (k : Nat) (x : Frame) (z : Frame) : Frame :=
  { z with
    learn := some (vlanOf d k x.vid).fid
    mayLearn := (vlanOf d k x.vid).learn && flag d (Reg.portL2Cfg x.inPort) 15 && decide (be x.bytes 6 6 ≠ 0) }

/-- What the statement asks of the tables for frame x. -/
structure Bridged (d : Dev) (k : Nat) (x : Frame) (e : MacEnt) : Prop where
  vlan : vlanRefused d k x = false
  unicast : isGroup (be x.bytes 6 6) = false
  source : macGet (macTab d k) (vlanOf d k x.vid).fid (be x.bytes 6 6) = none
  known : macGet (macTab d k) (vlanOf d k x.vid).fid (be x.bytes 0 6) = some e
  single : ForPort e
  other : e.dest ≠ x.inPort
  alone : lagOf d k x.inPort = none

/-- The lookup of such a frame names its port, and notes what the tail is to learn. -/
theorem Bridged.lookup (h : Bridged d k x e) (plain : x.inject = none) :
    lookup d k f x false = (.send [e.dest] true x.cls none, setFrame d f (noted d k x)) := by
  have bridge : bridgeFrame (setFrame d f (noted d k x)) k x = (.send [e.dest] true x.cls none, setFrame d f (noted d k x)) :=
    bridgeFrame_port (d := setFrame d f (noted d k x)) h.known h.single h.other h.alone
  have same : macTab (setFrame d f (noted d k x)) k = macTab d k := rfl
  simp only [Machine.lookup, h.vlan, h.unicast, plain, Option.isSome_none, Bool.false_eq_true, if_false]
  simp only [← noted.eq_1]
  simp [same, h.source, h.known, h.single.router, bridge]

/-! ## The search -/

/-- From d to t frame f has become y; copies, tables, registers and mirror sessions stay. -/
structure Stands (f : Nat) (y : Frame) (d t : Dev) : Prop where
  frame : frameOf t f = some y
  copies : t.buf.copies = d.buf.copies
  next : t.buf.nextCopy = d.buf.nextCopy
  regs : ∀ a, rd t a = rd d a
  tables : t.fwd.mac = d.fwd.mac ∧ t.fwd.paths = d.fwd.paths
  mirrors : t.tel.mirrors = d.tel.mirrors

theorem Stands.refl (h : frameOf d f = some x) : Stands f x d d := ⟨h, rfl, rfl, fun _ => rfl, ⟨rfl, rfl⟩, rfl⟩

theorem Stands.setFrame (h : Stands f y d t) (g : Frame → Frame) : Stands f (g y) d (setFrame t f g) :=
  ⟨frameOf_setFrame g h.frame, (copies_setFrame ..).1.trans h.copies, (copies_setFrame ..).2.trans h.next, h.regs, h.tables, h.mirrors⟩

theorem Stands.sketchAdd (h : Stands f y d t) (k : Nat) (x : Frame) : Stands f y d (sketchAdd t k x) :=
  ⟨h.frame, h.copies, h.next, h.regs, h.tables, h.mirrors⟩

section
variable (h : Stands f y d t)
include h

theorem Stands.flag (a i : Nat) : flag t a i = flag d a i := by rw [Machine.flag, h.regs, Machine.flag]
theorem Stands.pathOf (k ty i : Nat) : pathOf t k ty i = pathOf d k ty i := by rw [Machine.pathOf, h.tables.2, Machine.pathOf]
theorem Stands.vlanOf (k v : Nat) : vlanOf t k v = vlanOf d k v := by simp only [Machine.vlanOf, h.pathOf]
theorem Stands.lagOf (k q : Nat) : lagOf t k q = lagOf d k q := by simp only [Machine.lagOf, h.tables.2]
theorem Stands.macTab (k : Nat) : macTab t k = macTab d k := by rw [Machine.macTab, h.tables.1, Machine.macTab]
theorem Stands.tileCause (z : Frame) : tileCause t z = tileCause d z := by simp only [Machine.tileCause, h.regs]
theorem Stands.vlanRefused (k : Nat) (z : Frame) : vlanRefused t k z = vlanRefused d k z := by
  simp only [Machine.vlanRefused, h.regs, h.vlanOf]
theorem Stands.portDead (q : Nat) : portDead t q = portDead d q := portDead_congr fun _ => h.regs _
theorem Stands.copiesOf (g : Nat) : copiesOf t g = copiesOf d g := by rw [Machine.copiesOf, h.copies, Machine.copiesOf]

theorem Stands.bridged (g : Bridged d k x e) : Bridged t k x e where
  vlan := (h.vlanRefused ..).trans g.vlan
  unicast := g.unicast
  source := by rw [h.macTab, h.vlanOf]; exact g.source
  known := by rw [h.macTab, h.vlanOf]; exact g.known
  single := g.single
  other := g.other
  alone := (h.lagOf ..).trans g.alone

end

/-- A frame after a search that met no rule. -/
abbrev searched (x : Frame) : Frame := { x with keyed := true, colour := 0 }

/-- The colour of a search and the search itself decide nothing of bridging. -/
theorem Bridged.searched (h : Bridged d k x e) : Bridged d k (searched x) e := ⟨h.vlan, h.unicast, h.source, h.known, h.single, h.other, h.alone⟩

/-- The profile of a frame's key is one of 16. -/
theorem profile_lt (p3 rc : Nat) : (if p3 = 1 then bits rc 4 4 else if p3 = 2 then bits rc 8 4 else bits rc 0 4) < 16 := by
  split_ifs <;> exact bits_lt ..

/-- The answer for a frame that its complex bridges: one copy, for the port of its destination. -/
theorem searchKey_bridges (frame : frameOf d f = some x) (hk : k = cplxOf x.inPort)
    (off : ∀ n < 16, flag d (Reg.cplx k + Reg.ruleProfCfg n) 4 = false) (mirrors : d.tel.mirrors = []) (cause : tileCause d x = none)
    (bridged : Bridged d k x e) (plain : x.inject = none) :
    ∃ v t l m, searchKey d f x = (v, t) ∧ v.num = f ∧ v.frame = searched x ∧ v.mir = [] ∧ v.red = false ∧
      v.fate = .send [e.dest] true x.cls none ∧ Stands f { x with colour := 0, learn := l, mayLearn := m } d t := by
  subst hk
  have coloured : Stands f { x with colour := 0 } d (setFrame (sketchAdd d (cplxOf x.inPort) x) f fun z => { z with colour := 0 }) :=
    ((Stands.refl frame).sketchAdd ..).setFrame fun z => { z with colour := 0 }
  have tile : tileCause (setFrame (sketchAdd d (cplxOf x.inPort) x) f fun z => { z with colour := 0 }) (searched x) = none :=
    (coloured.tileCause _).trans cause
  have look := (coloured.bridged bridged).searched.lookup (f := f) plain
  simp only [searchKey, ruleSearch_off (off _ (profile_lt ..)), tile, look, Bool.false_eq_true, if_false]
  exact ⟨_, _, _, _, rfl, rfl, rfl, mirSessions_none (coloured.mirrors.trans mirrors) .., rfl, rfl, coloured.setFrame (noted _ _ _)⟩

end Sys2Proof.Machine
end

section
/-! The tile takes the answer for a bridged frame (R188, R249, R251, R252). -/

namespace Sys2Proof.Machine

open Sys2Proof

variable {d t u : Dev} {f p k slot : Nat} {x y z : Frame} {e : MacEnt}

/-! ## One copy -/

/-- A frame whose tail is still to come stays. -/
theorem sweepFrame_waits (frame : frameOf d f = some y) (tail : y.tailIn = false) : sweepFrame d f = d := by
  simp [sweepFrame, frame, tail]

theorem learnAtTail_waits (frame : frameOf d f = some y) (tail : y.tailIn = false) : learnAtTail d f = d := by
  unfold learnAtTail
  rw [frame]
  dsimp only
  split <;> simp [tail]

theorem dropFrame_waits (frame : frameOf d f = some y) (tail : y.tailIn = false) (plain : y.inject = none) :
    dropFrame d f = setFrame d f fun z => { z with dead := true } := by
  rw [dropFrame, injectDone_none frame plain]
  exact sweepFrame_waits (frameOf_setFrame _ frame) tail

/-- What frame z bids for at port p, and its copy there in a part. -/
def bidFor (z : Frame) (p : Nat) : Bid :=
  { tile := z.tile, port := p, cls := z.cls, tenant := z.tenant, colour := z.colour, cells := cellsOf z.len }

def copyFor (d : Dev) (f : Nat) (z : Frame) (p : Nat) (pt : Part) (trunc : Bool) : Copy :=
  { frame := f, tile := z.tile, port := p, cls := z.cls, cells := cellsOf z.len, part := pt, tenant := z.tenant, ct := ctOk d z p trunc }

theorem addCopy_admitted {pt : Part} (h : admitPair d (bidFor z p) z.inPort = .ok pt) (f : Nat) (trunc : Bool) :
    addCopy d f z p z.cls none trunc = checkXoff (enqueue d (copyFor d f z p pt trunc)) z.inPort z.cls pt := by
  rw [bidFor] at h
  rw [addCopy, h]
  rfl

theorem addCopy_refused {r : Nat} (h : admitPair d (bidFor z p) z.inPort = .error r) (f : Nat) (trunc : Bool) :
    addCopy d f z p z.cls none trunc = tcnt d z.tile r := by
  rw [bidFor] at h
  rw [addCopy, h]

/-- A copy is enqueued, or it is counted by what refused it; within its VOQ's reservation it is not refused. -/
theorem addCopy_cases (frame : frameOf d f = some y) (chain : y.chain = z.chain) (p : Nat) (trunc : Bool) :
    (CopyFor f p z d.buf.nextCopy (addCopy d f z p z.cls none trunc) ∧
        ∃ ch, frameOf (addCopy d f z p z.cls none trunc) f = some { y with chain := ch }) ∨
      (¬Reserved d z.tile p z.cls ∧ ∃ r ∈ refusals, addCopy d f z p z.cls none trunc = tcnt d z.tile r) := by
  obtain ⟨pt, admitted, part⟩ | ⟨r, hr, refused⟩ := admitPair_cases d (bidFor z p) z.inPort
  · left
    rw [addCopy_admitted admitted]
    have xoff := sameFlow_checkXoff (enqueue d (copyFor d f z p pt trunc)) z.inPort z.cls pt
    obtain ⟨copy, ch, stays⟩ := enqueue_places (x := z) (c := copyFor d f z p pt trunc) part rfl frame rfl rfl rfl rfl rfl rfl chain
    exact ⟨copy.same xoff, ch, (xoff.frameOf f).trans stays⟩
  · right
    refine ⟨fun reserved => ?_, r, hr, addCopy_refused refused f trunc⟩
    rw [admitPair_reserved (b := bidFor z p) z.inPort reserved] at refused
    cases refused

/-! ## The outcome -/

/-- Frame f stands searched, with its bytes. -/
abbrev Keyed (f : Nat) (x : Frame) (dead : Bool) (t : Dev) : Prop :=
  ∃ y, frameOf t f = some y ∧ y.keyed = true ∧ y.bytes = x.bytes ∧ y.dead = dead

/-- The frame's one copy, for port p, is enqueued. -/
structure Admitted (f p : Nat) (x : Frame) (d t : Dev) : Prop where
  frame : Keyed f x false t
  copy : CopyFor f p x d.buf.nextCopy t

/-- The frame is dropped, and counted by what refused it: its VOQ's reservation is used up. -/
structure Refused (f p : Nat) (x : Frame) (d t : Dev) : Prop where
  frame : Keyed f x true t
  copies : t.buf.copies = d.buf.copies
  counted : ∃ r ∈ refusals, rd t (Reg.tile x.tile + r) = (rd d (Reg.tile x.tile + r) + 1) % two32
  full : ¬Reserved d x.tile p x.cls

/-- A frame that was searched, without copies, whose tail is still to come. -/
structure Ready (f : Nat) (x y : Frame) (d : Dev) : Prop where
  frame : frameOf d f = some y
  chain : y.chain = x.chain
  bytes : y.bytes = x.bytes
  keyed : y.keyed = true
  live : y.dead = false
  tail : y.tailIn = false
  plain : y.inject = none
  first : copiesOf d f = []

/-- A frame with a class of its own given it again is ready as before. -/
theorem Ready.classed (h : Ready f x y d) (c : Nat) :
    Ready f x { y with cls := c } (setFrame d f fun z => { z with cls := c }) :=
  ⟨frameOf_setFrame _ h.frame, h.chain, h.bytes, h.keyed, h.live, h.tail, h.plain,
    by rw [copiesOf, (copies_setFrame ..).1]; exact h.first⟩

/-- A frame that left no copy but mirror copies is dropped. -/
def orDropped (d : Dev) (f : Nat) : Dev := if (copiesOf d f).all fun e => e.2.mirror.isSome then dropFrame d f else d

/-- A ready frame for one live port gets its copy, or is dropped for the want of it. -/
theorem Ready.offered (h : Ready f x y d) (p : Nat) (trunc : Bool) :
    let t := learnAtTail (orDropped (addCopy d f x p x.cls none trunc) f) f
    Admitted f p x d t ∨ Refused f p x d t := by
  intro t
  obtain ⟨copy, ch, stays⟩ | ⟨full, r, hr, refused⟩ := addCopy_cases h.frame h.chain p trunc
  · left
    have run : t = addCopy d f x p x.cls none trunc := by
      simp only [t, orDropped, if_neg copy.lives]
      exact learnAtTail_waits stays h.tail
    rw [run]
    exact ⟨⟨_, stays, h.keyed, h.bytes, h.live⟩, copy⟩
  · right
    have flow := sameFlow_tcnt d x.tile r
    have none : copiesOf (tcnt d x.tile r) f = [] := (flow.copiesOf f).trans h.first
    have frame : frameOf (tcnt d x.tile r) f = some y := (flow.frameOf f).trans h.frame
    have run : t = setFrame (tcnt d x.tile r) f fun z => { z with dead := true } := by
      simp only [t, orDropped, refused, none, List.all_nil, if_true, dropFrame_waits frame h.tail h.plain]
      exact learnAtTail_waits (frameOf_setFrame _ frame) h.tail
    rw [run]
    exact ⟨⟨_, frameOf_setFrame _ frame, h.keyed, h.bytes, rfl⟩, (copies_setFrame ..).1.trans flow.copies,
      ⟨r, hr, rd_cnt_self ..⟩, full⟩

/-- A copy is tried for a live port; where none was made the frame is dropped. -/
theorem sendCopies_port (up : portDead d p = false) (f : Nat) (x : Frame) (trunc : Bool) : ∃ cut, sendCopies d f x [p] true x.cls none trunc =
    orDropped (addCopy (setFrame d f fun z => { z with cls := x.cls }) f x p x.cls none cut) f := by
  have alive : portDead (setFrame d f fun z => { z with cls := x.cls }) p = false := up
  simp only [sendCopies, List.foldl_cons, List.foldl_nil, alive, Bool.false_eq_true, if_false]
  exact ⟨_, rfl⟩

/-- What comes of the frame speaks of the copies and the registers before alone. -/
theorem outcome_from (h : Admitted f p x d t ∨ Refused f p x d t) (copies : d.buf.copies = u.buf.copies)
    (next : d.buf.nextCopy = u.buf.nextCopy) (regs : ∀ a, rd d a = rd u a) : Admitted f p x u t ∨ Refused f p x u t := by
  refine h.imp (fun a => ⟨a.frame, next ▸ a.copy⟩) fun r => ⟨r.frame, r.copies.trans copies, ?_, fun reserved => r.full ?_⟩
  · obtain ⟨o, mem, count⟩ := r.counted
    exact ⟨o, mem, by rw [count, regs]⟩
  · simpa only [Reserved, voqPart, sumCopies, classCfg, copies, regs] using reserved

theorem Ready.sendCopies (h : Ready f x y d) (up : portDead d p = false) (trunc : Bool) :
    let t := learnAtTail (sendCopies d f x [p] true x.cls none trunc) f
    Admitted f p x d t ∨ Refused f p x d t := by
  intro t
  obtain ⟨cut, run⟩ := sendCopies_port up f x trunc
  simp only [t, run]
  exact outcome_from ((h.classed x.cls).offered p cut) (copies_setFrame ..).1 (copies_setFrame ..).2 fun _ => rfl

/-- What comes of the frame speaks of frames, copies and registers alone. -/
theorem outcome_same (h : Admitted f p x d t ∨ Refused f p x d t) (flow : SameFlow t u)
    (regs : ∀ o, rd u (Reg.tile x.tile + o) = rd t (Reg.tile x.tile + o)) :
    Admitted f p x d u ∨ Refused f p x d u := by
  have keyed {dead : Bool} (k : Keyed f x dead t) : Keyed f x dead u := by
    obtain ⟨y, frame, rest⟩ := k
    exact ⟨y, (flow.frameOf f).trans frame, rest⟩
  refine h.imp (fun a => ⟨keyed a.frame, a.copy.same flow⟩) fun r => ⟨keyed r.frame, flow.copies.trans r.copies, ?_, r.full⟩
  obtain ⟨o, mem, count⟩ := r.counted
  exact ⟨o, mem, (regs o).trans count⟩

/-! ## The key search of one frame -/

/-- A frame that waits is the one whose key is searched. -/
theorem keySearch_one (frame : frameOf d f = some x) (keyed : x.keyed = false) (live : x.dead = false) (cls : x.cls < 7) :
    keySearch [(f, slot)] d =
      (decideFrame (searchKey d f x).2 (searchKey d f x).1).onBuf fun b => { b with freeing := [] } := by
  have wait : waiting d (f, slot) = some (f, slot, x) := by simp [waiting, frame, keyed, live, cls.ne]
  have key : inSlots d [(f, slot)] = [(f, slot, x)] := by simp [inSlots, wait, sortBy, insertBy]
  simp [keySearch, key, sortBy, insertBy]

/-- The end of a decision counts the cells that it freed. -/
theorem sameFlow_decideFrame (d : Dev) (v : Verdict) : SameFlow (takeVerdict d v) (decideFrame d v) :=
  .ite (sameFlow_onBuf _ _) (.refl _)

theorem rd_decideFrame (d : Dev) (v : Verdict) (a : Nat) : rd (decideFrame d v) a = rd (takeVerdict d v) a := by
  unfold decideFrame
  dsimp only
  split <;> rfl

/-- The tile takes an answer of one port and no mirror session. -/
theorem takeVerdict_port {v : Verdict} {z : Frame} (num : v.num = f) (hz : v.frame = z) (mir : v.mir = []) (red : v.red = false)
    (fate : v.fate = .send [p] true z.cls none) : takeVerdict d v =
      learnAtTail (sendCopies (setFrame d f fun y => { y with keyed := true }) f z [p] true z.cls none v.trunc) f := by
  subst num hz
  simp only [takeVerdict, mir, red, fate, List.foldl_nil, Bool.false_eq_true, if_false]

/-- The key search of a frame that its complex bridges to a live port. -/
theorem keySearch_bridges (frame : frameOf d f = some x) (hk : k = cplxOf x.inPort) (keyed : x.keyed = false) (live : x.dead = false)
    (tail : x.tailIn = false) (cls : x.cls < 7) (plain : x.inject = none)
    (off : ∀ n < 16, flag d (Reg.cplx k + Reg.ruleProfCfg n) 4 = false) (mirrors : d.tel.mirrors = []) (cause : tileCause d x = none)
    (bridged : Bridged d k x e) (up : portDead d e.dest = false) (first : copiesOf d f = []) :
    Admitted f e.dest (searched x) d (keySearch [(f, slot)] d) ∨ Refused f e.dest (searched x) d (keySearch [(f, slot)] d) := by
  obtain ⟨v, t, l, m, search, num, hz, mir, red, fate, stands⟩ := searchKey_bridges frame hk off mirrors cause bridged plain
  have stands := stands.setFrame fun y => { y with keyed := true }
  have ready : Ready f (searched x) _ (setFrame t f fun y => { y with keyed := true }) :=
    ⟨stands.frame, rfl, rfl, rfl, live, tail, plain, (stands.copiesOf f).trans first⟩
  have outcome := outcome_from (ready.sendCopies ((stands.portDead _).trans up) v.trunc) stands.copies stands.next stands.regs
  rw [keySearch_one frame keyed live cls, search]
  refine outcome_same outcome (.trans ?_ ((sameFlow_decideFrame t v).trans (sameFlow_onBuf _ _))) fun o => ?_
  · rw [takeVerdict_port num hz mir red fate]
    exact .refl _
  · rw [rd_onBuf, rd_decideFrame, takeVerdict_port num hz mir red fate]

end Sys2Proof.Machine
end

section
/-! Tails of frames that wait (R188, R189), and the statement on bridged unicast frames. -/

namespace Sys2Proof.Machine

open Sys2Proof

variable {d t u : Dev} {s : State} {f p : Nat} {x y : Frame}

/-! ## Frames that no longer change -/

/-- From d to t frames may have gone, and those that are left are as they were. -/
def FramesFall (d t : Dev) : Prop := ∀ f y, frameOf t f = some y → frameOf d f = some y

theorem FramesFall.refl (d : Dev) : FramesFall d d := fun _ _ => id

theorem FramesFall.trans (h : FramesFall d t) (g : FramesFall t u) : FramesFall d u := fun f y => h f y ∘ g f y

theorem FramesFall.ite {c : Prop} [Decidable c] (h : FramesFall d t) (g : FramesFall d u) : FramesFall d (if c then t else u) := by
  split
  · exact h
  · exact g

theorem FramesFall.foldl {α : Type} {g : Dev → α → Dev} (l : List α) (h : ∀ d x, FramesFall d (g d x)) (d : Dev) :
    FramesFall d (l.foldl g d) := by
  induction l generalizing d with
  | nil => exact .refl d
  | cons x l ih => exact (h d x).trans (ih _)

theorem FramesFall.of_frames (h : t.buf.frames = d.buf.frames) : FramesFall d t := fun f y e => by rwa [frameOf, h] at e

theorem SameFlow.fall (h : SameFlow d t) : FramesFall d t := .of_frames h.frames

theorem fall_onBuf (d : Dev) (g : Buf → Buf) (h : (g d.buf).frames = d.buf.frames := by rfl) : FramesFall d (d.onBuf g) := .of_frames h

theorem fall_sweepFrame (d : Dev) (f : Nat) : FramesFall d (sweepFrame d f) := by
  intro n y h
  unfold sweepFrame at h
  split at h
  · exact h
  · split at h
    · simp only [frameOf, Dev.onBuf_buf, tfind_tdel] at h
      split at h
      · cases h
      · exact h
    · exact h

theorem fall_setCopy (d : Dev) (c : Nat) (g : Copy → Copy) : FramesFall d (setCopy d c g) := fun n y h => by
  rwa [frameOf_setCopy] at h

theorem buf_injectDone (d : Dev) (f status stamp : Nat) : (injectDone d f status stamp).buf = d.buf :=
  (moves_injectDone (ps := [.host]) (rs := fun _ => False) d f status stamp (by simp)).buf (by simp)

theorem fall_injectDone (d : Dev) (f status stamp : Nat) : FramesFall d (injectDone d f status stamp) :=
  .of_frames (by rw [buf_injectDone])

theorem fall_removeCopy (d : Dev) (c : Nat) : FramesFall d (removeCopy d c) := by
  unfold removeCopy
  split
  · exact .refl d
  · exact FramesFall.trans (t := setEgr (d.onBuf fun b => { b with copies := tdel b.copies c }) _ _) (.of_frames rfl) (fall_sweepFrame _ _)

theorem fall_freeRack (d : Dev) (r : Rack) : FramesFall d (freeRack d r) := fall_onBuf d _

theorem fall_dropRec (d : Dev) (k v c : Nat) : FramesFall d (dropRec d k v c) :=
  .ite ((fall_onBuf d _).trans ((FramesFall.foldl _ fall_freeRack _).trans (.ite (fall_onBuf _ _) (.refl _)))) (.refl d)

theorem fall_endSpill (d : Dev) (k v : Nat) (left : Bool) : FramesFall d (endSpill d k v left) :=
  .ite (.refl d) ((FramesFall.foldl _ fall_freeRack d).trans ((fall_onBuf _ _).trans (sameFlow_checkSpill ..).fall))

theorem fall_voqChange {g : Dev → Dev} (k v : Nat) (h : FramesFall d (g d)) : FramesFall d (voqChange k v g d) :=
  h.trans ((FramesFall.ite (SameFlow.fall (sameFlow_tcnt _ _ _)) (.refl _)).trans (fall_endSpill _ k v _))

theorem fall_xoffExits (d : Dev) : FramesFall d (xoffExits d) :=
  .foldl _ (fun d _ => .ite ((fall_onBuf d _).trans (sameFlow_sendPfc ..).fall) (.refl d)) d

theorem fall_discardCopy (d : Dev) (c : Nat) : FramesFall d (discardCopy d c) := by
  unfold discardCopy
  split
  · exact .refl d
  · refine .trans ?_ (.trans (fall_voqChange _ _ ((fall_removeCopy _ c).trans (fall_dropRec _ _ _ c))) (fall_xoffExits _))
    exact .ite (fall_injectDone d _ 5 0) (.refl d)

theorem fall_corkOrDrop (d : Dev) (e : Nat × Copy) : FramesFall d (corkOrDrop d e) := by
  unfold corkOrDrop
  refine .ite (fall_setCopy d _ _) ?_
  split
  · exact (FramesFall.of_frames (by rw [cnt_buf])).trans (fall_discardCopy _ _)
  · exact fall_discardCopy _ _

/-! ## Tails -/

/-- What is left of a condemned frame is dead, and otherwise as it was (R245). -/
theorem frameOf_condemn (frame : frameOf d f = some x) (h : frameOf (condemn d f) f = some y) : y = { x with dead := true } := by
  unfold condemn condemnSome at h
  have still : frameOf (if ((frameOf d f).map (·.keyed)).getD true then d else injectDone d f 5 0) f = some x := by
    split
    · exact frame
    · rw [frameOf, buf_injectDone]
      exact frame
  have fell := fall_sweepFrame _ _ f y h
  have left := FramesFall.foldl _ fall_corkOrDrop _ f y fell
  exact Option.some.inj (left.symm.trans (frameOf_setFrame _ still))

theorem moves_setFrame (ps : List Piece) (rs : Nat → Prop) (d : Dev) (f : Nat) (g : Frame → Frame) (hb : .buf ∈ ps) :
    Moves ps rs d (setFrame d f g) :=
  moves_onBuf d _ hb (by cases tfind d.buf.frames f <;> exact ⟨rfl, rfl⟩)

/-- A good tail of a frame that waits for its answer, with nothing to learn. -/
theorem frameTail_good (frame : frameOf d f = some x) (tail : x.tailIn = false) (fcs : x.fcsOk = true) (learn : x.learn = none)
    (keyed : x.keyed = false) (live : x.dead = false) : frameTail f d = setFrame d f fun z => { z with tailIn := true } := by
  have stands := frameOf_setFrame (fun z => { z with tailIn := true }) frame
  have learned : learnAtTail (setFrame d f fun z => { z with tailIn := true }) f = setFrame d f fun z => { z with tailIn := true } := by
    simp [learnAtTail, stands, learn]
  simp [frameTail, frame, tail, fcs, learned, sweepFrame, stands, keyed, live]

theorem frameTail_stays (frame : frameOf s.dev f = some x) (tail : x.tailIn = false) (fcs : x.fcsOk = true) (learn : x.learn = none)
    (keyed : x.keyed = false) (live : x.dead = false) : Ends (.frameTail f) s fun t =>
      frameOf t f = some { x with tailIn := true } ∧ t.buf.copies = s.dev.buf.copies ∧
        (∀ g, g ≠ f → frameOf t g = frameOf s.dev g) ∧ OnlyParts [.buf] s.dev t ∧ OnlyRegs [] s.dev t := by
  have moved := moves_setFrame [.buf] (· ∈ ([] : List Nat)) (begun s) f (fun z => { z with tailIn := true }) (by simp)
  refine ends_of_runIf (f := frameTail f) rfl rfl ?_
  rw [frameTail_good (d := begun s) frame tail fcs learn keyed live]
  have flow := SameFlow.of_buf (settle_buf (setFrame (begun s) f fun z => { z with tailIn := true }))
  exact ⟨(flow.frameOf f).trans (frameOf_setFrame _ frame), flow.copies.trans (copies_setFrame ..).1,
    fun g other => (flow.frameOf g).trans (frameOf_setFrame_ne _ _ other), moved.onlyParts, moved.onlyRegs⟩

theorem frameTail_bad (frame : frameOf s.dev f = some x) (tail : x.tailIn = false) (fcs : x.fcsOk = false) :
    Ends (.frameTail f) s fun t => ∀ y, frameOf t f = some y → y.dead = true ∧ y.tailIn = true := by
  refine ends_of_runIf (f := frameTail f) rfl rfl fun y left => ?_
  have run : frameTail f (begun s) = condemn (setFrame (begun s) f fun z => { z with tailIn := true }) f := by
    simp [frameTail, show frameOf (begun s) f = some x from frame, tail, fcs]
  rw [run, (SameFlow.of_buf (settle_buf _)).frameOf] at left
  have stands : frameOf (setFrame (begun s) f fun z => { z with tailIn := true }) f = some { x with tailIn := true } :=
    frameOf_setFrame _ frame
  rw [frameOf_condemn stands left]
  exact ⟨rfl, rfl⟩

/-! ## The statement -/

/-- Settles O32: the search names the one port, admission there places the copy or counts the refusal, and the tail keeps or condemns. -/
theorem unicastFramesAreBridged : Obligations.UnicastFramesAreBridged := by
  intro s f x frame hp
  refine ⟨?_, frameTail_stays frame, frameTail_bad frame⟩
  intro e k slot hk hslot keyed live tail cls plain off mirrors cause vlan unicast source known router discard mcast lag other port alone
    up first
  have searched := keySearch_bridges (d := begun s) (slot := slot) frame hk keyed live tail cls plain off mirrors cause
    ⟨vlan, unicast, source, known, ⟨router, discard, mcast, lag⟩, other, alone⟩ up first
  refine ends_of_runIf (f := keySearch [(f, slot)]) rfl (by simpa [Instr.wf] using hslot) ?_
  have tile (o : Nat) : Reg.tile x.tile + o ≠ Reg.irqMsgCnt := by
    simp only [Reg.tile, Reg.irqMsgCnt]
    omega
  obtain admitted | refused := outcome_same searched (.of_buf (settle_buf _)) fun o => rd_settle _ (tile o)
  · obtain ⟨y, stands, keyed, bytes, live⟩ := admitted.frame
    exact ⟨y, stands, keyed, bytes, fun _ => admitted.copy.copy, fun _ => live, fun dead => absurd (live.symm.trans dead) (by decide)⟩
  · obtain ⟨y, stands, keyed, bytes, dead⟩ := refused.frame
    exact ⟨y, stands, keyed, bytes, fun live => absurd (live.symm.trans dead) (by decide), fun reserved => absurd reserved refused.full,
      fun _ => ⟨refused.copies, refused.counted⟩⟩

end Sys2Proof.Machine
end

section
/-! Racks of a spilled VOQ (R276, R283, R284): a rack whose records were all discarded in staging is free as soon as it is written. -/

namespace Sys2Proof.Machine

open Sys2Proof

/-- The first rack of VOQ 0 of tile 0, whose only record is staged still, waits for the stopped controller of stack 3; the second is full, but
its records were all discarded. The controller of stack 0 runs. -/
def secondRackEmpty : State :=
  { dev := { buf := {
      copies := [(0, { frame := 0, tile := 0, port := 0, cls := 0, cells := 1, part := .shared, tenant := 0, loc := .staging })]
      segs := [(segKey 0 0, {
        recs := [{ copy := 0, len := 4096, packed := false, start := 0 }]
        racks := [{ stack := 3, rack := 0, seq := 0, firstRec := some 0, recCount := 1, held := true }]
        written := 4096, laid := 8192 })]
      usedRacks := [(3, [0])], rackQ := [(3, [(segKey 0 0, 0)])], stackWake := [(3, 0)], running := [0] } } }

/-- The second rack is written and is free at once: only the first, held one is left. -/
theorem secondRackEmpty_racks :
    (segOf (settle (rackWrite 0 0 [] (begun secondRackEmpty))) 0 0).racks.length = 1 := by
  rw [segOf, settle_buf]
  decide +kernel

/-- Refutes O48: a rack all of whose records were discarded in staging is free as soon as it is written (R284); the statement lists it
with the racks of its segment. -/
theorem not_cellarRacksGoAndComeBack : ¬Obligations.CellarRacksGoAndComeBack := by
  intro h
  obtain ⟨racks, -⟩ := h secondRackEmpty 0 0 (by decide) (by decide)
  obtain ⟨goes, -⟩ := racks _ _ rfl rfl (by decide +kernel) (by decide +kernel) (by decide +kernel)
  obtain ⟨-, listed, -⟩ := Ends.effect (f := rackWrite 0 0 []) rfl (goes 0 0 false { copy := 0, len := 4096, packed := false, start := 0 } _
    (by decide +kernel) (by decide +kernel) (by decide +kernel) (by decide +kernel) (by decide +kernel) rfl rfl rfl rfl)
  have two := congrArg List.length (listed _ rfl)
  rw [secondRackEmpty_racks, List.length_append] at two
  exact absurd two (by decide +kernel)

end Sys2Proof.Machine
end

section
/-! Copies and frames that leave the device, in finer terms than their frames (R245, R264, R277, R284): the counters they touch, what is
left of the others, and the audits' records, which stay. -/

namespace Sys2Proof.Machine

open Sys2Proof

variable {d t u : Dev} {ps : List Piece} {rs : Nat → Prop}

/-! ## Counters -/

/-- The counters of a VOQ that spills or runs dry (R271, R280). -/
abbrev VoqCount (a : Nat) : Prop := ∃ k, a = Reg.tile k + Reg.spillCnt ∨ a = Reg.tile k + Reg.cellarHeadEmpty

section
variable (hb : .buf ∈ ps) (hr : ∀ a, VoqCount a → rs a)
include hb hr

theorem counts_checkSpill (d : Dev) (k v : Nat) : Moves ps rs d (checkSpill d k v) :=
  .ite ((moves_onBuf d _ hb).trans (moves_tcnt _ (hr _ ⟨k, .inl rfl⟩))) (.refl d)

theorem counts_endSpill (d : Dev) (k v : Nat) (left : Bool) : Moves ps rs d (endSpill d k v left) :=
  .ite (.refl d) ((Moves.foldl _ (fun d r _ => moves_freeRack d hb r) d).trans ((moves_onBuf _ _ hb).trans (counts_checkSpill hb hr _ k v)))

theorem counts_voqChange {f : Dev → Dev} (k v : Nat) (h : Moves ps rs d (f d)) : Moves ps rs d (voqChange k v f d) :=
  h.trans ((Moves.ite (moves_tcnt _ (hr _ ⟨k, .inr rfl⟩)) (.refl _)).trans (counts_endSpill hb hr _ k v _))

variable (he : .egr ∈ ps) (hh : .host ∈ ps)
include he hh

theorem counts_discardCopy (d : Dev) (c : Nat) : Moves ps rs d (discardCopy d c) := by
  unfold discardCopy
  split
  · exact .refl d
  · refine Moves.trans (.ite (moves_injectDone d _ 5 0 hh) (.refl d)) (.trans (counts_voqChange hb hr _ _ ?_) (moves_xoffExits _ hb he))
    exact (moves_removeCopy _ c hb he).trans (moves_dropRec _ hb _ _ c)

/-- A mirror copy that goes is counted with its session, too (R733). -/
theorem counts_corkOrDrop (d : Dev) (e : Nat × Copy) (hm : ∀ s, e.2.mirror = some s → rs (Reg.tile e.2.tile + Reg.mirDrop s)) :
    Moves ps rs d (corkOrDrop d e) := by
  unfold corkOrDrop
  refine .ite (moves_setCopy d hb ..) ?_
  split
  · rename_i s session
    exact (moves_cnt d (hm s session)).trans (counts_discardCopy hb hr he hh _ _)
  · exact counts_discardCopy hb hr he hh d _

theorem counts_condemnSome {p : Copy → Bool} (d : Dev) (f : Nat)
    (hm : ∀ c, p c = true → ∀ s, c.mirror = some s → rs (Reg.tile c.tile + Reg.mirDrop s)) : Moves ps rs d (condemnSome p d f) := by
  unfold condemnSome
  refine (Moves.ite (.refl d) (moves_injectDone d f 5 0 hh)).trans ((moves_setFrame ps rs _ f _ hb).trans
    (.trans (.foldl _ (fun d e he' => counts_corkOrDrop hb hr he hh d e (hm e.2 ?_)) _) (moves_sweepFrame _ hb f)))
  exact (List.mem_filter.1 he').2

end

/-! ## What is left -/

/-- The audits' own records, and the passes done. -/
structure AuditKept (x y : Buf) : Prop where
  lost : y.lost = x.lost
  crossCells : y.crossCells = x.crossCells
  crossRacks : y.crossRacks = x.crossRacks
  leesCells : y.leesCells = x.leesCells
  leesRacks : y.leesRacks = x.leesRacks
  leesCellAt : y.leesCellAt = x.leesCellAt
  leesRackAt : y.leesRackAt = x.leesRackAt
  overPass : y.overPass = x.overPass

theorem AuditKept.refl (x : Buf) : AuditKept x x := ⟨rfl, rfl, rfl, rfl, rfl, rfl, rfl, rfl⟩

theorem AuditKept.trans {x y z : Buf} (h : AuditKept x y) (g : AuditKept y z) : AuditKept x z :=
  ⟨g.lost.trans h.lost, g.crossCells.trans h.crossCells, g.crossRacks.trans h.crossRacks, g.leesCells.trans h.leesCells,
    g.leesRacks.trans h.leesRacks, g.leesCellAt.trans h.leesCellAt, g.leesRackAt.trans h.leesRackAt, g.overPass.trans h.overPass⟩

/-- From d to t copies and frames may have left, been corked or condemned; none has come, and the audits' records stay. -/
structure Loses (d t : Dev) : Prop where
  copies : ∀ n c, copyOf t n = some c → ∃ b, copyOf d n = some b ∧ (b.corked = true → c.corked = true)
  frames : ∀ f y, frameOf t f = some y → ∃ x, frameOf d f = some x ∧ (x.dead = true → y.dead = true)
  audits : AuditKept d.buf t.buf

theorem Loses.of_buf (h : t.buf = d.buf) : Loses d t where
  copies n c hc := ⟨c, by rwa [copyOf, ← h], id⟩
  frames f y hy := ⟨y, by rwa [frameOf, ← h], id⟩
  audits := h ▸ .refl _

theorem Loses.refl (d : Dev) : Loses d d := .of_buf rfl

theorem Loses.trans (h : Loses d t) (g : Loses t u) : Loses d u where
  copies n c hc := by
    obtain ⟨b, hb, bc⟩ := g.copies n c hc
    obtain ⟨a, ha, ab⟩ := h.copies n b hb
    exact ⟨a, ha, bc ∘ ab⟩
  frames f c hc := by
    obtain ⟨b, hb, bc⟩ := g.frames f c hc
    obtain ⟨a, ha, ab⟩ := h.frames f b hb
    exact ⟨a, ha, bc ∘ ab⟩
  audits := h.audits.trans g.audits

theorem Loses.ite {c : Prop} [Decidable c] (h : Loses d t) (g : Loses d u) : Loses d (if c then t else u) := by
  split
  · exact h
  · exact g

theorem Loses.foldl {α : Type} {g : Dev → α → Dev} (l : List α) (h : ∀ d x, Loses d (g d x)) (d : Dev) : Loses d (l.foldl g d) := by
  induction l generalizing d with
  | nil => exact .refl d
  | cons x l ih => exact (h d x).trans (ih _)

/-- A copy that is gone stays so, and one that is corked stays corked. -/
theorem Loses.none (h : Loses d t) {n : Nat} (gone : copyOf d n = none) : copyOf t n = none := by
  cases hc : copyOf t n with
  | none => rfl
  | some c =>
    obtain ⟨b, hb, -⟩ := h.copies n c hc
    exact absurd (hb.symm.trans gone) (by simp)

theorem Loses.out (h : Loses d t) {n : Nat} (out : ∀ c, copyOf d n = some c → c.corked = true) :
    ∀ c, copyOf t n = some c → c.corked = true := by
  intro c hc
  obtain ⟨b, hb, stays⟩ := h.copies n c hc
  exact stays (out b hb)

theorem Loses.dead (h : Loses d t) {f : Nat} (dead : ∀ y, frameOf d f = some y → y.dead = true) :
    ∀ y, frameOf t f = some y → y.dead = true := by
  intro y hy
  obtain ⟨x, hx, stays⟩ := h.frames f y hy
  exact stays (dead x hx)

/-- What each of a list of losses brings about stays so as the others follow. -/
theorem loses_each {β : Type} {g : Dev → β → Dev} {q : β → Dev → Prop} (loses : ∀ d x, Loses d (g d x)) (own : ∀ d x, q x (g d x))
    (stays : ∀ x d t, Loses d t → q x d → q x t) (l : List β) (d : Dev) :
    Loses d (l.foldl g d) ∧ ∀ x ∈ l, q x (l.foldl g d) := by
  refine ⟨.foldl l loses d, ?_⟩
  induction l generalizing d with
  | nil => exact fun x h => absurd h List.not_mem_nil
  | cons y l ih =>
    intro x hx
    rcases List.mem_cons.1 hx with rfl | hx
    · exact stays x _ _ (.foldl l loses _) (own d x)
    · exact ih _ x hx

/-- A change of the buffer beside copies, frames and the audits' records. -/
theorem loses_onBuf (d : Dev) (g : Buf → Buf) (hc : (g d.buf).copies = d.buf.copies := by rfl)
    (hf : (g d.buf).frames = d.buf.frames := by rfl) (ha : AuditKept d.buf (g d.buf) := by exact ⟨rfl, rfl, rfl, rfl, rfl, rfl, rfl, rfl⟩) :
    Loses d (d.onBuf g) where
  copies n c h := ⟨c, by rwa [copyOf, Dev.onBuf_buf, hc] at h, id⟩
  frames f y h := ⟨y, by rwa [frameOf, Dev.onBuf_buf, hf] at h, id⟩
  audits := ha

/-- A change of each entry that keeps its number. -/
theorem tfind_map {α : Type} (x : Tab α) (g : Nat × α → Nat × α) (key : ∀ e, (g e).1 = e.1) (n : Nat) :
    tfind (x.map g) n = (tfind x n).map fun v => (g (n, v)).2 := by
  induction x with
  | nil => rfl
  | cons e x ih =>
    rw [List.map_cons, tfind, tfind, key, ih]
    split
    · rename_i same
      subst same
      rfl
    · rfl

theorem loses_setCopy (d : Dev) (n : Nat) (g : Copy → Copy) (hg : ∀ c, c.corked = true → (g c).corked = true) :
    Loses d (setCopy d n g) where
  copies m c h := by
    rw [copyOf_setCopy] at h
    split at h
    · rename_i same
      subst same
      obtain ⟨b, hb, rfl⟩ := Option.map_eq_some_iff.1 h
      exact ⟨b, hb, hg b⟩
    · exact ⟨c, h, id⟩
  frames f y h := ⟨y, by rwa [frameOf_setCopy] at h, id⟩
  audits := by
    simp only [setCopy, Dev.onBuf_buf]
    split <;> exact ⟨rfl, rfl, rfl, rfl, rfl, rfl, rfl, rfl⟩

theorem loses_setFrame_dead (d : Dev) (f : Nat) : Loses d (setFrame d f fun x => { x with dead := true }) where
  copies n c h := ⟨c, by rwa [copyOf, (copies_setFrame ..).1] at h, id⟩
  frames n y h := by
    by_cases same : n = f
    · subst same
      cases hx : frameOf d n with
      | none =>
        rw [frameOf] at hx
        simp [frameOf, setFrame, hx] at h
      | some x =>
        rw [frameOf_setFrame _ hx] at h
        exact ⟨x, rfl, fun _ => Option.some.inj h ▸ rfl⟩
    · exact ⟨y, by rwa [frameOf_setFrame_ne _ _ same] at h, id⟩
  audits := by
    simp only [setFrame, Dev.onBuf_buf]
    split <;> exact ⟨rfl, rfl, rfl, rfl, rfl, rfl, rfl, rfl⟩

theorem loses_sweepFrame (d : Dev) (f : Nat) : Loses d (sweepFrame d f) where
  copies n c h := ⟨c, by rwa [copyOf, copies_sweepFrame] at h, id⟩
  frames n y h := ⟨y, fall_sweepFrame d f n y h, id⟩
  audits := by
    unfold sweepFrame
    split
    · exact .refl _
    · split <;> exact ⟨rfl, rfl, rfl, rfl, rfl, rfl, rfl, rfl⟩

theorem loses_cnt (d : Dev) (a : Nat) : Loses d (cnt d a) := .of_buf (cnt_buf ..)
theorem loses_freeRack (d : Dev) (r : Rack) : Loses d (freeRack d r) := loses_onBuf d _

theorem loses_dropRec (d : Dev) (k v c : Nat) : Loses d (dropRec d k v c) :=
  .ite ((loses_onBuf d _).trans ((Loses.foldl _ loses_freeRack _).trans (.ite (loses_onBuf _ _) (.refl _)))) (.refl d)

theorem loses_checkSpill (d : Dev) (k v : Nat) : Loses d (checkSpill d k v) :=
  .ite ((loses_onBuf d _).trans (loses_cnt ..)) (.refl d)

/-- Copies that join the head of their VOQ as its segment ends. -/
theorem loses_joinHead (d : Dev) (n : Nat) (g : Nat × Copy → Nat × Copy) (key : ∀ e, (g e).1 = e.1)
    (corked : ∀ e, e.2.corked = true → (g e).2.corked = true) :
    Loses d (d.onBuf fun b => { b with segs := tdel b.segs n, copies := b.copies.map g }) where
  copies m c h := by
    rw [copyOf, Dev.onBuf_buf, tfind_map _ _ key] at h
    obtain ⟨b, hb, rfl⟩ := Option.map_eq_some_iff.1 h
    exact ⟨b, hb, corked (m, b)⟩
  frames f y h := ⟨y, h, id⟩
  audits := ⟨rfl, rfl, rfl, rfl, rfl, rfl, rfl, rfl⟩

theorem loses_endSpill (d : Dev) (k v : Nat) (left : Bool) : Loses d (endSpill d k v left) :=
  .ite (.refl d) ((Loses.foldl _ loses_freeRack d).trans ((loses_joinHead _ _ _ (fun e => by dsimp only; split <;> rfl)
    fun e corked => by dsimp only; split <;> exact corked).trans (loses_checkSpill ..)))

/-- What follows a change of a VOQ lets nothing come. -/
theorem loses_voqChange (k v : Nat) (f : Dev → Dev) (d : Dev) : Loses (f d) (voqChange k v f d) :=
  Loses.trans (.ite (loses_cnt ..) (.refl _)) (loses_endSpill ..)

theorem loses_sendPfc (d : Dev) (p c time : Nat) : Loses d (sendPfc d p c time) := .ite (.refl d) (.of_buf rfl)

theorem loses_xoffExits (d : Dev) : Loses d (xoffExits d) :=
  .foldl _ (fun d _ => .ite ((loses_onBuf d _).trans (loses_sendPfc ..)) (.refl d)) d

theorem loses_takeOut (d : Dev) (n : Nat) : Loses d (d.onBuf fun b => { b with copies := tdel b.copies n }) where
  copies m c h := by
    rw [copyOf, Dev.onBuf_buf, tfind_tdel] at h
    split at h
    · cases h
    · exact ⟨c, h, id⟩
  frames f y h := ⟨y, h, id⟩
  audits := ⟨rfl, rfl, rfl, rfl, rfl, rfl, rfl, rfl⟩

/-- A copy taken out is gone. -/
theorem loses_removeCopy (d : Dev) (n : Nat) : Loses d (removeCopy d n) ∧ copyOf (removeCopy d n) n = none := by
  cases copy : copyOf d n with
  | none =>
    have run : removeCopy d n = d := by rw [removeCopy, copy]
    rw [run]
    exact ⟨.refl d, copy⟩
  | some x =>
    have run : removeCopy d n =
        sweepFrame (setEgr (d.onBuf fun b => { b with copies := tdel b.copies n }) x.port (without n)) x.frame := by
      unfold removeCopy without
      rw [copy]
    have out := loses_takeOut d n
    have gone : copyOf (d.onBuf fun b => { b with copies := tdel b.copies n }) n = none := tfind_tdel_self ..
    rw [run]
    generalize d.onBuf (fun b => { b with copies := tdel b.copies n }) = e at out gone
    have swept : Loses e (sweepFrame (setEgr e x.port (without n)) x.frame) := .trans (.of_buf (setEgr_buf ..)) (loses_sweepFrame _ _)
    exact ⟨out.trans swept, swept.none gone⟩

/-- The VOQ of a copy that was taken out, and pairs in XOFF, follow; the copy stays gone. -/
theorem loses_takenOut (d : Dev) (k v n : Nat) :
    Loses d (xoffExits (voqChange k v (fun d => dropRec (removeCopy d n) k v n) d)) ∧
      copyOf (xoffExits (voqChange k v (fun d => dropRec (removeCopy d n) k v n) d)) n = none := by
  obtain ⟨removed, gone⟩ := loses_removeCopy d n
  have after : Loses (removeCopy d n) (xoffExits (voqChange k v (fun d => dropRec (removeCopy d n) k v n) d)) :=
    (loses_dropRec (removeCopy d n) k v n).trans ((loses_voqChange k v (fun d => dropRec (removeCopy d n) k v n) d).trans (loses_xoffExits _))
  exact ⟨removed.trans after, after.none gone⟩

/-- A copy that is discarded is gone, and none has come. -/
theorem loses_discardCopy (d : Dev) (n : Nat) : Loses d (discardCopy d n) ∧ copyOf (discardCopy d n) n = none := by
  cases copy : copyOf d n with
  | none =>
    have run : discardCopy d n = d := by rw [discardCopy, copy]
    rw [run]
    exact ⟨.refl d, copy⟩
  | some x =>
    obtain ⟨u, injected, run⟩ : ∃ u, Loses d u ∧ discardCopy d n =
        xoffExits (voqChange x.tile x.voq (fun d => dropRec (removeCopy d n) x.tile x.voq n) u) := by
      rw [discardCopy, copy]
      exact ⟨_, .ite (.of_buf (buf_injectDone d x.frame 5 0)) (.refl d), rfl⟩
    obtain ⟨loses, gone⟩ := loses_takenOut u x.tile x.voq n
    rw [run]
    exact ⟨injected.trans loses, gone⟩

/-- A copy that is corked or dropped is gone, or it is corked. -/
theorem loses_corkOrDrop (d : Dev) (e : Nat × Copy) :
    Loses d (corkOrDrop d e) ∧ ∀ c, copyOf (corkOrDrop d e) e.1 = some c → c.corked = true := by
  have dropped (d : Dev) : Loses d (discardCopy d e.1) ∧ ∀ c, copyOf (discardCopy d e.1) e.1 = some c → c.corked = true := by
    obtain ⟨loses, gone⟩ := loses_discardCopy d e.1
    exact ⟨loses, fun c h => absurd (h.symm.trans gone) (by simp)⟩
  unfold corkOrDrop
  split
  · refine ⟨loses_setCopy d _ _ fun _ _ => rfl, fun c h => ?_⟩
    rw [copyOf_setCopy, if_pos rfl] at h
    obtain ⟨b, -, rfl⟩ := Option.map_eq_some_iff.1 h
    rfl
  · split
    · exact ⟨(loses_cnt ..).trans (dropped _).1, (dropped _).2⟩
    · exact dropped d

/-- A condemned frame is dead if it is still there, and its copies that are meant are gone or corked. -/
structure Condemned (p : Copy → Bool) (f : Nat) (d t : Dev) : Prop where
  loses : Loses d t
  dead : ∀ y, frameOf t f = some y → y.dead = true
  out : ∀ n c, copyOf d n = some c → c.frame = f → p c = true → ∀ k, copyOf t n = some k → k.corked = true

theorem condemned_condemnSome (p : Copy → Bool) (d : Dev) (f : Nat) : Condemned p f d (condemnSome p d f) := by
  unfold condemnSome
  dsimp only
  generalize hu : (if ((frameOf d f).map (·.keyed)).getD true then d else injectDone d f 5 0) = u
  have buf : u.buf = d.buf := by
    rw [← hu]
    split
    · rfl
    · exact buf_injectDone ..
  have marked := loses_setFrame_dead u f
  have dead : ∀ y, frameOf (setFrame u f fun x => { x with dead := true }) f = some y → y.dead = true := by
    cases hf : frameOf u f with
    | none =>
      have same : setFrame u f (fun x => { x with dead := true }) = u := by
        rw [frameOf] at hf
        simp only [setFrame, Dev.onBuf, hf]
      rw [same, hf]
      exact fun y h => absurd h (by simp)
    | some x =>
      rw [frameOf_setFrame _ hf]
      exact fun y h => Option.some.inj h ▸ rfl
  have same : (setFrame u f fun x => { x with dead := true }).buf.copies = d.buf.copies := by rw [(copies_setFrame ..).1, buf]
  generalize setFrame u f (fun x => { x with dead := true }) = m at marked dead same
  obtain ⟨corked, out⟩ := loses_each (q := fun e t => ∀ c, copyOf t e.1 = some c → c.corked = true) (fun d e => (loses_corkOrDrop d e).1)
    (fun d e => (loses_corkOrDrop d e).2) (fun e _ _ h => h.out) ((copiesOf m f).filter fun e => p e.2) m
  have swept := loses_sweepFrame (((copiesOf m f).filter fun e => p e.2).foldl corkOrDrop m) f
  refine ⟨(Loses.of_buf buf).trans (marked.trans (corked.trans swept)), (corked.trans swept).dead dead, fun n c hc hf hp => ?_⟩
  refine swept.out (out (n, c) (List.mem_filter.2 ⟨List.mem_filter.2 ⟨?_, decide_eq_true hf⟩, hp⟩))
  rw [same]
  exact mem_of_tfind hc

/-- A copy as it stands once an error in its cells is noted (R83, R245). -/
def errNoted (d : Dev) (n : Nat) (c : Copy) (holes : List Nat) : Dev :=
  setCopy (if c.onWire then junkBytes d n c holes else d) n fun c => { c with holes := c.holes ++ holes }

theorem condemnCopy_eq {n : Nat} {c : Copy} (copy : copyOf d n = some c) (holes : List Nat) : condemnCopy d n holes =
    if c.mirror.isSome then corkOrDrop (errNoted d n c holes) (n, c)
    else condemnSome (·.mirror.isNone) (errNoted d n c holes) c.frame := by
  rw [condemnCopy, copy]
  rfl

theorem condemnCopy_none {n : Nat} (copy : copyOf d n = none) (holes : List Nat) : condemnCopy d n holes = d := by
  rw [condemnCopy, copy]

theorem loses_junkBytes (d : Dev) (n : Nat) (c : Copy) (holes : List Nat) : Loses d (junkBytes d n c holes) :=
  .trans (.of_buf (fresh_buf d)) (loses_setCopy _ n _ fun _ => id)

theorem loses_errNoted (d : Dev) (n : Nat) (c : Copy) (holes : List Nat) : Loses d (errNoted d n c holes) :=
  .trans (.ite (loses_junkBytes d n c holes) (.refl d)) (loses_setCopy _ n _ fun _ => id)

theorem moves_errNoted (d : Dev) (n : Nat) (c : Copy) (holes : List Nat) (hb : .buf ∈ ps) : Moves ps rs d (errNoted d n c holes) :=
  .trans (.ite ((moves_fresh d).trans (moves_setCopy _ hb n _)) (.refl d)) (moves_setCopy _ hb n _)

theorem copyOf_junkBytes (d : Dev) (n : Nat) (c : Copy) (holes : List Nat) : ∃ l,
    copyOf (junkBytes d n c holes) n = (copyOf d n).map fun c => { c with bytes := some l } :=
  ⟨_, (copyOf_setCopy ..).trans (if_pos rfl)⟩

/-- It is the same copy of the same frame. -/
theorem copyOf_errNoted {n : Nat} {c : Copy} (copy : copyOf d n = some c) (holes : List Nat) :
    ∃ k, copyOf (errNoted d n c holes) n = some k ∧ k.frame = c.frame ∧ k.mirror = c.mirror := by
  obtain ⟨l, junk⟩ := copyOf_junkBytes d n c holes
  rw [errNoted, copyOf_setCopy, if_pos rfl]
  split
  · rw [junk, copy]
    exact ⟨_, rfl, rfl, rfl⟩
  · rw [copy]
    exact ⟨_, rfl, rfl, rfl⟩

/-- A copy with an error in its cells that no check mends is gone or corked (R245). -/
theorem loses_condemnCopy (d : Dev) (n : Nat) (holes : List Nat) :
    Loses d (condemnCopy d n holes) ∧ ∀ c, copyOf (condemnCopy d n holes) n = some c → c.corked = true := by
  cases copy : copyOf d n with
  | none =>
    rw [condemnCopy_none copy]
    exact ⟨.refl d, fun c h => absurd (h.symm.trans copy) (by simp)⟩
  | some c =>
    obtain ⟨k, hk, frame, mirror⟩ := copyOf_errNoted copy holes
    have noted := loses_errNoted d n c holes
    rw [condemnCopy_eq copy]
    generalize errNoted d n c holes = u at hk noted
    split
    · exact ⟨noted.trans (loses_corkOrDrop u (n, c)).1, (loses_corkOrDrop u (n, c)).2⟩
    · rename_i plain
      have condemned := condemned_condemnSome (·.mirror.isNone) u c.frame
      exact ⟨noted.trans condemned.loses, condemned.out n k hk frame (by rw [mirror]; simpa using plain)⟩

theorem counts_condemnCopy (hb : .buf ∈ ps) (hr : ∀ a, VoqCount a → rs a) (he : .egr ∈ ps) (hh : .host ∈ ps)
    (hm : ∀ k s, rs (Reg.tile k + Reg.mirDrop s)) (d : Dev) (n : Nat) (holes : List Nat) : Moves ps rs d (condemnCopy d n holes) := by
  cases copy : copyOf d n with
  | none =>
    rw [condemnCopy_none copy]
    exact .refl d
  | some c =>
    rw [condemnCopy_eq copy]
    exact (moves_errNoted d n c holes hb).trans (.ite (counts_corkOrDrop hb hr he hh _ _ fun s _ => hm _ s)
      (counts_condemnSome hb hr he hh _ _ fun c _ s _ => hm _ s))

end Sys2Proof.Machine
end

section
/-! The over-age pass and the lees audits (R298 to R307). -/

namespace Sys2Proof.Machine

open Sys2Proof

variable {d e t u : Dev} {s : State} {ps : List Piece} {rs : Nat → Prop}

/-! ## Over-age copies -/

/-- A copy that waits whole waits in no egress queue. -/
theorem waitKey_loc {c : Copy} (h : (waitKey c).isSome = true) : c.loc ≠ .queued := by
  intro queued
  simp [waitKey, queued] at h

/-- The only copy of the device is stale at its head or blocks its queue (R298). -/
theorem staleHeads_one (d : Dev) (id : Nat) {c : Copy} (wait : (waitKey c).isSome = true) :
    staleHeads d [(id, c)] [] = if overAge d c.tile c then [(id, c.tile)] else [] := by
  obtain ⟨k, hk⟩ := Option.isSome_iff_exists.1 wait
  simp [staleHeads, hk]

theorem staleEgress_none {id : Nat} {c : Copy} (copies : d.buf.copies = [(id, c)]) (loc : c.loc ≠ .queued) (p : Nat) :
    staleEgress d p = [] := by
  have none (i : Nat) : ((copyOf d i).map fun x => decide (x.loc = .queued) && overAge d (tileOf p) x).getD false = false := by
    rw [copyOf, copies, tfind, tfind]
    split <;> simp [loc]
  simp only [staleEgress, List.flatMap_eq_nil_iff, staleQueue, List.map_eq_nil_iff, List.takeWhile_eq_nil_iff]
  intro c _ h
  simp [none]

/-- The device as a pass that is due counts itself (R301). -/
def passCounted (d : Dev) : Dev := d.onBuf fun b => { b with overPass := d.buf.overPass + 1 }

/-- Copies with their tiles are discarded for their age (R300). -/
def ageDropped (l : List (Nat × Nat)) (d : Dev) : Dev := l.foldl (fun d e => discardCopy (tcnt d e.2 Reg.dropOverage) e.1) d

/-- The copies that a pass discards. -/
def staleCopies (d : Dev) : List (Nat × Nat) := staleHeads d d.buf.copies [] ++ (d.egr.map (·.1)).flatMap (staleEgress d)

/-- A pass that is due discards what is stale, and the heads' tags follow (R833). -/
theorem overagePass_due (live : alive d = true) (due : d.boot.releasedAt + (d.buf.overPass + 1) * (10 * ps_ms) ≤ d.now) :
    ∃ ports : List Nat, overagePass d = ports.foldl syncHeads (ageDropped (staleCopies (passCounted d)) (passCounted d)) := by
  have reached : reach d (d.boot.releasedAt + (d.buf.overPass + 1) * (10 * ps_ms)) = d := if_pos due
  rw [overagePass, if_neg (by simp [live])]
  dsimp only
  rw [reached]
  exact ⟨_, rfl⟩

theorem staleCopies_one {id : Nat} {c : Copy} (copies : d.buf.copies = [(id, c)]) (wait : (waitKey c).isSome = true) :
    staleCopies d = if overAge d c.tile c then [(id, c.tile)] else [] := by
  have egress : (d.egr.map (·.1)).flatMap (staleEgress d) = [] :=
    List.flatMap_eq_nil_iff.2 fun p _ => staleEgress_none copies (waitKey_loc wait) p
  rw [staleCopies, egress, List.append_nil, copies, staleHeads_one d id wait]

/-- Tags alone move as the heads of queues follow. -/
theorem moves_syncPorts (l : List Nat) (d : Dev) : Moves [.egr] (fun _ => False) d (l.foldl syncHeads d) :=
  .foldl l (fun d p _ => moves_syncHeads d p (by simp)) d

theorem overagePass_stale {id : Nat} {c : Copy} (live : alive s.dev = true)
    (due : s.dev.boot.releasedAt + (s.dev.buf.overPass + 1) * (10 * ps_ms) ≤ s.dev.now) (copies : s.dev.buf.copies = [(id, c)])
    (wait : (waitKey c).isSome = true) (tile : c.tile < 16) (stale : overAge s.dev c.tile c = true) : Ends .overagePass s fun t =>
      copyOf t id = none ∧ t.buf.overPass = s.dev.buf.overPass + 1 ∧
        rd t (Reg.tile c.tile + Reg.dropOverage) = (rd s.dev (Reg.tile c.tile + Reg.dropOverage) + 1) % two32 := by
  obtain ⟨ports, run⟩ := overagePass_due (d := begun s) live due
  have one : staleCopies (passCounted (begun s)) = [(id, c.tile)] := by
    rw [staleCopies_one (d := passCounted (begun s)) copies wait]
    exact if_pos stale
  have synced := moves_syncPorts ports (discardCopy (tcnt (passCounted (begun s)) c.tile Reg.dropOverage) id)
  rw [one] at run
  simp only [ageDropped, List.foldl_cons, List.foldl_nil] at run
  obtain ⟨loses, gone⟩ := loses_discardCopy (tcnt (passCounted (begun s)) c.tile Reg.dropOverage) id
  have counts : Moves [.buf, .egr, .host] VoqCount _ (discardCopy (tcnt (passCounted (begun s)) c.tile Reg.dropOverage) id) :=
    counts_discardCopy (by simp) (fun _ h => h) (by simp) (by simp) _ id
  have apart : ¬VoqCount (Reg.tile c.tile + Reg.dropOverage) := by
    rintro ⟨k, h | h⟩ <;> simp only [Reg.tile, Reg.dropOverage, Reg.spillCnt, Reg.cellarHeadEmpty] at h <;> omega
  refine ends_of_runIf (f := overagePass) rfl rfl ⟨?_, ?_, ?_⟩
  · rw [copyOf, settle_buf, run, synced.buf (by simp)]
    exact gone
  · rw [settle_buf, run, synced.buf (by simp), loses.audits.overPass, tcnt, cnt_buf]
    rfl
  · rw [rd_settle _ (by simp only [Reg.tile, Reg.irqMsgCnt]; omega), run, synced.regs _ not_false, counts.regs _ apart, tcnt, rd_cnt_self]
    rfl

theorem overagePass_young {id : Nat} {c : Copy} (live : alive s.dev = true)
    (due : s.dev.boot.releasedAt + (s.dev.buf.overPass + 1) * (10 * ps_ms) ≤ s.dev.now) (copies : s.dev.buf.copies = [(id, c)])
    (wait : (waitKey c).isSome = true) (young : overAge s.dev c.tile c = false) : Ends .overagePass s fun t =>
      copyOf t id = some c ∧ t.buf.overPass = s.dev.buf.overPass + 1 ∧ OnlyParts [.buf, .egr] s.dev t ∧ OnlyRegs [] s.dev t := by
  obtain ⟨ports, run⟩ := overagePass_due (d := begun s) live due
  have none : staleCopies (passCounted (begun s)) = [] := by
    rw [staleCopies_one (d := passCounted (begun s)) copies wait]
    exact if_neg (by simp [show overAge (passCounted (begun s)) c.tile c = false from young])
  have synced := moves_syncPorts ports (passCounted (begun s))
  rw [none] at run
  simp only [ageDropped, List.foldl_nil] at run
  have moved : Moves [.buf, .egr] (· ∈ ([] : List Nat)) (begun s) (overagePass (begun s)) := by
    rw [run]
    exact (moves_onBuf (begun s) _ (by simp)).trans (synced.mono (by simp) fun _ h => h.elim)
  refine ends_of_runIf (f := overagePass) rfl rfl ⟨?_, ?_, moved.onlyParts, moved.onlyRegs⟩
  · rw [copyOf, settle_buf, run, synced.buf (by simp)]
    show tfind s.dev.buf.copies id = some c
    rw [copies]
    exact if_pos rfl
  · rw [settle_buf, run, synced.buf (by simp)]
    rfl

/-! ## What a pass of the audit sees -/

theorem ownedCells_congr (h : t.buf = d.buf) (n : Nat) : ownedCells t n = ownedCells d n := by
  simp only [ownedCells, frameCells, tc7Cells, copiesOf, h]

theorem frameHere_congr (h : t.buf = d.buf) : frameHere t = frameHere d := by
  funext f
  simp only [frameHere, frameOf, copiesOf, h]

theorem linkHeld_congr (h : t.buf = d.buf) : linkHeld t = linkHeld d := by
  funext e
  simp only [linkHeld, frameHere_congr h, copyOf, h]

theorem linksFound_congr (h : t.buf = d.buf) (l : List CrossLink) : linksFound t l = linksFound d l := by
  rw [linksFound, linkHeld_congr h, linksFound]

theorem crossLinked_congr (h : t.buf = d.buf) (l : Tab (List CrossLink)) (n : Nat) : crossLinked t l n = crossLinked d l n := by
  rw [crossLinked, linkHeld_congr h, crossLinked]

/-- Links found among copies that are no mirror copies name no mirror copy. -/
theorem mirrors_of_linksFound {x : List (Nat × List Nat)} {l : CrossLink} (h : l ∈ linksFound d (joinLinks x [])) : l.mirrors = [] := by
  obtain ⟨n, -, rfl⟩ := List.mem_map.1 (List.mem_filter.1 h).1
  rfl

/-- A pass ends a period after the one before. -/
theorem waited_nextPass (d : Dev) (l : Tab Nat) (n period : Nat) :
    Waited (((tfind l n).map (· + period)).getD 0) d (nextPass d l n period) := by
  unfold nextPass
  cases tfind l n with
  | none => exact ⟨Nat.zero_le _, fun x _ _ => Same.refl x d, fun _ _ _ => rfl⟩
  | some a => exact waited_reach d (a + period)

/-! ## What a pass does with what it finds -/

/-- A pass that recorded words notifies the last of them (R306). -/
def lastNoted (head : List Byte) (last : Option Nat) (d : Dev) : Dev :=
  match last with
  | none => d
  | some w => note d 5 (head ++ toLe 4 w)

/-- The owners of each link are condemned, each word is recorded, and the last of them is notified (R305, R306). -/
def recordWords (record : Dev → Nat → Dev) (head : List Byte) (links : List CrossLink) (words : List Nat) (d : Dev) : Dev :=
  lastNoted head words.getLast? (words.foldl record (links.foldl condemnOwners d))

/-- The device has dealt with the links and the words: the links' frames are condemned, and each word is counted in the registers that
its record counts it in. -/
structure Recorded (record : Dev → Nat → Dev) (links : List CrossLink) (words : List Nat) (d t : Dev) : Prop where
  now : t.now = d.now
  audits : AuditKept d.buf t.buf
  dead : ∀ e ∈ links, ∀ f ∈ e.frames, ∀ y, frameOf t f = some y → y.dead = true
  quiet : links = [] → t.buf = d.buf
  counts : ∀ a, ¬VoqCount a → a ≠ Reg.fwEvc → a ≠ Reg.ntfLost → rd d a < two32 →
    (∀ d w, rd (record d w) a = (rd d a + 1) % two32) → rd t a = (rd d a + words.length) % two32

/-- A register that each step counts one in. -/
theorem rd_foldl_counts {β : Type} {g : Dev → β → Dev} {a : Nat} (one : ∀ d x, rd (g d x) a = (rd d a + 1) % two32) (l : List β)
    (d : Dev) (small : rd d a < two32) : rd (l.foldl g d) a = (rd d a + l.length) % two32 := by
  induction l generalizing d with
  | nil => exact (Nat.mod_eq_of_lt small).symm
  | cons x l ih =>
    rw [List.foldl_cons, ih _ (one d x ▸ Nat.mod_lt _ (by decide)), one, Nat.mod_add_mod, List.length_cons, Nat.add_assoc, Nat.add_comm 1]

/-- The frames of one link are condemned. -/
theorem loses_condemnOwners (d : Dev) (e : CrossLink) :
    Loses d (condemnOwners d e) ∧ ∀ f ∈ e.frames, ∀ y, frameOf (condemnOwners d e) f = some y → y.dead = true := by
  obtain ⟨loses, dead⟩ := loses_each (q := fun f t => ∀ y, frameOf t f = some y → y.dead = true)
    (fun d f => (condemned_condemnSome (·.mirror.isNone) d f).loses) (fun d f => (condemned_condemnSome (·.mirror.isNone) d f).dead)
    (fun _ _ _ h => h.dead) e.frames d
  have mirrors : Loses _ (condemnOwners d e) := .foldl e.mirrors (fun d c => (loses_condemnCopy d c []).1) _
  exact ⟨loses.trans mirrors, fun f hf => mirrors.dead (dead f hf)⟩

theorem counts_condemnOwners (d : Dev) {e : CrossLink} (plain : e.mirrors = []) :
    Moves [.buf, .egr, .host] VoqCount d (condemnOwners d e) := by
  rw [condemnOwners, plain]
  exact .foldl e.frames (fun d f _ => counts_condemnSome (by simp) (fun _ h => h) (by simp) (by simp) d f
    fun c hc s hs => by simp [hs] at hc) d

theorem moves_lastNoted (head : List Byte) (last : Option Nat) (d : Dev) :
    Moves [.host] (fun a => a = Reg.fwEvc ∨ a = Reg.ntfLost) d (lastNoted head last d) := by
  cases last with
  | none => exact .refl d
  | some w => exact moves_note d _ _ (by simp) (.inl rfl) (.inr rfl)

theorem recorded_recordWords {record : Dev → Nat → Dev} (keeps : ∀ d w, Moves [.tel] (fun _ => True) d (record d w)) (head : List Byte)
    {links : List CrossLink} (plain : ∀ e ∈ links, e.mirrors = []) (words : List Nat) (d : Dev) :
    Recorded record links words d (recordWords record head links words d) := by
  obtain ⟨loses, dead⟩ := loses_each (q := fun e t => ∀ f ∈ e.frames, ∀ y, frameOf t f = some y → y.dead = true)
    (fun d e => (loses_condemnOwners d e).1) (fun d e => (loses_condemnOwners d e).2) (fun _ _ _ h hq f hf => h.dead (hq f hf)) links d
  have owners : Moves [.buf, .egr, .host] VoqCount d (links.foldl condemnOwners d) :=
    .foldl links (fun d e he => counts_condemnOwners d (plain e he)) d
  have none : links = [] → (links.foldl condemnOwners d).buf = d.buf := by
    rintro rfl
    rfl
  unfold recordWords
  generalize links.foldl condemnOwners d = o at loses dead owners none
  have listed : Moves [.tel] (fun _ => True) o (words.foldl record o) := .foldl words (fun d w _ => keeps d w) o
  have counts (a : Nat) (small : rd o a < two32) (one : ∀ d w, rd (record d w) a = (rd d a + 1) % two32) :=
    rd_foldl_counts one words o small
  generalize words.foldl record o = w at listed counts
  have noted := moves_lastNoted head words.getLast? w
  have buf : (lastNoted head words.getLast? w).buf = o.buf := (noted.buf (by simp)).trans (listed.buf (by simp))
  refine ⟨?_, ?_, fun e he f hf y hy => ?_, fun h => buf.trans (none h), fun a voq evc lost small one => ?_⟩
  · rw [noted.now (by simp), listed.now (by simp), owners.now (by simp)]
  · rw [buf]
    exact loses.audits
  · rw [frameOf, buf] at hy
    exact dead e he f hf y hy
  · rw [noted.regs a (by simp [evc, lost]), counts a (owners.regs a voq ▸ small) one, owners.regs a voq]

/-! ## Cells -/

theorem leesCell_counts (n : Nat) {o : Nat} (ho : o = Reg.leesCellEvc ∨ o = Reg.leesCellReclaim) (d : Dev) (w : Nat) :
    rd (leesCell n d w) (Reg.tile n + o) = (rd d (Reg.tile n + o) + 1) % two32 := by
  have bb : Reg.tile n + o ≠ 0x20_0804 := by simp only [Reg.tile]; omega
  have apart : Reg.tile n + Reg.leesCellEvc ≠ Reg.tile n + Reg.leesCellReclaim := by simp [Reg.leesCellEvc, Reg.leesCellReclaim]
  rw [leesCell, rd_bb _ _ _ _ bb]
  rcases ho with rfl | rfl
  · rw [rd_wr_ne _ _ (by simp [Reg.leesCellEvc, Reg.leesCellLast]), tcnt, tcnt, rd_cnt_ne _ apart, rd_cnt_self]
  · rw [rd_wr_ne _ _ (by simp [Reg.leesCellReclaim, Reg.leesCellLast]), tcnt, tcnt, rd_cnt_self, rd_cnt_ne _ apart.symm]

theorem moves_leesCell (n : Nat) (d : Dev) (w : Nat) : Moves [.tel] (fun _ => True) d (leesCell n d w) :=
  (moves_tcnt d trivial).trans ((moves_tcnt _ trivial).trans ((moves_wr _ _ trivial).trans (moves_bb _ _ _ _ (by simp) trivial)))

/-- What a pass of tile n's cells enters in the audit's own records (R304, R305). -/
def cellsEntered (d : Dev) (n : Nat) (rest : List Nat) (links : List CrossLink) : Dev := d.onBuf fun b =>
  { b with
    leesCells := tput [] b.leesCells n rest
    lost := tput [] b.lost n rest
    crossCells := tput [] b.crossCells n (keepLinks d (tget [] b.crossCells n) links)
    leesCellAt := tins b.leesCellAt n d.now }

/-- A pass of a tile's cells, in terms of what it found as it ended. -/
theorem leesCellPass_runs {n : Nat} {l found gone : List Nat} {x : List (Nat × List Nat)} {links : List CrossLink} (live : alive d = true)
    (hf : found = unowned (ownedCells d n) (crossLinked d d.buf.crossCells n) (tget [] d.buf.lost n ++ l))
    (hg : gone = found.filter (tget [] d.buf.leesCells n).contains) (hl : links = linksFound d (joinLinks x [])) :
    ∃ e, Waited (((tfind d.buf.leesCellAt n).map (· + 10 * ps_ms)).getD 0) d e ∧ leesCellPass n l x [] d =
      recordWords (leesCell n) (toLe 4 n) links (gone ++ links.map fun e => e.num + 65536)
        (cellsEntered e n (found.filter fun c => !gone.contains c) links) := by
  have waited := waited_nextPass d d.buf.leesCellAt n (10 * ps_ms)
  refine ⟨_, waited, ?_⟩
  rw [leesCellPass, if_neg (by simp [live])]
  dsimp only
  generalize nextPass d d.buf.leesCellAt n (10 * ps_ms) = e at waited
  rw [← ownedCells_congr waited.buf, ← crossLinked_congr waited.buf, ← waited.buf] at hf
  rw [← waited.buf] at hg
  rw [← linksFound_congr waited.buf] at hl
  subst hf hg hl
  rfl

/-- The deadline of a pass that has one before it. -/
theorem Waited.period {l : Tab Nat} {n period : Nat} (w : Waited (((tfind l n).map (· + period)).getD 0) d e) :
    ∀ a, tfind l n = some a → a + period ≤ e.now := fun a h => by simpa [h] using w.due

theorem leesCellPass_ends {n : Nat} {l found gone : List Nat} {x : List (Nat × List Nat)} {links : List CrossLink}
    (live : alive s.dev = true) (hn : n < 16) (hl : ∀ c ∈ l, c < 49152) (hx : ∀ e ∈ x, e.1 < 49152)
    (hf : found = unowned (ownedCells s.dev n) (crossLinked s.dev s.dev.buf.crossCells n) (tget [] s.dev.buf.lost n ++ l))
    (hg : gone = found.filter (tget [] s.dev.buf.leesCells n).contains) (hk : links = linksFound s.dev (joinLinks x [])) :
    Ends (.leesCellPass n l x) s fun t =>
      rd t (Reg.tile n + Reg.leesCellReclaim) = (rd s.dev (Reg.tile n + Reg.leesCellReclaim) + gone.length + links.length) % two32 ∧
        rd t (Reg.tile n + Reg.leesCellEvc) = (rd s.dev (Reg.tile n + Reg.leesCellEvc) + gone.length + links.length) % two32 ∧
        tget [] t.buf.leesCells n = found.filter (fun c => !gone.contains c) ∧
        tget [] t.buf.lost n = found.filter (fun c => !gone.contains c) ∧
        tget [] t.buf.crossCells n = linksFound s.dev (tget [] s.dev.buf.crossCells n) ++ links ∧
        (∀ e ∈ links, ∀ f ∈ e.2, ∀ y, frameOf t f = some y → y.dead = true) ∧
        (∀ a, tfind s.dev.buf.leesCellAt n = some a → a + 10 * ps_ms ≤ t.now) ∧ tfind t.buf.leesCellAt n = some t.now ∧
        (links = [] → t.buf.frames = s.dev.buf.frames ∧ t.buf.copies = s.dev.buf.copies) := by
  obtain ⟨e, waited, run⟩ := leesCellPass_runs (d := begun s) (n := n) (l := l) (x := x) live hf hg hk
  have plain : ∀ k ∈ links, k.mirrors = [] := fun k h => mirrors_of_linksFound (hk ▸ h)
  have recorded := recorded_recordWords (moves_leesCell n) (toLe 4 n) plain (gone ++ links.map fun e => e.num + 65536)
    (cellsEntered e n (found.filter fun c => !gone.contains c) links)
  rw [← run] at recorded
  have unacked : ∀ n < 16, ∀ o ∈ [Reg.leesCellEvc, Reg.leesCellReclaim],
      Reg.fwAcked (Reg.tile n + o - 4) = false ∧ Reg.reset (Reg.tile n + o) < two32 := by decide
  have count (o : Nat) (ho : o = Reg.leesCellEvc ∨ o = Reg.leesCellReclaim) : rd (settle (leesCellPass n l x [] (begun s))) (Reg.tile n + o) =
      (rd s.dev (Reg.tile n + o) + gone.length + links.length) % two32 := by
    obtain ⟨quiet, small⟩ := unacked n hn o (by simpa using ho)
    have same : rd (cellsEntered e n (found.filter fun c => !gone.contains c) links) (Reg.tile n + o) = rd s.dev (Reg.tile n + o) :=
      waited.reg _ (by simp only [Reg.tile]; omega) quiet
    have voq : ¬VoqCount (Reg.tile n + o) := by
      rintro ⟨k, h⟩
      simp only [Reg.tile, Reg.leesCellEvc, Reg.leesCellReclaim, Reg.spillCnt, Reg.cellarHeadEmpty] at h ho
      omega
    rw [rd_settle _ (by simp only [Reg.tile, Reg.irqMsgCnt]; omega), recorded.counts _ voq (by simp only [Reg.tile, Reg.fwEvc]; omega)
      (by simp only [Reg.tile, Reg.ntfLost]; omega) (rd_lt _ small) (leesCell_counts n ho), same, List.length_append, List.length_map,
      Nat.add_assoc]
  have now : (settle (leesCellPass n l x [] (begun s))).now = e.now := (settle_now _).trans recorded.now
  have wf : Instr.wf (.leesCellPass n l x) = true := by
    simp only [Instr.wf, Bool.and_eq_true, decide_eq_true_eq, List.all_eq_true, List.append_nil, List.mem_append, List.mem_map]
    exact ⟨hn, fun c hc => hc.elim (hl c) fun ⟨k, hk, e⟩ => e ▸ hx k hk⟩
  refine ends_of_runIf (f := leesCellPass n l x []) rfl wf ⟨count _ (.inr rfl), count _ (.inl rfl), ?_, ?_, ?_, ?_, ?_, ?_, ?_⟩
  · rw [settle_buf, recorded.audits.leesCells]
    exact tget_tput_self ..
  · rw [settle_buf, recorded.audits.lost]
    exact tget_tput_self ..
  · rw [settle_buf, recorded.audits.crossCells]
    refine (tget_tput_self ..).trans ?_
    rw [keepLinks, linksFound_congr (waited.buf.trans (begun_buf s)), waited.buf, begun_buf]
  · intro k hk f hf y hy
    rw [frameOf, settle_buf] at hy
    exact recorded.dead k hk f hf y hy
  · rw [now]
    exact waited.period
  · rw [settle_buf, recorded.audits.leesCellAt, now]
    exact tfind_tins_self ..
  · intro none
    rw [settle_buf, recorded.quiet none]
    have same : e.buf = s.dev.buf := waited.buf.trans (begun_buf s)
    exact ⟨show e.buf.frames = _ by rw [same], show e.buf.copies = _ by rw [same]⟩

/-! ## Racks -/

theorem leesRack_counts (k : Nat) (d : Dev) (w : Nat) :
    rd (leesRack k d w) Reg.leesRackReclaim = (rd d Reg.leesRackReclaim + 1) % two32 := by
  rw [leesRack, rd_bb _ _ _ _ (by decide), rd_wr_ne _ _ (by decide), rd_cnt_self, rd_cnt_ne _ (by decide)]

theorem moves_leesRack (k : Nat) (d : Dev) (w : Nat) : Moves [.tel] (fun _ => True) d (leesRack k d w) :=
  (moves_cnt d trivial).trans ((moves_cnt _ trivial).trans ((moves_wr _ _ trivial).trans (moves_bb _ _ _ _ (by simp) trivial)))

/-- What a pass of stack n's racks enters in the audit's own records (R304, R305). -/
def racksEntered (d : Dev) (n : Nat) (gone rest : List Nat) (links : List CrossLink) : Dev := d.onBuf fun b =>
  { b with
    leesRacks := tput [] b.leesRacks n rest
    usedRacks := tput [] b.usedRacks n (((tget [] d.buf.usedRacks n).filter fun r => !gone.contains r) ++
      rest.filter fun r => !(tget [] d.buf.usedRacks n).contains r)
    crossRacks := tput [] b.crossRacks n (keepLinks d (tget [] b.crossRacks n) links)
    leesRackAt := tins b.leesRackAt n d.now }

theorem ownedRacks_congr (h : t.buf = d.buf) (n : Nat) : ownedRacks t n = ownedRacks d n := by rw [ownedRacks, h, ownedRacks]

/-- A pass of a running controller's racks, in terms of what it found as it ended. -/
theorem leesRackPass_runs {n : Nat} {l found gone : List Nat} {x : List (Nat × List Nat)} {links : List CrossLink} (live : alive d = true)
    (runs : n ∈ d.buf.running)
    (hf : found = unowned (ownedRacks d n) (crossLinked d d.buf.crossRacks n) (tget [] d.buf.usedRacks n ++ l))
    (hg : gone = found.filter (tget [] d.buf.leesRacks n).contains) (hl : links = linksFound d (joinLinks x [])) :
    ∃ e, Waited (((tfind d.buf.leesRackAt n).map (· + ps_s)).getD 0) d e ∧ leesRackPass n l x [] d =
      recordWords (leesRack n) (toLe 4 16) links (gone.map (· + 2 ^ 23 * n) ++ links.map fun e => e.num + 2 ^ 23 * n + 2 ^ 25)
        (racksEntered e n gone (found.filter fun c => !gone.contains c) links) := by
  have waited := waited_nextPass d d.buf.leesRackAt n ps_s
  refine ⟨_, waited, ?_⟩
  rw [leesRackPass, if_neg (by simp [live, runs])]
  dsimp only
  generalize nextPass d d.buf.leesRackAt n ps_s = e at waited
  rw [← ownedRacks_congr waited.buf, ← crossLinked_congr waited.buf, ← waited.buf] at hf
  rw [← waited.buf] at hg
  rw [← linksFound_congr waited.buf] at hl
  subst hf hg hl
  rfl

theorem leesRackPass_ends {n : Nat} {l found gone : List Nat} {x : List (Nat × List Nat)} {links : List CrossLink}
    (live : alive s.dev = true) (hn : n < 4) (hl : ∀ c ∈ l, c < 4161536) (hx : ∀ e ∈ x, e.1 < 4161536) (runs : n ∈ s.dev.buf.running)
    (hf : found = unowned (ownedRacks s.dev n) (crossLinked s.dev s.dev.buf.crossRacks n) (tget [] s.dev.buf.usedRacks n ++ l))
    (hg : gone = found.filter (tget [] s.dev.buf.leesRacks n).contains) (hk : links = linksFound s.dev (joinLinks x [])) :
    Ends (.leesRackPass n l x) s fun t =>
      rd t Reg.leesRackReclaim = (rd s.dev Reg.leesRackReclaim + gone.length + links.length) % two32 ∧
        tget [] t.buf.leesRacks n = found.filter (fun c => !gone.contains c) ∧
        (∀ a, tfind s.dev.buf.leesRackAt n = some a → a + ps_s ≤ t.now) ∧
        (∀ e ∈ links, ∀ f ∈ e.2, ∀ y, frameOf t f = some y → y.dead = true) ∧
        (links = [] → ∀ r, r ∈ gone → r ∉ tget [] t.buf.usedRacks n) := by
  obtain ⟨e, waited, run⟩ := leesRackPass_runs (d := begun s) (n := n) (l := l) (x := x) live runs hf hg hk
  have plain : ∀ k ∈ links, k.mirrors = [] := fun k h => mirrors_of_linksFound (hk ▸ h)
  have recorded := recorded_recordWords (moves_leesRack n) (toLe 4 16) plain
    (gone.map (· + 2 ^ 23 * n) ++ links.map fun e => e.num + 2 ^ 23 * n + 2 ^ 25)
    (racksEntered e n gone (found.filter fun c => !gone.contains c) links)
  rw [← run] at recorded
  have same : rd (racksEntered e n gone (found.filter fun c => !gone.contains c) links) Reg.leesRackReclaim = rd s.dev Reg.leesRackReclaim :=
    waited.reg _ (by decide) (by decide)
  have voq : ¬VoqCount Reg.leesRackReclaim := by
    rintro ⟨k, h⟩
    simp only [Reg.tile, Reg.leesRackReclaim, Reg.cellar, Reg.spillCnt, Reg.cellarHeadEmpty] at h
    omega
  have wf : Instr.wf (.leesRackPass n l x) = true := by
    simp only [Instr.wf, Bool.and_eq_true, decide_eq_true_eq, List.all_eq_true, List.append_nil, List.mem_append, List.mem_map]
    exact ⟨hn, fun c hc => hc.elim (hl c) fun ⟨k, hk, e⟩ => e ▸ hx k hk⟩
  refine ends_of_runIf (f := leesRackPass n l x []) rfl wf ⟨?_, ?_, ?_, ?_, ?_⟩
  · rw [rd_settle _ (by decide), recorded.counts _ voq (by decide) (by decide) (rd_lt _ (by decide)) (leesRack_counts n), same,
      List.length_append, List.length_map, List.length_map, Nat.add_assoc]
  · rw [settle_buf, recorded.audits.leesRacks]
    exact tget_tput_self ..
  · rw [settle_now, recorded.now]
    exact waited.period
  · intro k hk f hf y hy
    rw [frameOf, settle_buf] at hy
    exact recorded.dead k hk f hf y hy
  · intro none r hr
    rw [settle_buf, recorded.quiet none, racksEntered, Dev.onBuf_buf, tget_tput_self]
    simp [hr]

/-! ## The statement -/

/-- Settles O54: a pass of either kind is its deadline, what it found on the buffers as they stood, and the condemnation of what is
cross-linked. -/
theorem auditPassesReclaimAndDiscard : Obligations.AuditPassesReclaimAndDiscard := by
  intro s live
  refine ⟨fun id c due copies wait tile => ⟨overagePass_stale live due copies wait tile, overagePass_young live due copies wait⟩, ?_, ?_⟩
  · intro n l x found gone links hn hl hx _ hf hg hk
    exact leesCellPass_ends live hn hl hx hf hg hk
  · intro n l x found gone links hn hl hx runs _ hf hg hk
    exact leesRackPass_ends live hn hl hx runs hf hg hk

end Sys2Proof.Machine
end

section
/-! Queues, shapers and buckets (R263, R271, R360 to R366): registers of tiles and ports that firmware does not acknowledge, what a refill
does, what a shaper is set to, and what the two forms of QUEUE_SET write and find. -/

namespace Sys2Proof.Machine

open Sys2Proof

variable {d t e u : Dev} {s : State} {ps : List Piece} {rs : Nat → Prop} {p b k n : Nat}

/-! ## A bucket is refilled (R365) -/

theorem fwAcked_of_cfg {a : Nat} (h : Reg.plainKind a = some .cfg) (ha : 4 ≤ a) : Reg.fwAcked (a - 4) = false := by
  rw [Reg.fwAcked, Nat.sub_add_cancel ha, h]
  simp

theorem plainKind_pMode (hp : p < 512) : Reg.plainKind (Reg.port p + Reg.pMode) = some .cfg := by
  have off : (Reg.port p + Reg.pMode - 0x80_0000) % 0x1000 = Reg.pMode := by simp only [Reg.port, Reg.pMode]; omega
  have low : ¬Reg.port p + Reg.pMode < 0x80_0000 := by simp only [Reg.port, Reg.pMode]; omega
  have high : Reg.port p + Reg.pMode < 0xA0_0000 := by simp only [Reg.port, Reg.pMode]; omega
  simp only [Reg.plainKind, off, if_pos high, if_neg low]
  rw [if_neg (by omega), if_neg (by omega), if_neg (by omega), if_neg (by omega)]
  decide

theorem plainKind_shaper (hp : p < 512) {o : Nat} (least : 0x30 ≤ o) (most : o ≤ 0x6C) :
    Reg.plainKind (Reg.egr p + o) = some .cfg := by
  have low : ¬Reg.egr p + o < 0x100_0000 := by simp only [Reg.egr, Reg.tile]; omega
  have high : Reg.egr p + o < 0x200_0000 := by simp only [Reg.egr, Reg.tile]; omega
  have tile : (Reg.egr p + o) % 0x10_0000 = 0x4000 + 0x80 * (p % 32) + o := by simp only [Reg.egr, Reg.tile]; omega
  rw [Reg.plainKind, if_neg (by omega), if_neg (by omega), if_neg (by omega), if_neg (by omega), if_neg (by omega), if_neg (by omega),
    if_neg low, if_pos high, tile, Reg.tileKind, if_pos (by omega), show (0x4000 + 0x80 * (p % 32) + o) % 0x80 = o by omega]
  rw [Reg.inTab, if_neg (by omega), Reg.inTab, if_neg (by omega), Reg.inTab, if_pos (by omega)]

theorem Waited.bkt (w : Waited n d e) (hp : p < 512) (hb : b < 9) : bktGain e p b = bktGain d p b ∧ bktCap e p b = bktCap d p b := by
  have kept {a : Nat} (h : Reg.plainKind a = some .cfg) (ha : 0x20_0000 ≤ a) : rd e a = rd d a :=
    w.reg a ha (fwAcked_of_cfg h (by omega))
  by_cases governor : b = 8
  · have mode := kept (plainKind_pMode hp) (by simp only [Reg.port]; omega)
    simp only [bktGain, bktCap, if_pos governor, gbps', speedOf, fld, mode, and_self]
  · have rate := kept (plainKind_shaper hp (o := Reg.eShRate b) (by simp only [Reg.eShRate]; omega) (by simp only [Reg.eShRate]; omega))
      (by simp only [Reg.egr, Reg.tile]; omega)
    have burst := kept (plainKind_shaper hp (o := Reg.eShBurst b) (by simp only [Reg.eShBurst]; omega) (by simp only [Reg.eShBurst]; omega))
      (by simp only [Reg.egr, Reg.tile]; omega)
    simp only [bktGain, bktCap, if_neg governor, rate, burst, and_self]

/-- A bucket below 0 has been charged, and has not reached its burst. -/
theorem bktNow_below (h : (bktNow d p b).tokens < 0) : ∃ x, tfind (egrOf d p).buckets b = some x ∧
    (bktNow d p b).tokens = x.tokens + ((bktGain d p b * (d.now - x.since) : Nat) : Int) := by
  unfold bktNow at h ⊢
  split at h
  · rename_i x found
    refine ⟨x, found, ?_⟩
    simp only [Bucket.fill] at h ⊢
    split at h
    · omega
    · rename_i room
      rw [if_neg room]
  · simp only [Bucket.full] at h
    omega

theorem fill_tokens (x : Bucket) (gain cap now : Nat) :
    (x.fill gain cap now).tokens = min (cap : Int) (x.tokens + ((gain * (now - x.since) : Nat) : Int)) := by
  simp only [Bucket.fill]
  split <;> omega

theorem le_ceilDiv_mul (a : Nat) {g : Nat} (hg : 0 < g) : a ≤ g * ceilDiv a g := by
  have := Nat.lt_mul_div_succ (a + g - 1) hg
  rw [ceilDiv]
  rw [Nat.mul_succ] at this
  omega

/-- A bucket that has gained for as long as it needs holds 0 or more. -/
theorem fill_nonneg {x : Bucket} {gain cap now later : Nat} {a : Int} (hg : 0 < gain) (since : x.since ≤ now)
    (below : a = x.tokens + ((gain * (now - x.since) : Nat) : Int)) (due : now + ceilDiv (-a).toNat gain ≤ later) :
    0 ≤ (x.fill gain cap later).tokens := by
  have need := le_ceilDiv_mul (-a).toNat hg
  have gained : gain * (now - x.since) + gain * ceilDiv (-a).toNat gain ≤ gain * (later - x.since) := by
    rw [← Nat.mul_add]
    exact Nat.mul_le_mul_left _ (by omega)
  rw [fill_tokens]
  generalize gain * ceilDiv (-a).toNat gain = m at *
  generalize gain * (now - x.since) = m1 at *
  generalize gain * (later - x.since) = m2 at *
  omega

theorem buckets_setBkt (d : Dev) (p b : Nat) (x : Bucket) : (egrOf (setBkt d p b x) p).buckets = tins (egrOf d p).buckets b x := by
  simp [setBkt]

/-- When a bucket below 0 holds 0 tokens again. -/
def refillAt (d : Dev) (p b : Nat) : Nat := d.now + ceilDiv (-(bktNow d p b).tokens).toNat (bktGain d p b)

theorem tokenBucketRefill_runs (en : shaperEn d p b = true) (below : (bktNow d p b).tokens < 0) :
    tokenBucketRefill p b d = setBkt (reach d (refillAt d p b)) p b (bktNow (reach d (refillAt d p b)) p b) := by
  have low : ¬0 ≤ (bktNow d p b).tokens := by omega
  simp [tokenBucketRefill, en, low, refillAt]

theorem tokenBucketRefill_ends (hp : p < 512) (hb : b < 9) (en : shaperEn s.dev p b = true) (below : (bktNow s.dev p b).tokens < 0) :
    Ends (.tokenBucketRefill p b) s fun t =>
      s.dev.now + ceilDiv (-(bktNow s.dev p b).tokens).toNat (bktGain s.dev p b) ≤ t.now ∧
        (∃ x y, tfind (egrOf s.dev p).buckets b = some x ∧ tfind (egrOf t p).buckets b = some y ∧ y.since = t.now ∧
          y.tokens = min ((bktCap s.dev p b : Nat) : Int) (x.tokens + ((bktGain s.dev p b * (t.now - x.since) : Nat) : Int)) ∧
          (x.since ≤ s.dev.now → 0 < bktGain s.dev p b → 0 ≤ y.tokens)) ∧
        (∀ k, k ≠ b → tfind (egrOf t p).buckets k = tfind (egrOf s.dev p).buckets k) ∧
        (∀ q, q ≠ p → egrOf t q = egrOf s.dev q) ∧ OnlyParts [.now, .time, .egr] s.dev t := by
  obtain ⟨x, found, held⟩ := bktNow_below below
  refine ends_of_runIf (f := tokenBucketRefill p b) rfl (decide_eq_true ⟨hp, hb⟩) ?_
  have waited : Waited (refillAt s.dev p b) (begun s) (reach (begun s) (refillAt s.dev p b)) := waited_reach ..
  rw [tokenBucketRefill_runs (d := begun s) en below, show refillAt (begun s) p b = refillAt s.dev p b from rfl]
  generalize reach (begun s) (refillAt s.dev p b) = e at *
  have egr (q : Nat) : egrOf e q = egrOf s.dev q := by
    rw [egrOf, show e.egr = (begun s).egr from waited.parts .egr (by decide) (by decide)]
    rfl
  obtain ⟨gain, cap⟩ := waited.bkt hp hb
  have full : bktNow e p b = x.fill (bktGain s.dev p b) (bktCap s.dev p b) e.now := by
    rw [bktNow, egr, found, gain, cap]
    rfl
  rw [full]
  refine ⟨?_, ⟨x, x.fill (bktGain s.dev p b) (bktCap s.dev p b) e.now, found, ?_, ?_, ?_, fun since gains => ?_⟩, fun k hk => ?_,
    fun q hq => ?_, onlyParts_settle fun y hy => ?_⟩
  · rw [settle_now]
    exact waited.due
  · rw [egrOf_settle, buckets_setBkt, tfind_tins_self]
  · rw [settle_now]
    rfl
  · rw [settle_now]
    exact fill_tokens ..
  · exact fill_nonneg gains since held waited.due
  · rw [egrOf_settle, buckets_setBkt, tfind_tins_ne _ _ hk, egr]
  · rw [egrOf_settle, setBkt, egrOf_setEgr_ne _ _ hq, egr]
  · have far := not_mem_three hy
    refine Same.trans (waited.parts y far.1 far.2.1) ?_
    exact (moves_setEgr (ps := [.egr]) (rs := fun _ => False) e p _ (by simp)).parts y (by simpa using far.2.2)

/-! ## What a command leaves in the tiles -/

theorem served_of_moves {ch : Nat} {sl : Slot} (hs : Served s.dev ch sl) (h : Moves ps rs (begun s) t) (boot : .boot ∉ ps)
    (chan : .chan ∉ ps) (regs : ∀ o, o < 0x100 → ¬rs (Reg.chan ch + o)) : Served t ch sl := by
  obtain ⟨master, d3, -⟩ := h.access
  exact Served.of_same hs (h.boot boot) (h.parts .chan chan) master d3 (h.regs _ (regs _ (by decide)))

theorem rd_complete_tile {ch a : Nat} {sl : Slot} {r : Res} (hc : ch < 16) (hs : Served r.dev ch sl) (least : 0x100_0000 ≤ a)
    (most : a < 0x200_0000) : rd (settle (complete ch sl r)) a = rd r.dev a := by
  rw [rd_settle _ (by simp only [Reg.irqMsgCnt]; omega), rd_complete hc hs] <;>
    simp only [ChanReg, Reg.chan, Reg.coopBadFree, Reg.coopBadFreeLast, Reg.cc] <;> omega

theorem egrOf_complete {ch : Nat} {sl : Slot} {r : Res} (hc : ch < 16) (hs : Served r.dev ch sl) (q : Nat) :
    egrOf (settle (complete ch sl r)) q = egrOf r.dev q := by
  rw [egrOf_settle, egrOf, show (complete ch sl r).egr = r.dev.egr from
    complete_same hc hs (x := .egr) (by decide) (by decide) (by decide), egrOf]

theorem buf_complete {ch : Nat} {sl : Slot} {r : Res} (hc : ch < 16) (hs : Served r.dev ch sl) :
    (settle (complete ch sl r)).buf = r.dev.buf := by
  rw [settle_buf]
  exact complete_same hc hs (x := .buf) (by decide) (by decide) (by decide)

theorem egr_range (hp : p < 512) {o : Nat} (ho : o < 0x80) : 0x100_4000 ≤ Reg.egr p + o ∧ Reg.egr p + o < 0x200_0000 := by
  simp only [Reg.egr, Reg.tile]; omega

/-! ## A shaper is set (R360 to R365) -/

theorem rateE_bound (ok : rateOk k = true) : rateE k < 16 ∧ k * 2 ^ rateE k ≤ 400000000 := by
  obtain ⟨-, most⟩ := of_decide_eq_true ok
  have zero : 0 ∈ (List.range 16).filter fun e => decide (k * 2 ^ e ≤ 400000000) := by simp [most]
  have some := List.ne_nil_of_mem zero
  have last := List.mem_filter.1 (List.getLast_mem some)
  have eq : rateE k = ((List.range 16).filter fun e => decide (k * 2 ^ e ≤ 400000000)).getLast some := by
    rw [rateE, List.getLast?_eq_some_getLast some, Option.getD_some]
  rw [← eq] at last
  exact ⟨List.mem_range.1 last.1, of_decide_eq_true last.2⟩

theorem rateWord_lt (ok : rateOk k = true) : rateWord k < 2 ^ 20 := by
  obtain ⟨e, base⟩ := rateE_bound ok
  have m : rateM k ≤ 65536 := by
    unfold rateM
    omega
  unfold rateWord
  omega

/-- The registers of a shaper. -/
def shaperRegs (p b : Nat) : List Nat := [Reg.egr p + Reg.eShRate b, Reg.egr p + Reg.eShBurst b]

/-- A device with a shaper's registers written. -/
def shaperWritten (d : Dev) (p b : Nat) (en : Bool) (k burst : Nat) : Dev :=
  wr (wr d (Reg.egr p + Reg.eShRate b) (rateWord k + 2 ^ 31 * b2n en)) (Reg.egr p + Reg.eShBurst b) burst

theorem moves_shaperWritten (d : Dev) (p b : Nat) (en : Bool) (k burst : Nat) :
    Moves [.egr] (· ∈ shaperRegs p b) d (shaperWritten d p b en k burst) :=
  (moves_wr d _ (by simp [shaperRegs])).trans (moves_wr _ _ (by simp [shaperRegs]))

theorem moves_setBkt (d : Dev) (p b : Nat) (x : Bucket) (h : .egr ∈ ps) : Moves ps rs d (setBkt d p b x) := moves_setEgr d p _ h

theorem moves_setShaper (d : Dev) (p b : Nat) (en : Bool) (k burst : Nat) :
    Moves [.egr] (· ∈ shaperRegs p b) d (setShaper d p b en k burst) :=
  (moves_shaperWritten d p b en k burst).trans (.ite (moves_setBkt _ p b _ (by simp)) (moves_setBkt _ p b _ (by simp)))

theorem rd_setShaper (d : Dev) (p b : Nat) (en : Bool) (k burst a : Nat) :
    rd (setShaper d p b en k burst) a = rd (shaperWritten d p b en k burst) a := by
  unfold setShaper shaperWritten
  dsimp only
  split <;> rfl

theorem setShaper_written (d : Dev) (p : Nat) {b : Nat} (en : Bool) {burst : Nat} (ok : rateOk k = true) (small : burst < two32) :
    rd (setShaper d p b en k burst) (Reg.egr p + Reg.eShRate b) = rateWord k + 2 ^ 31 * b2n en ∧
      rd (setShaper d p b en k burst) (Reg.egr p + Reg.eShBurst b) = burst := by
  have word := rateWord_lt ok
  have one : b2n en ≤ 1 := by cases en <;> simp [b2n]
  have ne : Reg.egr p + Reg.eShRate b ≠ Reg.egr p + Reg.eShBurst b := by simp only [Reg.eShRate, Reg.eShBurst]; omega
  rw [rd_setShaper, rd_setShaper, shaperWritten, rd_wr_ne _ _ ne, rd_wr_self, rd_wr_self]
  refine ⟨Nat.mod_eq_of_lt ?_, Nat.mod_eq_of_lt small⟩
  simp only [two32]
  omega

/-- A shaper newly enabled is full (R365). -/
theorem setShaper_full (d : Dev) (p : Nat) {b : Nat} (en : Bool) (k : Nat) {burst : Nat} (small : burst < 2 ^ 25) (hb : b < 8)
    (was : shaperEn d p b = false) : (tget {} (egrOf (setShaper d p b en k burst) p).buckets b).tokens = (burst * tokenUnit : Nat) := by
  have cap : bktCap (shaperWritten d p b en k burst) p b = burst * tokenUnit := by
    rw [bktCap, bktUnit, if_neg (by omega), if_neg (by omega), shaperWritten, rd_wr_self, two32, Nat.mod_mod_of_dvd _ (by decide),
      Nat.mod_eq_of_lt small, Nat.mul_comm]
  have run : setShaper d p b en k burst = setBkt (shaperWritten d p b en k burst) p b
      (.full (bktCap (shaperWritten d p b en k burst) p b) d.now) := by
    rw [setShaper, was, Bool.and_false]
    rfl
  rw [run, buckets_setBkt, tget, tfind_tins_self, cap]
  rfl

/-- What SHAPER_SET gives for good settings (Table 12-12). -/
def shaperDone (d : Dev) (p b k : Nat) (l : List Byte) : Res :=
  { dev := putCfg (setShaper d p b (bit (le l 3 1) 0) k (le l 8 4)) 41 (8 * p + b) (l.drop 3)
    payload := toLe 1 (rateE k) ++ [0] ++ toLe 2 (rateM k - 1) ++ toLe 4 (rateSet k)
    vint := true }

theorem shaperSet_ends {ch : Nat} {sl : Slot} {l : List Byte} (hl : l = sl.payload) (hc : ch < 16) (hs : Served s.dev ch sl)
    (ha : Accepted s.dev ch sl 0x402 0) (len : sl.len = 12) (hp : p = le l 0 2) (hb : b = le l 2 1) (hk : k = le l 4 4) (h512 : p < 512)
    (h8 : b < 8) (en : le l 3 1 ≤ 1) (least : 64 ≤ le l 8 4) (most : le l 8 4 ≤ 16777216) (ok : rateOk k = true) :
    Ends (.shaperSet ch) s fun t =>
      AnsweredOk s.dev t ch sl (toLe 1 (rateE k) ++ [0] ++ toLe 2 (rateM k - 1) ++ toLe 4 (rateSet k)) ∧
        t.host.vintage = nextVintage s.dev.host.vintage ∧
        rd t (Reg.egr p + Reg.eShRate b) = rateWord k + 2 ^ 31 * le l 3 1 ∧ rd t (Reg.egr p + Reg.eShBurst b) = le l 8 4 ∧
        (flag s.dev (Reg.egr p + Reg.eShRate b) 31 = false →
          (tget {} (egrOf t p).buckets b).tokens = (le l 8 4 * tokenUnit : Nat)) ∧
        OnlyRegsBeside ch [Reg.egr p + Reg.eShRate b, Reg.egr p + Reg.eShBurst b] s.dev t := by
  have enabled : b2n (bit (le l 3 1) 0) = le l 3 1 := by
    obtain h | h : le l 3 1 = 0 ∨ le l 3 1 = 1 := by omega
    all_goals rw [h]; rfl
  obtain ⟨rate, burst⟩ := setShaper_written (begun s) p (b := b) (bit (le l 3 1) 0) ok
    (show le l 8 4 < two32 by simp only [two32]; omega)
  have full := setShaper_full (begun s) p (b := b) (bit (le l 3 1) 0) k (show le l 8 4 < 2 ^ 25 by omega) h8
  have moved : Moves [.egr, .host] (· ∈ shaperRegs p b) (begun s) (shaperDone (begun s) p b k l).dev :=
    ((moves_setShaper ..).mono (by simp) fun _ h => h).trans (moves_putCfg _ _ _ _ (by simp))
  have run : shaperSetRes (begun s) sl = shaperDone (begun s) p b k l := by
    simp [shaperSetRes, shaperDone, ← hl, ← hp, ← hb, ← hk, h512, h8, en, least, most, ok]
  have mailbox (o : Nat) (ho : o < 0x100) : Reg.chan ch + o ∉ shaperRegs p b := by
    simp only [shaperRegs, List.mem_cons, List.not_mem_nil, or_false, Reg.chan, Reg.egr, Reg.tile]; omega
  have served := served_of_moves hs moved (by simp) (by simp) mailbox
  refine ends_cmd (op := 0x402) (fl := 0) (flags := 0) rfl (decide_eq_true hc) hc hs ha rfl (by simp [lenIs, len]) rfl ?_
  obtain ⟨answered, -, vintage, regs, -⟩ := completed_of_moves hc hs moved (by simp) (by simp) mailbox rfl
  rw [run]
  refine ⟨answered, vintage, ?_, ?_, fun off => ?_, regs _ fun _ h => h⟩
  · obtain ⟨low, high⟩ := egr_range h512 (o := Reg.eShRate b) (by simp only [Reg.eShRate]; omega)
    rw [rd_complete_tile hc served (by omega) high, ← enabled]
    exact rate
  · obtain ⟨low, high⟩ := egr_range h512 (o := Reg.eShBurst b) (by simp only [Reg.eShBurst]; omega)
    rw [rd_complete_tile hc served (by omega) high]
    exact burst
  · rw [egrOf_complete hc served]
    refine full ?_
    rw [shaperEn, if_neg (by omega)]
    exact off

/-! ## A port's queues are set (R263, R264) -/

theorem le_four (l : List Byte) (o : Nat) : le l o 4 = le l o 2 + 65536 * le l (o + 2) 2 := by
  rw [le, le, le, ← List.drop_drop]
  rcases l.drop o with _ | ⟨a, _ | ⟨b, _ | ⟨c, _ | ⟨e, r⟩⟩⟩⟩ <;> simp [leVal] <;> omega

theorem wr_regs_congr (h : t.regs = d.regs) (a v : Nat) : (wr t a v).regs = (wr d a v).regs := by simp only [wr, h]

/-- What devices with the same registers are written, they share. -/
theorem foldl_regs_congr {β : Type} {f : Dev → β → Dev} (step : ∀ d t x, t.regs = d.regs → (f t x).regs = (f d x).regs) (l : List β)
    (h : t.regs = d.regs) : (l.foldl f t).regs = (l.foldl f d).regs := by
  induction l generalizing d t with
  | nil => exact h
  | cons x l ih => exact ih (step d t x h)

theorem poolTooSmall_congr (h : t.regs = d.regs) (ts : List Nat) : poolTooSmall t ts = poolTooSmall d ts := by
  have same : rd t = rd d := funext fun a => by rw [rd, h, rd]
  have rest : sharedRest t = sharedRest d := funext fun n => by simp only [sharedRest, headroomSize, resSize, guarSize, classCfg, same]
  simp only [poolTooSmall, rest]

/-- A device with the class weights of a port written. -/
def weightsWritten (p : Nat) (l : List Byte) (d : Dev) : Dev :=
  (List.range 8).foldl (fun d c => wr d (Reg.egr p + Reg.eClass c) (le l (4 + c) 1)) d

theorem setPortQueues_eq (d : Dev) (l : List Byte) (hp : p = le l 2 2) : setPortQueues d l =
    wr (wr (weightsWritten p l d) (Reg.portPfcCfg p) (le l 12 1 + 65536 * le l 14 2)) (Reg.portPfcHr p) (le l 16 4) := by
  subst hp
  rfl

theorem weightWrites_regs (p : Nat) (l : List Byte) (cs : List Nat) (h : t.regs = d.regs) :
    (cs.foldl (fun d c => wr d (Reg.egr p + Reg.eClass c) (le l (4 + c) 1)) t).regs =
      (cs.foldl (fun d c => wr d (Reg.egr p + Reg.eClass c) (le l (4 + c) 1)) d).regs :=
  foldl_regs_congr (f := fun d c => wr d (Reg.egr p + Reg.eClass c) (le l (4 + c) 1)) (fun _ _ _ h => wr_regs_congr h ..) cs h

theorem setPortQueues_regs (l : List Byte) (h : t.regs = d.regs) : (setPortQueues t l).regs = (setPortQueues d l).regs := by
  rw [setPortQueues_eq t l rfl, setPortQueues_eq d l rfl]
  exact wr_regs_congr (wr_regs_congr (weightWrites_regs _ l (List.range 8) h) ..) ..

/-- The registers of a port's queues. -/
def queueRegs (p : Nat) : List Nat := Reg.portPfcCfg p :: Reg.portPfcHr p :: (List.range 8).map fun c => Reg.egr p + Reg.eClass c

theorem moves_weightWrites (d : Dev) (p : Nat) (l : List Byte) {cs : List Nat} (hcs : ∀ c ∈ cs, c < 8) :
    Moves [] (· ∈ queueRegs p) d (cs.foldl (fun d c => wr d (Reg.egr p + Reg.eClass c) (le l (4 + c) 1)) d) := by
  refine Moves.foldl cs (fun d c hc => moves_wr d _ ?_) d
  simpa [queueRegs] using .inr (.inr ⟨c, hcs c hc, rfl⟩)

theorem moves_weightsWritten (d : Dev) (p : Nat) (l : List Byte) : Moves [] (· ∈ queueRegs p) d (weightsWritten p l d) :=
  moves_weightWrites d p l fun _ => List.mem_range.1

theorem moves_setPortQueues (d : Dev) (l : List Byte) (hp : p = le l 2 2) : Moves [] (· ∈ queueRegs p) d (setPortQueues d l) := by
  rw [setPortQueues_eq d l hp]
  exact (moves_weightsWritten d p l).trans ((moves_wr _ _ (by simp [queueRegs])).trans (moves_wr _ _ (by simp [queueRegs])))

theorem pfc_ne_class (p c : Nat) : Reg.egr p + Reg.eClass c ≠ Reg.portPfcCfg p ∧ Reg.egr p + Reg.eClass c ≠ Reg.portPfcHr p := by
  simp only [Reg.egr, Reg.eClass, Reg.portPfcCfg, Reg.portPfcHr, Reg.tile]; omega

theorem rd_weightsWritten (d : Dev) (p : Nat) (l : List Byte) {c : Nat} (hc : c < 8) :
    rd (weightsWritten p l d) (Reg.egr p + Reg.eClass c) = le l (4 + c) 1 % two32 := by
  have each := foldl_copies (f := fun d c => wr d (Reg.egr p + Reg.eClass c) (le l (4 + c) 1))
    (get := fun d c => rd d (Reg.egr p + Reg.eClass c)) (g := fun c _ => le l (4 + c) 1 % two32) (fun d k => rd_wr_self ..)
    (fun d k j h => rd_wr_ne _ _ (by simp only [Reg.eClass]; omega)) (List.nodup_range (n := 8)) d c
  rwa [if_pos (List.mem_range.2 hc)] at each

theorem rd_setPortQueues (d : Dev) (l : List Byte) (hp : p = le l 2 2) :
    (∀ c < 8, rd (setPortQueues d l) (Reg.egr p + Reg.eClass c) = le l (4 + c) 1) ∧
      rd (setPortQueues d l) (Reg.portPfcCfg p) = le l 12 1 + 65536 * le l 14 2 ∧
      rd (setPortQueues d l) (Reg.portPfcHr p) = le l 16 4 := by
  rw [setPortQueues_eq d l hp]
  have on := le_lt l 12 1
  have xoff := le_lt l 14 2
  have hr := le_lt l 16 4
  have apart : Reg.portPfcCfg p ≠ Reg.portPfcHr p := by simp only [Reg.portPfcCfg, Reg.portPfcHr]; omega
  refine ⟨fun c hc => ?_, ?_, ?_⟩
  · have byte := le_lt l (4 + c) 1
    obtain ⟨notCfg, notHr⟩ := pfc_ne_class p c
    rw [rd_wr_ne _ _ notHr, rd_wr_ne _ _ notCfg, rd_weightsWritten d p l hc, two32]
    omega
  · rw [rd_wr_ne _ _ apart, rd_wr_self, two32]
    omega
  · rw [rd_wr_self, two32]
    omega

theorem pairUse_congr (h : SameFlow d t) (p c : Nat) (pt : Part) : pairUse t p c pt = pairUse d p c pt := by
  simp only [pairUse, sumCopies, h.copies, h.frameOf]

/-- What a property keeps, a list of steps keeps. -/
theorem foldl_keeps_prop {β : Type} {f : Dev → β → Dev} {P : Dev → Prop} (keeps : ∀ d x, P d → P (f d x)) (l : List β) (h : P d) :
    P (l.foldl f d) := by
  induction l generalizing d with
  | nil => exact h
  | cons x l ih => exact ih (keeps d x h)

/-- A property that one step of a list brings about, and every step keeps, holds after the list. -/
theorem foldl_brings {β : Type} {f : Dev → β → Dev} {P Q : Dev → Prop} {x : β} {l : List β} (keepP : ∀ d y, P d → P (f d y))
    (keepQ : ∀ d y, Q d → Q (f d y)) (own : ∀ d, P d → Q (f d x)) (hx : x ∈ l) (h : P d) : Q (l.foldl f d) := by
  induction l generalizing d with
  | nil => exact absurd hx List.not_mem_nil
  | cons y l ih =>
    obtain rfl | later := List.mem_cons.1 hx
    · exact foldl_keeps_prop keepQ l (own d h)
    · exact ih later (keepP d y h)

/-- A lossless pair of port p holds as many shared cells as its XOFF allows, and more than it may hold to leave XOFF. -/
structure XoffDue (p c : Nat) (d : Dev) : Prop where
  lossless : lossless d p c = true
  held : pairUse d p c .shared ≠ 0
  full : rd d (Reg.portPfcCfg p) / 65536 ≤ pairUse d p c .shared
  stays : rd d (Reg.portPfcCfg p) / 65536 < pairUse d p c .shared + rd d (Reg.portPfcHr p) / 65536

theorem XoffDue.same {c : Nat} (h : XoffDue p c d) (flow : SameFlow d t) (cfg : rd t (Reg.portPfcCfg p) = rd d (Reg.portPfcCfg p))
    (hr : rd t (Reg.portPfcHr p) = rd d (Reg.portPfcHr p)) : XoffDue p c t where
  lossless := by rw [Machine.lossless, cfg]; exact h.lossless
  held := by rw [pairUse_congr flow]; exact h.held
  full := by rw [pairUse_congr flow, cfg]; exact h.full
  stays := by rw [pairUse_congr flow, cfg, hr]; exact h.stays

/-- The counters of XOFF. -/
abbrev XoffCount (p a : Nat) : Prop := a = Reg.tile (tileOf p) + Reg.pfcXoffCnt

/-- A device whose pair has entered XOFF, before it says so. -/
def xoffEntered (d : Dev) (p c : Nat) : Dev := d.onBuf fun b => { b with xoff := tins b.xoff (8 * p + c) (d.now + 32768 * quantum d p) }

theorem enterXoff_eq (d : Dev) (p c : Nat) : enterXoff d p c =
    if xoffOn d p c then d else sendPfc (tcnt (xoffEntered d p c) (tileOf p) Reg.pfcXoffCnt) p c 0xFFFF := rfl

theorem moves_xoffEntered (d : Dev) (p c : Nat) : Moves [.buf, .egr] rs d (xoffEntered d p c) :=
  moves_onBuf (ps := [.buf, .egr]) d _ (by simp)

theorem moves_enterXoff (d : Dev) (p c : Nat) : Moves [.buf, .egr] (XoffCount p) d (enterXoff d p c) := by
  have hp : Piece.egr ∈ [Piece.buf, .egr] := by simp
  rw [enterXoff_eq]
  exact .ite (.refl d) ((moves_xoffEntered d p c).trans ((moves_tcnt _ (show XoffCount p _ from rfl)).trans (moves_sendPfc _ _ _ _ hp)))

theorem moves_checkXoff (d : Dev) (p c : Nat) (pt : Part) : Moves [.buf, .egr] (XoffCount p) d (checkXoff d p c pt) :=
  .ite (moves_enterXoff d p c) (.refl d)

/-- The pair is checked where it holds shared cells. -/
def checkPair (p : Nat) (d : Dev) (c : Nat) : Dev := if pairUse d p c .shared = 0 then d else checkXoff d p c .shared

theorem moves_checkPair (p : Nat) (d : Dev) (c : Nat) : Moves [.buf, .egr] (XoffCount p) d (checkPair p d c) :=
  .ite (.refl d) (moves_checkXoff d p c _)

theorem sameFlow_checkPair (p : Nat) (d : Dev) (c : Nat) : SameFlow d (checkPair p d c) := .ite (.refl d) (sameFlow_checkXoff d p c _)

theorem settlePairs_eq (d : Dev) (p : Nat) : settlePairs d p = xoffExits ((List.range 7).foldl (checkPair p) d) := rfl

theorem pfc_ne_xoffCnt (p q : Nat) : ¬XoffCount q (Reg.portPfcCfg p) ∧ ¬XoffCount q (Reg.portPfcHr p) := by
  simp only [XoffCount, Reg.portPfcCfg, Reg.portPfcHr, Reg.pfcXoffCnt, Reg.tile]; omega

theorem xoffDue_checkPair {c : Nat} (h : XoffDue p c d) (j : Nat) : XoffDue p c (checkPair p d j) := by
  obtain ⟨cfg, hr⟩ := pfc_ne_xoffCnt p p
  have moved := moves_checkPair p d j
  exact h.same (sameFlow_checkPair p d j) (moved.regs _ cfg) (moved.regs _ hr)

theorem xoff_enterXoff (d : Dev) (p c : Nat) : (enterXoff d p c).buf.xoff =
    if xoffOn d p c then d.buf.xoff else tins d.buf.xoff (8 * p + c) (d.now + 32768 * quantum d p) := by
  rw [enterXoff_eq]
  split
  · rfl
  · rw [(moves_sendPfc (ps := [.egr]) (rs := fun _ => False) _ p c 0xFFFF (by simp)).buf (by simp), tcnt, cnt_buf]
    rfl

theorem xoffOn_enterXoff_self (d : Dev) (p c : Nat) : xoffOn (enterXoff d p c) p c = true := by
  rw [xoffOn, xoff_enterXoff]
  split
  · assumption
  · simp

theorem xoffOn_enterXoff {c j : Nat} (h : xoffOn d p c = true) : xoffOn (enterXoff d p j) p c = true := by
  rw [xoffOn, xoff_enterXoff]
  split
  · exact h
  · by_cases own : 8 * p + c = 8 * p + j
    · rw [own, tfind_tins_self]
      rfl
    · rw [tfind_tins_ne _ _ own]
      exact h

theorem xoffOn_checkPair {c : Nat} (h : xoffOn d p c = true) (j : Nat) : xoffOn (checkPair p d j) p c = true := by
  unfold checkPair checkXoff
  split
  · exact h
  · split
    · exact xoffOn_enterXoff h
    · exact h

theorem xoffDue_enters {c : Nat} (h : XoffDue p c d) : xoffOn (checkPair p d c) p c = true := by
  obtain ⟨lossless, held, full, -⟩ := h
  rw [checkPair, if_neg held, checkXoff, if_pos (by simp [lossless, full])]
  exact xoffOn_enterXoff_self d p c

theorem xoffDue_leaveXoff {c : Nat} (hc : c < 7) (h : XoffDue p c d ∧ xoffOn d p c = true) (k : Nat) :
    XoffDue p c (leaveXoff d (k / 8) (k % 8)) ∧ xoffOn (leaveXoff d (k / 8) (k % 8)) p c = true := by
  obtain ⟨due, on⟩ := h
  unfold leaveXoff
  split
  · rename_i leaves
    have other : 8 * p + c ≠ 8 * (k / 8) + k % 8 := by
      intro own
      obtain ⟨rfl, rfl⟩ : p = k / 8 ∧ c = k % 8 := by omega
      have full := due.full
      have stays := due.stays
      simp only [Bool.and_eq_true, decide_eq_true_eq] at leaves
      omega
    have moved := moves_sendPfc (ps := [.egr]) (rs := fun _ => False)
      (d.onBuf fun b => { b with xoff := tdel b.xoff (8 * (k / 8) + k % 8) }) (k / 8) (k % 8) 0 (by simp)
    refine ⟨due.same ((sameFlow_onBuf d _).trans (sameFlow_sendPfc ..)) (moved.regs _ id) (moved.regs _ id), ?_⟩
    rw [xoffOn, moved.buf (by simp)]
    show (tfind (tdel d.buf.xoff _) _).isSome = true
    rw [tfind_tdel_ne _ other]
    exact on
  · exact ⟨due, on⟩

theorem xoffDue_checkPairs {c : Nat} {cs : List Nat} (hc : c ∈ cs) (h : XoffDue p c d) :
    XoffDue p c (cs.foldl (checkPair p) d) ∧ xoffOn (cs.foldl (checkPair p) d) p c = true :=
  foldl_brings (P := XoffDue p c) (Q := fun d => XoffDue p c d ∧ xoffOn d p c = true) (fun _ j due => xoffDue_checkPair due j)
    (fun _ j both => ⟨xoffDue_checkPair both.1 j, xoffOn_checkPair both.2 j⟩)
    (fun _ due => ⟨xoffDue_checkPair due c, xoffDue_enters due⟩) hc h

theorem xoffDue_exits {c : Nat} (hc : c < 7) (l : Tab Nat) (h : XoffDue p c d ∧ xoffOn d p c = true) :
    xoffOn (l.foldl (fun d e => leaveXoff d (e.1 / 8) (e.1 % 8)) d) p c = true :=
  (foldl_keeps_prop (P := fun d => XoffDue p c d ∧ xoffOn d p c = true) (fun _ e both => xoffDue_leaveXoff hc both e.1) l h).2

/-- A pair that is due is in XOFF once the pairs are settled. -/
theorem xoffDue_settlePairs {c : Nat} (hc : c < 7) (h : XoffDue p c d) : xoffOn (settlePairs d p) p c = true := by
  rw [settlePairs_eq, xoffExits]
  exact xoffDue_exits hc _ (xoffDue_checkPairs (List.mem_range.2 hc) h)

theorem moves_checkPairs (p : Nat) (cs : List Nat) (d : Dev) : Moves [.buf, .egr] (XoffCount p) d (cs.foldl (checkPair p) d) :=
  Moves.foldl cs (fun d c _ => moves_checkPair p d c) d

theorem moves_settlePairs (d : Dev) (p : Nat) : Moves [.buf, .egr] (XoffCount p) d (settlePairs d p) := by
  rw [settlePairs_eq]
  exact (moves_checkPairs p _ d).trans (moves_xoffExits _ (by simp) (by simp))

theorem xoffExits_nil (h : d.buf.xoff = []) : xoffExits d = d := by rw [xoffExits, h]; rfl

/-- Where no pair holds shared cells and none is in XOFF, nothing is settled. -/
theorem settlePairs_idle (idle : ∀ c < 7, pairUse d p c .shared = 0) (none : d.buf.xoff = []) : settlePairs d p = d := by
  have checks : (List.range 7).foldl (checkPair p) d = d := by
    refine List.foldlRecOn (motive := (· = d)) (List.range 7) (checkPair p) rfl fun e same c hc => ?_
    rw [same, checkPair, if_pos (idle c (List.mem_range.1 hc))]
  rw [settlePairs_eq, checks, xoffExits_nil none]

/-- A port's queues are set and recorded. -/
def queuesRecorded (d : Dev) (p : Nat) (l : List Byte) : Dev := putCfg (setPortQueues d l) 39 p (l.drop 4)

/-- What QUEUE_SET makes of good settings of a port: they are recorded, and its pairs go by them (log entry 29). -/
def queuesSettled (d : Dev) (p : Nat) (l : List Byte) : Dev := settlePairs (queuesRecorded d p l) p

theorem queueSetRes_port {sl : Slot} {l : List Byte} (hl : l = sl.payload) (len : sl.len = 20) (sel : le l 0 1 = 0) (hp : p = le l 2 2)
    (ok : portQueuesOk l = true) (pool : poolTooSmall (setPortQueues d l) [tileOf p] = false) :
    queueSetRes d sl = { dev := queuesSettled d p l, vint := true } := by
  rw [hp] at pool
  simp [queueSetRes, queuesSettled, queuesRecorded, ← hl, len, sel, hp, ok, pool]

/-- The registers that settings of a port may write. -/
def portSettingRegs (p a : Nat) : Prop := a ∈ queueRegs p ∨ XoffCount p a

theorem moves_queuesRecorded (d : Dev) (l : List Byte) (hp : p = le l 2 2) :
    Moves [.host] (· ∈ queueRegs p) d (queuesRecorded d p l) :=
  ((moves_setPortQueues d l hp).mono (by simp) fun _ h => h).trans (moves_putCfg _ _ _ _ (by simp))

theorem moves_queuesSettled (d : Dev) (l : List Byte) (hp : p = le l 2 2) :
    Moves [.buf, .egr, .host] (portSettingRegs p) d (queuesSettled d p l) := by
  rw [queuesSettled]
  exact ((moves_queuesRecorded d l hp).mono (by simp) fun _ h => .inl h).trans ((moves_settlePairs _ p).mono (by simp) fun _ h => .inr h)

theorem rd_queuesRecorded (d : Dev) (p : Nat) (l : List Byte) (a : Nat) :
    rd (queuesRecorded d p l) a = rd (setPortQueues d l) a := by rw [queuesRecorded, putCfg, rd_onHost]

theorem rd_queuesSettled (d : Dev) (l : List Byte) (hp : p = le l 2 2) :
    (∀ c < 8, rd (queuesSettled d p l) (Reg.egr p + Reg.eClass c) = le l (4 + c) 1) ∧
      rd (queuesSettled d p l) (Reg.portPfcCfg p) = le l 12 1 + 65536 * le l 14 2 ∧
      rd (queuesSettled d p l) (Reg.portPfcHr p) = le l 16 4 := by
  have written := rd_setPortQueues d l hp
  have kept {a : Nat} (ha : ¬XoffCount p a) : rd (queuesSettled d p l) a = rd (setPortQueues d l) a := by
    rw [queuesSettled, (moves_settlePairs _ p).regs a ha, rd_queuesRecorded]
  obtain ⟨cfg, hr⟩ := pfc_ne_xoffCnt p p
  rw [kept cfg, kept hr]
  refine ⟨fun c hc => ?_, written.2⟩
  rw [kept (by simp only [XoffCount, Reg.egr, Reg.eClass, Reg.pfcXoffCnt, Reg.tile]; omega), written.1 c hc]

/-- A lossless class that holds more than its new XOFF allows is in XOFF from then on (R263). -/
theorem xoffOn_queuesSettled (d : Dev) (l : List Byte) (hp : p = le l 2 2) {c : Nat} (h7 : c < 7) (on : bit (le l 12 1) c = true)
    (held : 0 < pairUse d p c .shared) (full : le l 14 2 ≤ pairUse d p c .shared)
    (more : le l 14 2 < pairUse d p c .shared + le l 18 2) : xoffOn (queuesSettled d p l) p c = true := by
  have flow : SameFlow d (queuesRecorded d p l) := .of_buf ((moves_queuesRecorded d l hp).buf (by simp))
  obtain ⟨-, cfg, hr⟩ := rd_setPortQueues d l hp
  rw [← rd_queuesRecorded d p l] at cfg hr
  rw [le_four l 16, show 16 + 2 = 18 from rfl] at hr
  have classes : le l 12 1 < 256 := le_lt l 12 1
  have room : le l 16 2 < 65536 := le_lt l 16 2
  have lossless : bit (le l 12 1 + 65536 * le l 14 2) c = true := by
    rw [← bit_mod _ 8 c (by omega), show (le l 12 1 + 65536 * le l 14 2) % 2 ^ 8 = le l 12 1 by omega, on]
  rw [queuesSettled]
  refine xoffDue_settlePairs h7 ⟨?_, ?_, ?_, ?_⟩
  · rw [Machine.lossless, cfg, lossless, decide_eq_true h7, Bool.and_self]
  · rw [pairUse_congr flow]
    omega
  · rw [pairUse_congr flow, cfg]
    omega
  · rw [pairUse_congr flow, cfg, hr]
    omega

theorem queuesSettled_idle (d : Dev) (l : List Byte) (hp : p = le l 2 2) (idle : ∀ c < 7, pairUse d p c .shared = 0)
    (none : d.buf.xoff = []) : queuesSettled d p l = queuesRecorded d p l := by
  have kept := (moves_queuesRecorded d l hp).buf (by simp)
  rw [queuesSettled, settlePairs_idle (fun c h => (pairUse_congr (.of_buf kept) p c _).trans (idle c h)) (kept ▸ none)]

theorem queueRegs_range (hp : p < 512) {a : Nat} (h : a ∈ queueRegs p) : 0x100_0000 ≤ a ∧ a < 0x200_0000 := by
  simp only [queueRegs, List.mem_cons, List.mem_map, List.mem_range] at h
  obtain rfl | rfl | ⟨c, hc, rfl⟩ := h <;> simp only [Reg.portPfcCfg, Reg.portPfcHr, Reg.egr, Reg.eClass, Reg.tile] <;> omega

theorem xoffCount_range (hp : p < 512) {a : Nat} (h : XoffCount p a) : 0x100_0000 ≤ a ∧ a < 0x200_0000 := by
  simp only [XoffCount, tileOf, Reg.tile, Reg.pfcXoffCnt] at h; omega

theorem chan_below {ch o : Nat} (hc : ch < 16) (ho : o < 0x100) : Reg.chan ch + o < 0x100_0000 := by
  simp only [Reg.chan]; omega

theorem queueSet_port {ch : Nat} {sl : Slot} {l : List Byte} (hl : l = sl.payload) (hc : ch < 16) (hs : Served s.dev ch sl)
    (ha : Accepted s.dev ch sl 0x401 0) (len : sl.len = 20) (sel : le l 0 1 = 0) (hp : p = le l 2 2) (ok : portQueuesOk l = true)
    (pool : poolTooSmall (setPortQueues s.dev l) [tileOf p] = false) : Ends (.queueSet ch) s fun t =>
      AnsweredOk s.dev t ch sl [] ∧ t.host.vintage = nextVintage s.dev.host.vintage ∧
        (∀ c < 8, rd t (Reg.egr p + Reg.eClass c) = le l (4 + c) 1) ∧
        rd t (Reg.portPfcCfg p) = le l 12 1 + 65536 * le l 14 2 ∧ rd t (Reg.portPfcHr p) = le l 16 4 ∧
        (∀ c < 7, bit (le l 12 1) c = true → 0 < pairUse s.dev p c .shared → le l 14 2 ≤ pairUse s.dev p c .shared →
          le l 14 2 < pairUse s.dev p c .shared + le l 18 2 → xoffOn t p c = true) ∧
        ((∀ c < 7, pairUse s.dev p c .shared = 0) → s.dev.buf.xoff = [] →
          OnlyRegsBeside ch (Reg.portPfcCfg p :: Reg.portPfcHr p :: (List.range 8).map fun c => Reg.egr p + Reg.eClass c) s.dev t) := by
  have h512 : p < 512 := by
    simp only [portQueuesOk, Bool.and_eq_true, decide_eq_true_eq] at ok
    omega
  have same : poolTooSmall (setPortQueues (begun s) l) [tileOf p] = false := by
    rw [poolTooSmall_congr (setPortQueues_regs l (begun_regs s)), pool]
  have moved := moves_queuesSettled (begun s) l hp
  obtain ⟨weights, cfg, hr⟩ := rd_queuesSettled (begun s) l hp
  have xoff := fun c => xoffOn_queuesSettled (begun s) l hp (c := c)
  have only (idle : ∀ c < 7, pairUse (begun s) p c .shared = 0) (none : (begun s).buf.xoff = []) :
      Moves [.host] (· ∈ queueRegs p) (begun s) (queuesSettled (begun s) p l) := by
    rw [queuesSettled_idle _ l hp idle none]
    exact moves_queuesRecorded _ l hp
  refine ends_cmd (op := 0x401) (fl := 0) (flags := 0) rfl (decide_eq_true hc) hc hs ha rfl (by simp [len]) rfl ?_
  rw [queueSetRes_port hl len sel hp ok same]
  generalize queuesSettled (begun s) p l = t at *
  obtain ⟨served, answered, vintage⟩ := complete_moved hc hs moved (by simp) (by simp) fun o ho => by
    have below := chan_below hc ho
    rintro (queue | count)
    · have range := queueRegs_range h512 queue
      omega
    · have range := xoffCount_range h512 count
      omega
  have reg {a : Nat} (h : a ∈ queueRegs p) : rd (settle (complete ch sl { dev := t, vint := true })) a = rd t a := by
    obtain ⟨low, high⟩ := queueRegs_range h512 h
    exact rd_complete_tile hc served low high
  refine ⟨answered, vintage, fun c h8 => ?_, ?_, ?_, fun c h7 on held full more => ?_, fun idle none => ?_⟩
  · rw [reg (by simpa [queueRegs] using .inr (.inr ⟨c, h8, rfl⟩)), weights c h8]
  · rw [reg (by simp [queueRegs]), cfg]
  · rw [reg (by simp [queueRegs]), hr]
  · rw [xoffOn, buf_complete hc served]
    exact xoff c h7 on held full more
  · exact complete_onlyRegs hc served fun a outside _ => (only idle none).regs a outside

/-! ## The buffer settings of a class (R249, R271, R299) -/

/-- The registers of a class in a tile that QUEUE_SET writes. -/
def classRegs (c n : Nat) : List Nat := [Reg.tile n + Reg.classBufCfg c, Reg.tile n + Reg.spillCfg c, Reg.tile n + Reg.overageLimit c]

/-- The settings of a class for the buffers of tile n: class 7 has none. -/
structure ClassSet (l : List Byte) (c n : Nat) (d : Dev) : Prop where
  seven : c = 7 → rd d (Reg.tile n + Reg.classBufCfg 7) = 0
  buf : c < 7 → rd d (Reg.tile n + Reg.classBufCfg c) = unsigned 4 (signed 8 (le l 5 1)) + 16 * le l 6 1 + 4096 * le l 7 1
  spill : c < 7 → rd d (Reg.tile n + Reg.spillCfg c) = le l 8 4
  overage : c < 7 → rd d (Reg.tile n + Reg.overageLimit c) = le l 12 4

variable {l : List Byte} {c : Nat}

theorem ClassSet.same (h : ClassSet l c n d) (hc : c < 8) (kept : ∀ a ∈ classRegs c n, rd t a = rd d a) : ClassSet l c n t where
  seven seven := by
    subst seven
    rw [kept _ (by simp [classRegs]), h.seven rfl]
  buf h7 := by rw [kept _ (by simp [classRegs]), h.buf h7]
  spill h7 := by rw [kept _ (by simp [classRegs]), h.spill h7]
  overage h7 := by rw [kept _ (by simp [classRegs]), h.overage h7]

theorem moves_setClassBuf (d : Dev) (n : Nat) (hc : c = le l 4 1) : Moves [] (· ∈ classRegs c n) d (setClassBuf l d n) := by
  subst hc
  unfold setClassBuf
  dsimp only
  split
  · rename_i seven
    exact moves_wr d _ (by simp [classRegs, seven])
  · exact (moves_wr d _ (by simp [classRegs])).trans ((moves_wr _ _ (by simp [classRegs])).trans (moves_wr _ _ (by simp [classRegs])))

theorem unsigned_lt (w : Nat) (i : Int) : unsigned w i < 2 ^ w := by
  have pos : (0 : Int) < (2 ^ w : Nat) := by exact_mod_cast Nat.two_pow_pos w
  have low := Int.emod_nonneg i pos.ne'
  have high := Int.emod_lt_of_pos i pos
  unfold unsigned
  omega

theorem classSet_setClassBuf (d : Dev) (n : Nat) (hc : c = le l 4 1) (h8 : c < 8) (en : le l 7 1 ≤ 1) :
    ClassSet l c n (setClassBuf l d n) := by
  subst hc
  by_cases seven : le l 4 1 = 7
  · refine ⟨fun _ => ?_, fun h => ?_, fun h => ?_, fun h => ?_⟩
    · rw [setClassBuf, if_pos seven, rd_wr_self]
      rfl
    all_goals omega
  · have alpha := unsigned_lt 4 (signed 8 (le l 5 1))
    have res := le_lt l 6 1
    have spill := le_lt l 8 4
    have overage := le_lt l 12 4
    have apart : Reg.classBufCfg (le l 4 1) ≠ Reg.spillCfg (le l 4 1) ∧ Reg.classBufCfg (le l 4 1) ≠ Reg.overageLimit (le l 4 1) ∧
        Reg.spillCfg (le l 4 1) ≠ Reg.overageLimit (le l 4 1) := by
      simp only [Reg.classBufCfg, Reg.spillCfg, Reg.overageLimit]; omega
    obtain ⟨bufSpill, bufOverage, spillOverage⟩ := apart
    refine ⟨fun h => absurd h seven, fun _ => ?_, fun _ => ?_, fun _ => ?_⟩ <;> rw [setClassBuf, if_neg seven]
    · rw [rd_wr_ne _ _ (by omega), rd_wr_ne _ _ (by omega), rd_wr_self, two32]
      omega
    · rw [rd_wr_ne _ _ (by omega), rd_wr_self, two32]
      omega
    · rw [rd_wr_self, two32]
      omega

theorem classRegs_tile {a : Nat} (h : a ∈ classRegs c n) (h8 : c < 8) : Reg.tile n + 0x30C0 ≤ a ∧ a < Reg.tile n + 0x3120 := by
  simp only [classRegs, List.mem_cons, List.not_mem_nil, or_false, Reg.classBufCfg, Reg.spillCfg, Reg.overageLimit] at h
  omega

theorem classRegs_apart {a : Nat} (h : a ∈ classRegs c n) (h8 : c < 8) {k : Nat} (other : n ≠ k) : a ∉ classRegs c k := by
  intro h'
  have mine := classRegs_tile h h8
  have its := classRegs_tile h' h8
  simp only [Reg.tile] at mine its
  omega

theorem moves_setClasses (ts : List Nat) (hc : c = le l 4 1) (d : Dev) :
    Moves [] (fun a => ∃ n ∈ ts, a ∈ classRegs c n) d (ts.foldl (setClassBuf l) d) :=
  .foldl ts (fun d n hn => (moves_setClassBuf d n hc).mono (by simp) fun _ h => ⟨n, hn, h⟩) d

theorem classSet_keeps (d : Dev) (hc : c = le l 4 1) (h8 : c < 8) (en : le l 7 1 ≤ 1) (k : Nat) (h : ClassSet l c n d) :
    ClassSet l c n (setClassBuf l d k) := by
  by_cases own : n = k
  · subst own
    exact classSet_setClassBuf d n hc h8 en
  · exact h.same h8 fun a ha => (moves_setClassBuf d k hc).regs a (classRegs_apart ha h8 own)

theorem classSet_setClasses {ts : List Nat} (hn : n ∈ ts) (d : Dev) (hc : c = le l 4 1) (h8 : c < 8) (en : le l 7 1 ≤ 1) :
    ClassSet l c n (ts.foldl (setClassBuf l) d) :=
  foldl_brings (P := fun _ => True) (fun _ _ _ => trivial) (fun d k h => classSet_keeps d hc h8 en k h)
    (fun d _ => classSet_setClassBuf d n hc h8 en) hn trivial

theorem setClassBuf_regs (l : List Byte) (n : Nat) (h : t.regs = d.regs) : (setClassBuf l t n).regs = (setClassBuf l d n).regs := by
  unfold setClassBuf
  dsimp only
  split
  · exact wr_regs_congr h ..
  · exact wr_regs_congr (wr_regs_congr (wr_regs_congr h ..) ..) ..

/-! ## VOQs deeper than their class may be (R271) -/

/-- A VOQ of an unreserved class that is to be spilled when it is checked. -/
structure SpillDue (l : List Byte) (n v : Nat) (d : Dev) : Prop where
  set : ClassSet l (v % 8) n d
  cls : v % 8 < 7
  deep : le l 8 2 < voqDepth d n v

theorem voqDepth_congr (h : SameFlow d t) (n v : Nat) : voqDepth t n v = voqDepth d n v := by
  simp only [voqDepth, sumCopies, h.copies]

theorem spilled_checkSpill (d : Dev) (k w : Nat) {v : Nat} (h : spilled d n v = true) : spilled (checkSpill d k w) n v = true := by
  unfold checkSpill
  dsimp only
  split
  · rw [spilled, tcnt, cnt_buf]
    show (tfind (tins d.buf.segs (segKey k w) {}) (segKey n v)).isSome = true
    by_cases own : segKey n v = segKey k w
    · rw [own, tfind_tins_self]
      rfl
    · rw [tfind_tins_ne _ _ own]
      exact h
  · exact h

theorem spillDue_spills {v : Nat} (h : SpillDue l n v d) (en : le l 7 1 = 1) : spilled (checkSpill d n v) n v = true := by
  obtain ⟨set, cls, deep⟩ := h
  have alpha : unsigned 4 (signed 8 (le l 5 1)) < 16 := unsigned_lt 4 _
  have res : le l 6 1 < 256 := le_lt l 6 1
  have at' : le l 8 2 < 65536 := le_lt l 8 2
  have on : bit (classCfg d n (v % 8)) 12 = true := by
    rw [classCfg, set.buf cls, en]
    simp only [bit, decide_eq_true_eq, Nat.shiftRight_eq_div_pow]
    omega
  have limit : rd d (Reg.tile n + Reg.spillCfg (v % 8)) % 65536 = le l 8 2 := by
    rw [set.spill cls, le_four]
    omega
  by_cases already : spilled d n v = true
  · exact spilled_checkSpill d n v already
  · rw [checkSpill, if_pos ⟨cls, on, already, limit ▸ deep⟩, spilled, tcnt, cnt_buf]
    show (tfind (tins d.buf.segs (segKey n v) {}) (segKey n v)).isSome = true
    rw [tfind_tins_self]
    rfl

abbrev SpillCount (n a : Nat) : Prop := a = Reg.tile n + Reg.spillCnt

/-- A VOQ that goes to the stacks, before it is counted. -/
def spillBegun (d : Dev) (k v : Nat) : Dev := d.onBuf fun b => { b with segs := tins b.segs (segKey k v) {} }

theorem moves_spillBegun (d : Dev) (k v : Nat) : Moves [.buf] rs d (spillBegun d k v) := moves_onBuf d _ (by simp)

theorem checkSpill_moves (d : Dev) (k v : Nat) : Moves [.buf] (SpillCount k) d (checkSpill d k v) :=
  .ite ((moves_spillBegun d k v).trans (moves_tcnt (spillBegun d k v) (show SpillCount k _ from rfl))) (.refl d)

theorem spillClass_moves (c : Nat) (d : Dev) (k : Nat) : Moves [.buf] (SpillCount k) d (spillClass c d k) :=
  .foldl _ (fun d v _ => checkSpill_moves d k v) d

theorem sameFlow_spillClass (c : Nat) (d : Dev) (k : Nat) : SameFlow d (spillClass c d k) :=
  foldl_keeps_prop (P := SameFlow d) (fun _ _ h => h.trans (sameFlow_checkSpill ..)) _ (.refl d)

theorem spillCount_apart {k a : Nat} (h : a ∈ classRegs c n) (h8 : c < 8) : ¬SpillCount k a := by
  have range := classRegs_tile h h8
  simp only [SpillCount, Reg.spillCnt, Reg.tile] at range ⊢
  omega

theorem spillDue_same {v : Nat} (h : SpillDue l n v d) (flow : SameFlow d t) (kept : ∀ a ∈ classRegs (v % 8) n, rd t a = rd d a) :
    SpillDue l n v t where
  set := h.set.same (by omega) kept
  cls := h.cls
  deep := by rw [voqDepth_congr flow]; exact h.deep

theorem spillDue_checkSpill {v : Nat} (h : SpillDue l n v d) (k w : Nat) : SpillDue l n v (checkSpill d k w) :=
  spillDue_same h (sameFlow_checkSpill d k w) fun a ha => (checkSpill_moves d k w).regs a (spillCount_apart ha (by omega))

theorem spillDue_spillClass {v : Nat} (h : SpillDue l n v d) (k : Nat) : SpillDue l n v (spillClass c d k) :=
  spillDue_same h (sameFlow_spillClass c d k) fun a ha => (spillClass_moves c d k).regs a (spillCount_apart ha (by omega))

theorem spilled_spillClass (d : Dev) (k : Nat) {v : Nat} (h : spilled d n v = true) : spilled (spillClass c d k) n v = true :=
  foldl_keeps_prop (P := fun d => spilled d n v = true) (fun d w h => spilled_checkSpill d k w h) _ h

/-- The VOQ of a copy of the class is among those checked. -/
theorem spillClass_spills {x : Nat × Copy} (hx : x ∈ d.buf.copies) (tile : x.2.tile = n) (cls : x.2.cls = c)
    (h : SpillDue l n x.2.voq d) (en : le l 7 1 = 1) : spilled (spillClass c d n) n x.2.voq = true := by
  refine foldl_brings (P := SpillDue l n x.2.voq) (Q := fun d => spilled d n x.2.voq = true) (x := x.2.voq)
    (fun d w due => spillDue_checkSpill due n w) (fun d w h => spilled_checkSpill d n w h) (fun d due => spillDue_spills due en) ?_ h
  rw [List.mem_eraseDups]
  exact List.mem_map.2 ⟨x, List.mem_filter.2 ⟨hx, by simp [tile, cls]⟩, rfl⟩

theorem spillTiles_spill {x : Nat × Copy} {ts : List Nat} (hn : n ∈ ts) (hx : x ∈ d.buf.copies) (tile : x.2.tile = n) (cls : x.2.cls = c)
    (h : SpillDue l n x.2.voq d) (en : le l 7 1 = 1) : spilled (ts.foldl (spillClass c) d) n x.2.voq = true :=
  foldl_brings (P := fun d => SpillDue l n x.2.voq d ∧ x ∈ d.buf.copies) (Q := fun d => spilled d n x.2.voq = true)
    (fun d k both => ⟨spillDue_spillClass both.1 k, (sameFlow_spillClass c d k).copies ▸ both.2⟩)
    (fun d k h => spilled_spillClass d k h) (fun _ both => spillClass_spills both.2 tile cls both.1 en) hn ⟨h, hx⟩

theorem spillTiles_moves (c : Nat) (ts : List Nat) (d : Dev) :
    Moves [.buf] (fun a => ∃ n ∈ ts, SpillCount n a) d (ts.foldl (spillClass c) d) :=
  .foldl ts (fun d n hn => (spillClass_moves c d n).mono (by simp) fun _ h => ⟨n, hn, h⟩) d

theorem spilled_leaveXoff (d : Dev) (p c : Nat) {v : Nat} (h : spilled d n v = true) : spilled (leaveXoff d p c) n v = true := by
  unfold leaveXoff
  split
  · rw [spilled, (moves_sendPfc (ps := [.egr]) (rs := fun _ => False) _ p c 0 (by simp)).buf (by simp)]
    exact h
  · exact h

theorem spilled_xoffExits (d : Dev) {v : Nat} (h : spilled d n v = true) : spilled (xoffExits d) n v = true :=
  foldl_keeps_prop (P := fun d => spilled d n v = true) (fun d _ h => spilled_leaveXoff d _ _ h) _ h

/-! ## The command -/

/-- The buffer settings of a class are written in tiles and recorded. -/
def classesRecorded (d : Dev) (l : List Byte) (ts : List Nat) : Dev := ts.foldl (classRecord l) (ts.foldl (setClassBuf l) d)

/-- VOQs and pairs go by the settings at once (log entry 29). -/
def classesSettled (d : Dev) (c : Nat) (l : List Byte) (ts : List Nat) : Dev := xoffExits (ts.foldl (spillClass c) (classesRecorded d l ts))

theorem moves_classRecords (l : List Byte) (ts : List Nat) (d : Dev) : Moves [.host] (fun _ => False) d (ts.foldl (classRecord l) d) :=
  .foldl ts (fun d n _ => moves_putCfg d _ _ _ (by simp)) d

theorem moves_classesRecorded (d : Dev) (ts : List Nat) (hc : c = le l 4 1) :
    Moves [.host] (fun a => ∃ n ∈ ts, a ∈ classRegs c n) d (classesRecorded d l ts) :=
  ((moves_setClasses ts hc d).mono (by simp) fun _ h => h).trans ((moves_classRecords l ts _).mono (by simp) fun _ h => h.elim)

/-- The registers of tile n that the buffer settings of a class may write. -/
def classSettingRegs (c n : Nat) : List Nat :=
  [Reg.tile n + Reg.classBufCfg c, Reg.tile n + Reg.spillCfg c, Reg.tile n + Reg.overageLimit c, Reg.tile n + Reg.spillCnt]

theorem moves_spillsSettled (c : Nat) (ts : List Nat) (d : Dev) :
    Moves [.buf, .egr] (fun a => ∃ n ∈ ts, SpillCount n a) d (xoffExits (ts.foldl (spillClass c) d)) :=
  ((spillTiles_moves c ts d).mono (by simp) fun _ h => h).trans (moves_xoffExits _ (by simp) (by simp))

theorem moves_classesSettled (d : Dev) (ts : List Nat) (hc : c = le l 4 1) :
    Moves [.buf, .egr, .host] (fun a => ∃ n ∈ ts, a ∈ classSettingRegs c n) d (classesSettled d c l ts) := by
  refine Moves.trans ((moves_classesRecorded d ts hc).mono (by simp) ?_) ((moves_spillsSettled c ts _).mono (by simp) ?_)
  · rintro a ⟨n, hn, h⟩
    exact ⟨n, hn, List.mem_append_left [Reg.tile n + Reg.spillCnt] h⟩
  · rintro a ⟨n, hn, rfl⟩
    exact ⟨n, hn, by simp [classSettingRegs]⟩

theorem classSet_classesSettled {ts : List Nat} (hn : n ∈ ts) (d : Dev) (hc : c = le l 4 1) (h8 : c < 8) (en : le l 7 1 ≤ 1) :
    ClassSet l c n (classesRecorded d l ts) ∧ ClassSet l c n (classesSettled d c l ts) := by
  have recorded : ClassSet l c n (classesRecorded d l ts) :=
    (classSet_setClasses hn d hc h8 en).same h8 fun a _ => (moves_classRecords l ts _).regs a id
  refine ⟨recorded, recorded.same h8 fun a ha => (moves_spillsSettled c ts _).regs a ?_⟩
  rintro ⟨k, -, h⟩
  exact spillCount_apart ha h8 h

theorem classesSettled_spills {ts : List Nat} (hn : n ∈ ts) (d : Dev) (hc : c = le l 4 1) (h7 : c < 7) (en : le l 7 1 = 1) {x : Nat × Copy}
    (hx : x ∈ d.buf.copies) (tile : x.2.tile = n) (cls : x.2.cls = c) (deep : le l 8 2 < voqDepth d n x.2.voq) :
    spilled (classesSettled d c l ts) n x.2.voq = true := by
  have buf := (moves_classesRecorded d ts hc).buf (by simp)
  have mine : x.2.voq % 8 = c := by
    rw [Copy.voq, cls]
    omega
  refine spilled_xoffExits _ (spillTiles_spill hn (buf ▸ hx) tile cls ⟨?_, by omega, ?_⟩ en)
  · rw [mine]
    exact (classSet_classesSettled hn d hc (by omega) (by omega)).1
  · rw [voqDepth_congr (.of_buf buf)]
    exact deep

theorem queueSetRes_class {sl : Slot} (hl : l = sl.payload) (len : sl.len = 16) (sel : le l 0 1 = 1) (hc : c = le l 4 1)
    (ok : classBufOk l = true) (pool : poolTooSmall ((ones 16 (le l 2 2)).foldl (setClassBuf l) d) (ones 16 (le l 2 2)) = false) :
    queueSetRes d sl = { dev := classesSettled d c l (ones 16 (le l 2 2)), vint := true } := by
  subst hc
  simp [queueSetRes, classesSettled, classesRecorded, ← hl, len, sel, ok, pool]

theorem queueSet_class {ch m : Nat} {sl : Slot} (hl : l = sl.payload) (hch : ch < 16) (hs : Served s.dev ch sl)
    (ha : Accepted s.dev ch sl 0x401 0) (len : sl.len = 16) (sel : le l 0 1 = 1) (hm : m = le l 2 2) (hc : c = le l 4 1)
    (ok : classBufOk l = true) (pool : poolTooSmall ((ones 16 m).foldl (setClassBuf l) s.dev) (ones 16 m) = false) :
    Ends (.queueSet ch) s fun t =>
      AnsweredOk s.dev t ch sl [] ∧ t.host.vintage = nextVintage s.dev.host.vintage ∧
        (∀ n < 16, bit m n = true →
          (c = 7 → rd t (Reg.tile n + Reg.classBufCfg 7) = 0) ∧
          (c < 7 → rd t (Reg.tile n + Reg.classBufCfg c) = unsigned 4 (signed 8 (le l 5 1)) + 16 * le l 6 1 + 4096 * le l 7 1 ∧
            rd t (Reg.tile n + Reg.spillCfg c) = le l 8 4 ∧ rd t (Reg.tile n + Reg.overageLimit c) = le l 12 4 ∧
            (le l 7 1 = 1 → ∀ x ∈ s.dev.buf.copies, x.2.tile = n → x.2.cls = c → le l 8 2 < voqDepth s.dev n x.2.voq →
              spilled t n x.2.voq = true))) ∧
        (s.dev.buf.xoff = [] → OnlyRegsBeside ch ((ones 16 m).flatMap fun n =>
          [Reg.tile n + Reg.classBufCfg c, Reg.tile n + Reg.spillCfg c, Reg.tile n + Reg.overageLimit c, Reg.tile n + Reg.spillCnt])
          s.dev t) := by
  subst hm
  obtain ⟨h8, en⟩ : c < 8 ∧ le l 7 1 ≤ 1 := by
    simp only [classBufOk, Bool.and_eq_true, decide_eq_true_eq] at ok
    omega
  have same : poolTooSmall ((ones 16 (le l 2 2)).foldl (setClassBuf l) (begun s)) (ones 16 (le l 2 2)) = false := by
    rw [poolTooSmall_congr (foldl_regs_congr (fun _ _ n h => setClassBuf_regs l n h) _ (begun_regs s)), pool]
  have moved := moves_classesSettled (begun s) (ones 16 (le l 2 2)) hc
  have set := fun n hn => (classSet_classesSettled (n := n) (ts := ones 16 (le l 2 2)) hn (begun s) hc h8 en).2
  have spill := fun n hn => classesSettled_spills (n := n) (ts := ones 16 (le l 2 2)) hn (begun s) hc
  refine ends_cmd (op := 0x401) (fl := 0) (flags := 0) rfl (decide_eq_true hch) hch hs ha rfl (by simp [len]) rfl ?_
  rw [queueSetRes_class hl len sel hc ok same]
  generalize classesSettled (begun s) c l (ones 16 (le l 2 2)) = t at *
  obtain ⟨served, answered, vintage⟩ := complete_moved hch hs moved (by simp) (by simp) fun o ho => by
    have below := chan_below hch ho
    rintro ⟨n, -, h⟩
    simp only [classSettingRegs, List.mem_cons, List.not_mem_nil, or_false, Reg.tile] at h
    omega
  refine ⟨answered, vintage, fun n hn named => ?_, fun _ => complete_onlyRegs hch served fun a outside _ => moved.regs a ?_⟩
  · have hn' := mem_ones.2 ⟨hn, named⟩
    have ended : ClassSet l c n (settle (complete ch sl { dev := t, vint := true })) := (set n hn').same h8 fun a ha => by
      have range := classRegs_tile ha h8
      simp only [Reg.tile] at range
      exact rd_complete_tile hch served (by omega) (by omega)
    refine ⟨ended.seven, fun h7 => ⟨ended.buf h7, ended.spill h7, ended.overage h7, fun on x hx tile cls deep => ?_⟩⟩
    rw [spilled, buf_complete hch served]
    exact spill n hn' h7 on hx tile cls deep
  · rintro ⟨n, hn, h⟩
    exact outside (List.mem_flatMap.2 ⟨n, hn, h⟩)

/-- Settles O16: the registers written are read back, pairs and VOQs over their new limits are found by the pass over them, and a bucket
that has waited for its deficit has gained it. -/
theorem queuesAndShapersAreSet : Obligations.QueuesAndShapersAreSet := by
  rintro s ch p sl l hl
  refine ⟨fun hc hs ha len _ sel hp ok pool => queueSet_port hl hc hs ha len sel hp ok pool,
    fun m c hch hs ha len _ sel hm hc ok pool => queueSet_class hl hch hs ha len sel hm hc ok pool,
    fun b k hc hs ha len hp hb hk h512 h8 en least most ok => shaperSet_ends hl hc hs ha len hp hb hk h512 h8 en least most ok,
    fun b hp hb en below => tokenBucketRefill_ends hp hb en below⟩

end Sys2Proof.Machine
end

section
/-! Bunches that land (R245, R256, R313, R314): what a piece leaves of its copy, of the frames and of the counters, and what a parity error
on the sideband takes. -/

namespace Sys2Proof.Machine

open Sys2Proof

variable {d t : Dev} {s : State} {ps : List Piece} {rs : Nat → Prop} {u : Nat} {k : Bunch} {q : BunchPiece} {c : Copy}

/-- Registers other than the trellis master's counters of slots and of errors on the sideband. -/
abbrev OffMaster (a : Nat) : Prop := a ≠ Reg.trSlots ∧ a ≠ Reg.trHdrErr ∧ a ≠ Reg.trHdrEvc

theorem offMaster_voqCount {a : Nat} (h : VoqCount a) : OffMaster a := by
  obtain ⟨n, h⟩ := h
  simp only [OffMaster, Reg.tile, Reg.spillCnt, Reg.cellarHeadEmpty, Reg.trSlots, Reg.trHdrErr, Reg.trHdrEvc] at h ⊢
  omega

theorem offMaster_mirDrop (n m : Nat) : OffMaster (Reg.tile n + Reg.mirDrop m) := by
  simp only [OffMaster, Reg.tile, Reg.mirDrop, Reg.trSlots, Reg.trHdrErr, Reg.trHdrEvc]
  omega

/-- A register of a tile's own block. -/
theorem offMaster_tile (n : Nat) {o : Nat} (least : 0x2000 ≤ o) (most : o < 0x10_0000) : OffMaster (Reg.tile n + o) := by
  simp only [OffMaster, Reg.tile, Reg.trSlots, Reg.trHdrErr, Reg.trHdrEvc]
  omega

/-! ## A bunch lands -/

/-- A bunch that lands is no longer in flight. -/
def landing (d : Dev) (k : Bunch) : Dev := d.onTrl fun t => { t with flight := t.flight.erase k }

theorem bunchLand_whole (find : d.trl.flight.find? (fun q => decide (q.dst / 8 = u)) = some k) (errs : List CellErr) :
    bunchLand u false errs d = k.pieces.foldl (landPiece u errs) (cnt (landing d k) (Reg.trDstBunch u)) := by
  rw [bunchLand, find]
  rfl

theorem bunchLand_parity (find : d.trl.flight.find? (fun q => decide (q.dst / 8 = u)) = some k) (errs : List CellErr) :
    bunchLand u true errs d = sidebandError (landing d k) u k := by
  rw [bunchLand, find]
  rfl

/-- The device when a bunch of tile u has been counted. -/
def arrived (d : Dev) (u : Nat) (k : Bunch) : Dev := cnt (landing d k) (Reg.trDstBunch u)

theorem moves_landing (d : Dev) (k : Bunch) : Moves [.trl] rs d (landing d k) :=
  ⟨fun x hx => by cases x <;> simp_all [Same, landing], fun _ _ => rfl, ⟨rfl, rfl, rfl⟩, .refl d.buf⟩

theorem moves_arrived (d : Dev) (u : Nat) (k : Bunch) (hr : rs (Reg.trDstBunch u)) : Moves [.trl] rs d (arrived d u k) :=
  (moves_landing d k).trans (moves_cnt _ hr)

theorem arrived_flight (d : Dev) (u : Nat) (k : Bunch) : (arrived d u k).trl.flight = d.trl.flight.erase k := by
  rw [arrived, cnt_trl]
  rfl

theorem rd_arrived (d : Dev) (u : Nat) (k : Bunch) : rd (arrived d u k) (Reg.trDstBunch u) = (rd d (Reg.trDstBunch u) + 1) % two32 := by
  rw [arrived, rd_cnt_self]
  rfl

/-! ## A piece joins its copy (R313) -/

/-- A copy with a piece in cells of its destination tile. -/
def joinedBy (q : BunchPiece) (cells : List Nat) (now : Nat) (c : Copy) : Copy :=
  { c with
    landed := c.landed + q.cells, land := c.land ++ cells, landedAt := now
    loc := if c.loc = .crossing ∧ c.landed + q.cells = c.cells then .landed else c.loc }

theorem placePiece_eq (u : Nat) (q : BunchPiece) (d : Dev) :
    placePiece u q d = setCopy (fresh d).2 q.copy (joinedBy q (allocCells d u q.cells).1 d.now) := rfl

theorem moves_placePiece (d : Dev) (u : Nat) (q : BunchPiece) (hb : .buf ∈ ps) : Moves ps rs d (placePiece u q d) := by
  rw [placePiece_eq]
  exact (moves_fresh d).trans (moves_setCopy _ hb ..)

theorem frames_setCopy (d : Dev) (n : Nat) (g : Copy → Copy) : (setCopy d n g).buf.frames = d.buf.frames := by
  rw [setCopy, Dev.onBuf_buf]
  cases tfind d.buf.copies n <;> rfl

theorem frames_placePiece (d : Dev) (u : Nat) (q : BunchPiece) : (placePiece u q d).buf.frames = d.buf.frames := by
  rw [placePiece_eq, frames_setCopy]
  rfl

theorem copyOf_placePiece (copy : copyOf d q.copy = some c) :
    copyOf (placePiece u q d) q.copy = some (joinedBy q (allocCells d u q.cells).1 d.now c) := by
  rw [placePiece_eq, copyOf_setCopy, if_pos rfl, show copyOf (fresh d).2 q.copy = some c from copy]
  rfl

theorem tc7Use_congr (h : t.buf = d.buf) (u : Nat) : tc7Use t u = tc7Use d u := by
  have cells : tc7Cells t = tc7Cells d := funext₂ fun f x => by simp only [tc7Cells, copiesOf, h]
  simp only [tc7Use, sumCopies, sumFrames, h, cells]

theorem buf_arrived (s : State) (u : Nat) (k : Bunch) : (arrived (begun s) u k).buf = s.dev.buf :=
  (moves_arrived (rs := fun _ => True) (begun s) u k trivial).buf (by simp)

theorem copyOf_arrived (s : State) (u : Nat) (k : Bunch) (n : Nat) : copyOf (arrived (begun s) u k) n = copyOf s.dev n := by
  rw [copyOf, buf_arrived, copyOf]

theorem tc7Use_arrived (s : State) (u : Nat) (k : Bunch) : tc7Use (arrived (begun s) u k) u = tc7Use s.dev u :=
  tc7Use_congr (buf_arrived s u k) u

/-- What a piece of a bunch that lands does to the device. -/
theorem landed_one (find : s.dev.trl.flight.find? (fun q => decide (q.dst / 8 = u)) = some k) (one : k.pieces = [q]) (errs : List CellErr) :
    bunchLand u false errs (begun s) = landPiece u errs (arrived (begun s) u k) q := by
  rw [bunchLand_whole (d := begun s) find errs, one]
  rfl

theorem pieceErrs_other {errs : List CellErr} (other : ∀ e ∈ errs, e.copy ≠ q.copy) : pieceErrs errs q = [] :=
  List.filter_eq_nil_iff.2 fun e he => by simp [other e he]

theorem bunchLand_joins (hu : u < 16) (find : s.dev.trl.flight.find? (fun q => decide (q.dst / 8 = u)) = some k) {errs : List CellErr}
    (one : k.pieces = [q]) (copy : copyOf s.dev q.copy = some c) (room : c.part = .tc7 → tc7Use s.dev u + q.cells ≤ 2048)
    (other : ∀ e ∈ errs, e.copy ≠ q.copy) : Ends (.bunchLand u false errs) s fun t =>
      (∃ l, copyOf t q.copy = some { c with
        landed := c.landed + q.cells, land := c.land ++ l, landedAt := s.dev.now
        loc := if c.loc = .crossing ∧ c.landed + q.cells = c.cells then .landed else c.loc }) ∧
        t.trl.flight = s.dev.trl.flight.erase k ∧ rd t (Reg.trDstBunch u) = (rd s.dev (Reg.trDstBunch u) + 1) % two32 ∧
        t.buf.frames = s.dev.buf.frames ∧ OnlyParts [.trl, .buf] s.dev t ∧ OnlyRegs [Reg.trDstBunch u] s.dev t := by
  refine ends_of_runIf (f := bunchLand u false errs) rfl (decide_eq_true hu) ?_
  have copy' := (copyOf_arrived s u k q.copy).trans copy
  have place : Moves [.buf] (fun _ => False) _ (placePiece u q (arrived (begun s) u k)) := moves_placePiece _ u q (by simp)
  have moved : Moves [.trl, .buf] (· ∈ [Reg.trDstBunch u]) (begun s) (placePiece u q (arrived (begun s) u k)) :=
    ((moves_arrived (begun s) u k (by simp)).mono (by simp) fun _ h => h).trans (place.mono (by simp) fun _ h => h.elim)
  rw [landed_one find one, landPiece_placed _ _ _ copy' (by rwa [tc7Use_arrived]) (pieceErrs_other other)]
  refine ⟨⟨(allocCells (arrived (begun s) u k) u q.cells).1, ?_⟩, ?_, ?_, ?_, moved.onlyParts, moved.onlyRegs⟩
  · rw [copyOf, settle_buf, ← copyOf, copyOf_placePiece copy', joinedBy,
      (moves_arrived (rs := fun _ => True) (begun s) u k trivial).now (by simp)]
    rfl
  · rw [settle_trl, show (placePiece u q _).trl = _ from place.parts .trl (by simp), arrived_flight]
    rfl
  · rw [rd_settle _ (by simp only [Reg.trDstBunch, Reg.irqMsgCnt]; omega), place.regs _ id, rd_arrived, rd_begun]
  · rw [settle_buf, frames_placePiece, buf_arrived]

theorem pieceErrs_one {e : CellErr} (copy : e.copy = q.copy) (first : q.first ≤ e.cell) (last : e.cell < q.first + q.cells)
    (link : e.link = false) : pieceErrs [e] q = [e] := by simp [pieceErrs, copy, first, last, link]

/-- A device in which a piece has been written to tile u, where its copy is there. -/
theorem landPiece_corrected {e : CellErr} (room : ∀ c, copyOf d q.copy = some c → c.part = .tc7 → tc7Use d u + q.cells ≤ 2048)
    (copy : e.copy = q.copy) (first : q.first ≤ e.cell) (last : e.cell < q.first + q.cells) (link : e.link = false) (bad : e.bad = false) :
    ∃ f : Dev, Moves [.buf] (fun _ => False) d f ∧ f.buf.frames = d.buf.frames ∧ landPiece u [e] d q = tcnt f u Reg.cellEccCorr := by
  have mine := pieceErrs_one copy first last link
  have corrected (f : Dev) : (pieceErrs [e] q).foldl (pieceErr u q) f = tcnt f u Reg.cellEccCorr := by
    rw [mine, List.foldl_cons, List.foldl_nil, pieceErr_corrected f u q bad]
  cases here : copyOf d q.copy with
  | none => exact ⟨d, .refl d, rfl, by rw [landPiece_gone d u q here, corrected]⟩
  | some c =>
    refine ⟨placePiece u q d, moves_placePiece d u q (by simp), frames_placePiece d u q, ?_⟩
    have fits : ¬(c.part = .tc7 ∧ 2048 < tc7Use d u + q.cells) := fun full => Nat.not_lt.2 (room c here full.1) full.2
    simp only [landPiece, here, if_neg fits, corrected]

theorem bunchLand_corrected (hu : u < 16) (find : s.dev.trl.flight.find? (fun q => decide (q.dst / 8 = u)) = some k) {e : CellErr}
    (one : k.pieces = [q]) (room : ∀ c, copyOf s.dev q.copy = some c → c.part = .tc7 → tc7Use s.dev u + q.cells ≤ 2048)
    (copy : e.copy = q.copy) (first : q.first ≤ e.cell) (last : e.cell < q.first + q.cells) (link : e.link = false) (bad : e.bad = false) :
    Ends (.bunchLand u false [e]) s fun t =>
      rd t (Reg.tile u + Reg.cellEccCorr) = (rd s.dev (Reg.tile u + Reg.cellEccCorr) + 1) % two32 ∧
        t.buf.frames = s.dev.buf.frames ∧ OnlyRegs [Reg.trDstBunch u, Reg.tile u + Reg.cellEccCorr] s.dev t := by
  refine ends_of_runIf (f := bunchLand u false [e]) rfl (decide_eq_true hu) ?_
  obtain ⟨f, place, frames, run⟩ := landPiece_corrected (d := arrived (begun s) u k) (u := u)
    (by simpa only [copyOf_arrived, tc7Use_arrived] using room) copy first last link bad
  have arrive : Moves [.trl] (· ∈ [Reg.trDstBunch u]) (begun s) (arrived (begun s) u k) := moves_arrived (begun s) u k (by simp)
  have counted : Moves [.trl, .buf] (· ∈ [Reg.trDstBunch u, Reg.tile u + Reg.cellEccCorr]) (begun s) (tcnt f u Reg.cellEccCorr) :=
    (arrive.mono (by simp) (by simp)).trans ((place.mono (by simp) fun _ h => h.elim).trans (moves_tcnt f (by simp)))
  have apart : Reg.tile u + Reg.cellEccCorr ∉ [Reg.trDstBunch u] := by
    simp only [List.mem_cons, List.not_mem_nil, or_false, Reg.tile, Reg.cellEccCorr, Reg.trDstBunch]; omega
  rw [landed_one find one, run]
  refine ⟨?_, ?_, counted.onlyRegs⟩
  · rw [rd_settle _ (by simp only [Reg.tile, Reg.cellEccCorr, Reg.irqMsgCnt]; omega), tcnt, rd_cnt_self, place.regs _ id,
      arrive.regs _ apart, rd_begun]
  · rw [settle_buf, tcnt, cnt_buf, frames, buf_arrived]

theorem bunchLand_refused (hu : u < 16) (find : s.dev.trl.flight.find? (fun q => decide (q.dst / 8 = u)) = some k) (errs : List CellErr)
    (one : k.pieces = [q]) (copy : copyOf s.dev q.copy = some c) (tc7 : c.part = .tc7) (full : 2048 < tc7Use s.dev u + q.cells) :
    Ends (.bunchLand u false errs) s fun t =>
      copyOf t q.copy = none ∧ rd t (Reg.tile u + Reg.dropTc7Pool) = (rd s.dev (Reg.tile u + Reg.dropTc7Pool) + 1) % two32 ∧
        t.trl.flight = s.dev.trl.flight.erase k := by
  refine ends_of_runIf (f := bunchLand u false errs) rfl (decide_eq_true hu) ?_
  rw [landed_one find one, landPiece_refused _ _ _ ((copyOf_arrived s u k q.copy).trans copy) tc7 (by rwa [tc7Use_arrived])]
  have arrive : Moves [.trl] (· ∈ [Reg.trDstBunch u]) (begun s) (arrived (begun s) u k) := moves_arrived (begun s) u k (by simp)
  have apart : Reg.tile u + Reg.dropTc7Pool ∉ [Reg.trDstBunch u] := by
    simp only [List.mem_cons, List.not_mem_nil, or_false, Reg.tile, Reg.dropTc7Pool, Reg.trDstBunch]; omega
  have dropped : Moves [.buf, .egr, .host] VoqCount _ (discardCopy (tcnt (arrived (begun s) u k) u Reg.dropTc7Pool) q.copy) :=
    counts_discardCopy (by simp) (fun _ h => h) (by simp) (by simp) _ q.copy
  have other : ¬VoqCount (Reg.tile u + Reg.dropTc7Pool) := by
    simp only [VoqCount, Reg.tile, Reg.dropTc7Pool, Reg.spillCnt, Reg.cellarHeadEmpty, not_exists]; omega
  refine ⟨?_, ?_, ?_⟩
  · rw [copyOf, settle_buf]
    exact (loses_discardCopy _ q.copy).2
  · rw [rd_settle _ (by simp only [Reg.tile, Reg.dropTc7Pool, Reg.irqMsgCnt]; omega), dropped.regs _ other, tcnt, rd_cnt_self,
      arrive.regs _ apart, rd_begun]
  · rw [settle_trl, show (discardCopy _ _).trl = _ from dropped.parts .trl (by simp), tcnt, cnt_trl, arrived_flight]
    rfl

/-! ## A parity error on the sideband (R314) -/

theorem loses_condemnPiece (d : Dev) (q : BunchPiece) (gone : List Nat) :
    Loses d (condemnPiece d q gone) ∧ ∀ c, copyOf (condemnPiece d q gone) q.copy = some c → c.corked = true := by
  unfold condemnPiece
  split
  · exact loses_condemnCopy d q.copy gone
  · rename_i absent
    have away : copyOf d q.copy = none := by simpa using absent
    have condemned : Loses d (if q.mirror = true then d else condemnSome (·.mirror.isNone) d q.frame) :=
      .ite (.refl d) (condemned_condemnSome _ d q.frame).loses
    refine ⟨condemned, fun c h => ?_⟩
    rw [condemned.none away] at h
    cases h

/-- The cells of a piece. -/
def pieceCells (q : BunchPiece) : List Nat := (List.range q.cells).map (q.first + ·)

/-- The cells of a piece do not come. -/
def pieceMissed (d : Dev) (q : BunchPiece) : Dev := setCopy d q.copy fun c => { c with missed := c.missed ++ pieceCells q }

theorem lostPiece_eq (d : Dev) (q : BunchPiece) : lostPiece d q = condemnPiece (pieceMissed d q) q (pieceCells q) := rfl

theorem loses_lostPiece (d : Dev) (q : BunchPiece) :
    Loses d (lostPiece d q) ∧ ∀ c, copyOf (lostPiece d q) q.copy = some c → c.corked = true := by
  have missed : Loses d (pieceMissed d q) := loses_setCopy d q.copy _ fun _ => id
  obtain ⟨condemned, out⟩ := loses_condemnPiece (pieceMissed d q) q (pieceCells q)
  rw [lostPiece_eq]
  exact ⟨missed.trans condemned, out⟩

theorem moves_condemnPiece (d : Dev) (q : BunchPiece) (gone : List Nat) :
    Moves [.buf, .egr, .host] OffMaster d (condemnPiece d q gone) :=
  .ite (counts_condemnCopy (by simp) (fun _ => offMaster_voqCount) (by simp) (by simp) offMaster_mirDrop d q.copy gone)
    (.ite (.refl d) (counts_condemnSome (by simp) (fun _ => offMaster_voqCount) (by simp) (by simp) d q.frame
      fun c _ m _ => offMaster_mirDrop c.tile m))

theorem moves_lostPiece (d : Dev) (q : BunchPiece) : Moves [.buf, .egr, .host] OffMaster d (lostPiece d q) :=
  (moves_setCopy d (by simp) q.copy _).trans (moves_condemnPiece _ q _)

/-- The error is counted. -/
def hdrCounted (d : Dev) : Dev := cnt (cnt d Reg.trHdrErr) Reg.trHdrEvc

/-- Cells of a discarded bunch have no owner any more. -/
def cellsStray (d : Dev) (u : Nat) (l : List Nat) : Dev := d.onBuf fun m => { m with lost := tmod [] m.lost u (· ++ l) }

/-- The error is recorded and firmware told. -/
def hdrNoted (d : Dev) : Dev := note (bb d 20 0x23 (toLe 4 (rd d Reg.trHdrEvc))) 6 (toLe 4 (rd d Reg.trHdrEvc))

theorem sidebandError_eq (d : Dev) (u : Nat) (k : Bunch) : ∃ l, sidebandError d u k =
    hdrNoted (k.pieces.foldl lostPiece (cellsStray (fresh (fresh (hdrCounted d)).2).2 u l)) := ⟨_, rfl⟩

theorem moves_cellsStray (d : Dev) (u : Nat) (l : List Nat) : Moves [.buf] rs d (cellsStray d u l) := moves_onBuf d _ (by simp)

theorem moves_hdrNoted (d : Dev) : Moves [.tel, .host] OffMaster d (hdrNoted d) :=
  (moves_bb d _ _ _ (by simp) (by decide)).trans (moves_note _ _ _ (by simp) (by decide) (by decide))

theorem buf_hdrNoted (d : Dev) : (hdrNoted d).buf = d.buf := (moves_hdrNoted d).buf (by simp)

theorem moves_hdrCounted (d : Dev) : Moves [] (fun _ => True) d (hdrCounted d) := (moves_cnt d trivial).trans (moves_cnt _ trivial)

theorem rd_hdrCounted (d : Dev) : rd (hdrCounted d) Reg.trHdrErr = (rd d Reg.trHdrErr + 1) % two32 ∧
    rd (hdrCounted d) Reg.trHdrEvc = (rd d Reg.trHdrEvc + 1) % two32 := by
  rw [hdrCounted, rd_cnt_ne _ (by decide), rd_cnt_self, rd_cnt_self, rd_cnt_ne _ (by decide)]
  exact ⟨rfl, rfl⟩

/-- What a sideband error leaves: it is counted, and each copy with a piece in the bunch is gone or corked. -/
theorem sidebandError_leaves (d : Dev) (u : Nat) (k : Bunch) :
    (sidebandError d u k).trl = d.trl ∧ (∀ a, ¬OffMaster a → rd (sidebandError d u k) a = rd (hdrCounted d) a) ∧
      ∀ q ∈ k.pieces, ∀ c, copyOf (sidebandError d u k) q.copy = some c → c.corked = true := by
  obtain ⟨l, run⟩ := sidebandError_eq d u k
  rw [run]
  have counted := moves_hdrCounted d
  have stray : Moves [.buf] OffMaster (hdrCounted d) (cellsStray (fresh (fresh (hdrCounted d)).2).2 u l) :=
    (moves_fresh _).trans ((moves_fresh _).trans (moves_cellsStray _ u l))
  generalize cellsStray (fresh (fresh (hdrCounted d)).2).2 u l = x at stray
  have lost : Moves [.buf, .egr, .host] OffMaster x (k.pieces.foldl lostPiece x) := .foldl _ (fun d q _ => moves_lostPiece d q) x
  obtain ⟨-, out⟩ := loses_each (q := fun q t => ∀ c, copyOf t q.copy = some c → c.corked = true) (fun d q => (loses_lostPiece d q).1)
    (fun d q => (loses_lostPiece d q).2) (fun q _ _ h => h.out) k.pieces x
  have noted := moves_hdrNoted (k.pieces.foldl lostPiece x)
  have buf := buf_hdrNoted (k.pieces.foldl lostPiece x)
  generalize k.pieces.foldl lostPiece x = y at *
  refine ⟨?_, fun a off => ?_, fun q hq c h => out q hq c ?_⟩
  · calc (hdrNoted y).trl = y.trl := noted.parts .trl (by simp)
      _ = x.trl := lost.parts .trl (by simp)
      _ = (hdrCounted d).trl := stray.parts .trl (by simp)
      _ = d.trl := counted.parts .trl (by simp)
  · rw [noted.regs a off, lost.regs a off, stray.regs a off]
  · rwa [copyOf, buf] at h

theorem bunchLand_discarded (hu : u < 16) (find : s.dev.trl.flight.find? (fun q => decide (q.dst / 8 = u)) = some k) (errs : List CellErr) :
    Ends (.bunchLand u true errs) s fun t =>
      t.trl.flight = s.dev.trl.flight.erase k ∧ rd t Reg.trHdrErr = (rd s.dev Reg.trHdrErr + 1) % two32 ∧
        rd t Reg.trHdrEvc = (rd s.dev Reg.trHdrEvc + 1) % two32 ∧
        ∀ q ∈ k.pieces, ∀ c, copyOf t q.copy = some c → c.corked = true := by
  refine ends_of_runIf (f := bunchLand u true errs) rfl (decide_eq_true hu) ?_
  rw [bunchLand_parity (d := begun s) find errs]
  obtain ⟨trl, regs, out⟩ := sidebandError_leaves (landing (begun s) k) u k
  obtain ⟨err, evc⟩ := rd_hdrCounted (landing (begun s) k)
  refine ⟨?_, ?_, ?_, fun q hq c => ?_⟩
  · rw [settle_trl, trl]
    rfl
  · rw [rd_settle _ (by decide), regs _ (by simp [OffMaster]), err]
    rfl
  · rw [rd_settle _ (by decide), regs _ (by simp [OffMaster]), evc]
    rfl
  · rw [copyOf, settle_buf, ← copyOf]
    exact out q hq c

end Sys2Proof.Machine
end

section
/-! A slot of the trellis (R310 to R316, R337, R340): the stages of the match leave the transfer alone, and the transfer
leaves the match alone. -/

namespace Sys2Proof.Machine

open Sys2Proof

variable {d t v : Dev} {s : State} {ps : List Piece} {rs : Nat → Prop}

/-! ## The stages of the match (R324 to R337) -/

/-- From d to t the match has gone on for slots to come: the slot, what it transfers, and the bunches in flight stay. -/
structure Matched (d t : Dev) : Prop where
  moves : Moves [.trl] (fun a => ∃ i < 6, a = Reg.trBunch i) d t
  slot : t.trl.slot = d.trl.slot
  flight : t.trl.flight = d.trl.flight
  len : t.trl.matching.length = d.trl.matching.length
  first : matchAt t 0 = matchAt d 0

theorem Matched.refl (d : Dev) : Matched d d := ⟨.refl d, rfl, rfl, rfl, rfl⟩

theorem Matched.trans (h : Matched d t) (g : Matched t v) : Matched d v :=
  ⟨h.moves.trans g.moves, g.slot.trans h.slot, g.flight.trans h.flight, g.len.trans h.len, g.first.trans h.first⟩

theorem Matched.foldl {α : Type} {f : Dev → α → Dev} (l : List α) (h : ∀ d x, Matched d (f d x)) (d : Dev) : Matched d (l.foldl f d) := by
  induction l generalizing d with
  | nil => exact .refl d
  | cons x l ih => exact (h d x).trans (ih _)

/-- A change of the master's pointers or requests. -/
theorem matched_onTrl (d : Dev) (g : Trellis → Trellis) (slot : (g d.trl).slot = d.trl.slot := by rfl)
    (flight : (g d.trl).flight = d.trl.flight := by rfl) (len : (g d.trl).matching.length = d.trl.matching.length := by rfl)
    (first : (g d.trl).matching.getD 0 [] = d.trl.matching.getD 0 [] := by rfl) : Matched d (d.onTrl g) where
  moves := ⟨fun x hx => by cases x <;> simp_all [Same], fun _ _ => rfl, ⟨rfl, rfl, rfl⟩, .refl d.buf⟩
  slot := slot
  flight := flight
  len := len
  first := first

theorem matched_cnt (d : Dev) {i : Nat} (hi : i < 6) : Matched d (cnt d (Reg.trBunch i)) where
  moves := moves_cnt d ⟨i, hi, rfl⟩
  slot := by rw [cnt_trl]
  flight := by rw [cnt_trl]
  len := by rw [cnt_trl]
  first := by rw [matchAt, cnt_trl, matchAt]

theorem passReg_lt (p : Pass) : passReg p < 6 := by cases p <;> decide

theorem matched_grant (d : Dev) {i : Nat} (hi : 1 ≤ i) (src dst : Nat) (p : Pass) : Matched d (grant d i src dst p) := by
  unfold grant
  dsimp only
  have granted := matched_onTrl d (fun t => { t with
    matching := setNth t.matching i (t.matching.getD i [] ++ [{ src, dst, pass := p, ready := grantReady d (dst / 8) }])
    req := tmod 0 t.req (16 * (src / 8) + dst / 8) (deduct p) }) rfl rfl
    (by rw [setNth_eq_set, List.length_set]) (by rw [setNth_eq_set, List.getD_eq_getElem?_getD, List.getElem?_set_ne (by omega)]; rfl)
  have counted := granted.trans (matched_cnt _ (passReg_lt p))
  split
  · exact counted.trans (matched_cnt _ (by decide))
  · exact counted

theorem matched_lateTc7 (d : Dev) (e : Nat × Nat) : Matched d (lateTc7 d e) := by
  unfold lateTc7
  split
  · exact matched_grant d (by decide) ..
  · exact .refl d

theorem matched_preTc7 (d : Dev) (e : Nat × Nat) : Matched d (preTc7 d e) := by
  unfold preTc7
  split
  · exact matched_grant d (by decide) ..
  · exact .refl d

theorem matched_iterAccept {i : Nat} (hi : 1 ≤ i) (p : Pass) (gs : List (Nat × Nat)) (d : Dev) (c : Nat) :
    Matched d (iterAccept i p gs d c) := by
  unfold iterAccept
  dsimp only
  split
  · exact .refl d
  · rename_i j _
    have granted := matched_grant d hi c j p
    split
    · exact granted.trans (matched_onTrl _ _)
    · exact granted

theorem matched_iteration (d : Dev) {i : Nat} (hi : 1 ≤ i) (p : Pass) : Matched d (iteration d i p) :=
  .foldl _ (matched_iterAccept hi p _) d

theorem matched_contGrants (l : List (Nat × Nat)) (d : Dev) : Matched d (l.foldl (fun d e => grant d 4 e.1 e.2 .cont) d) :=
  .foldl l (fun d e => matched_grant d (by decide) e.1 e.2 .cont) d

theorem matched_contTurned (d : Dev) (u x : Nat) : Matched d (d.onTrl fun t => { t with contPtr := tput 0 t.contPtr u ((x + 1) % 16) }) :=
  matched_onTrl d _

theorem matched_contPair (u : Nat) (d : Dev) (x : Nat) : Matched d (contPair u d x) := by
  unfold contPair
  dsimp only
  split
  · exact .refl d
  · exact (matched_contGrants _ d).trans (matched_contTurned _ u x)

theorem matched_contTile (d : Dev) (u : Nat) : Matched d (contTile d u) := .foldl _ (matched_contPair u) d

/-- The stages one after another. -/
def lateMatched (d : Dev) : Dev := (tc7Order d).foldl lateTc7 d
def iterated (d : Dev) : Dev := iteration (iteration (iteration d 1 .iter3) 2 .iter2) 3 .iter1
def preMatched (d : Dev) : Dev := (tc7Order d).foldl preTc7 d
def contMatched (l : List Nat) (d : Dev) : Dev := l.foldl contTile d

theorem matched_lateMatched (d : Dev) : Matched d (lateMatched d) := .foldl _ matched_lateTc7 d
theorem matched_iterated (d : Dev) : Matched d (iterated d) :=
  (matched_iteration d (by decide) _).trans ((matched_iteration _ (by decide) _).trans (matched_iteration _ (by decide) _))
theorem matched_preMatched (d : Dev) : Matched d (preMatched d) := .foldl _ matched_preTc7 d
theorem matched_contMatched (l : List Nat) (d : Dev) : Matched d (contMatched l d) := .foldl l matched_contTile d

theorem matchStages_eq (d : Dev) : ∃ l, matchStages d = contMatched l (preMatched (iterated (lateMatched d))) := ⟨_, rfl⟩

theorem matched_matchStages (d : Dev) : Matched d (matchStages d) := by
  obtain ⟨l, run⟩ := matchStages_eq d
  rw [run]
  exact (matched_lateMatched d).trans ((matched_iterated _).trans ((matched_preMatched _).trans (matched_contMatched l _)))

/-! ## The transfer (R311 to R318) -/

/-- From d to t the slot and its count stand, and no match has been added or used up. -/
structure Slotted (d t : Dev) : Prop where
  slot : t.trl.slot = d.trl.slot
  len : t.trl.matching.length = d.trl.matching.length
  count : rd t Reg.trSlots = rd d Reg.trSlots

theorem Slotted.refl (d : Dev) : Slotted d d := ⟨rfl, rfl, rfl⟩

theorem Slotted.trans (h : Slotted d t) (g : Slotted t v) : Slotted d v :=
  ⟨g.slot.trans h.slot, g.len.trans h.len, g.count.trans h.count⟩

theorem Slotted.foldl {α : Type} {f : Dev → α → Dev} (l : List α) (h : ∀ d x, Slotted d (f d x)) (d : Dev) :
    Slotted d (l.foldl f d) := by
  induction l generalizing d with
  | nil => exact .refl d
  | cons x l ih => exact (h d x).trans (ih _)

/-- What moves neither the trellis nor its master's counters. -/
theorem Slotted.of_moves (h : Moves ps OffMaster d t) (trl : .trl ∉ ps) : Slotted d t := by
  have same : t.trl = d.trl := h.parts .trl trl
  exact ⟨by rw [same], by rw [same], h.regs _ (by simp [OffMaster])⟩

theorem Matched.slotted (h : Matched d t) : Slotted d t := by
  refine ⟨h.slot, h.len, h.moves.regs _ ?_⟩
  rintro ⟨i, hi, e⟩
  simp only [Reg.trSlots, Reg.trBunch] at e
  omega

/-- A frame of a class is counted for tasting. -/
def tasteCounted (d : Dev) (c : Copy) (n : Nat) : Dev := d.onTel fun m => { m with tasteN := tput 0 m.tasteN (8 * c.tile + c.cls) n }

/-- A sample goes into the ring of its tile, or is dropped where the ring is full (R405, R406). -/
def tasteSampled (d : Dev) (c : Copy) (x : Frame) : Dev :=
  let r := Reg.tile c.tile
  let e := rd d (r + Reg.tasteEvc)
  if 1024 ≤ sub32 e (rd d (r + Reg.tasteAck)) then cnt d (r + Reg.tasteDrop)
  else
    let a := r + Reg.tasteRing (e % 1024)
    cnt (wr (wr d a (tasteSample d c x % two32)) (a + 4) (tasteSample d c x / two32)) (r + Reg.tasteEvc)

theorem taste_cases (d : Dev) (c : Copy) (x : Frame) :
    taste d c x = d ∨ (∃ n, taste d c x = tasteCounted d c n) ∨ taste d c x = tasteSampled (tasteCounted d c 0) c x := by
  unfold taste
  dsimp only
  split
  · exact .inl rfl
  · split
    · exact .inr (.inl ⟨_, rfl⟩)
    · exact .inr (.inr rfl)

theorem moves_tasteSampled (d : Dev) (c : Copy) (x : Frame) : Moves ps OffMaster d (tasteSampled d c x) := by
  unfold tasteSampled
  dsimp only
  split
  · exact moves_cnt _ (offMaster_tile _ (by decide) (by decide))
  · refine (moves_wr _ _ ?_).trans ((moves_wr _ _ ?_).trans (moves_cnt _ (offMaster_tile _ (by decide) (by decide)))) <;>
      simp only [OffMaster, Reg.tile, Reg.tasteRing, Reg.trSlots, Reg.trHdrErr, Reg.trHdrEvc] <;> omega

theorem moves_tasteCounted (d : Dev) (c : Copy) (n : Nat) : Moves [.tel] rs d (tasteCounted d c n) := moves_onTel d _ (by simp)

theorem moves_taste (d : Dev) (c : Copy) (x : Frame) : Moves [.tel] OffMaster d (taste d c x) := by
  rcases taste_cases d c x with e | ⟨n, e⟩ | e <;> rw [e]
  · exact .refl d
  · exact moves_tasteCounted d c n
  · exact (moves_tasteCounted d c 0).trans (moves_tasteSampled _ c x)

/-- A frame of TC0 to TC7 that begins to leave its VOQ is tasted. -/
def tasted (d : Dev) (c : Copy) : Dev :=
  match c.sent, frameOf d c.frame with
  | 0, some x => taste d c x
  | _, _ => d

/-- Cells of a copy cross. -/
def crossed (id n : Nat) (d : Dev) : Dev := setCopy d id fun c =>
  { c with sent := c.sent + n, loc := if c.loc = .voq then .crossing else c.loc, chain := c.chain.drop n }

theorem take_cases (f : Fill) (id : Nat) :
    (f.take id).dev = f.dev ∨ ∃ c n, (f.take id).dev = voqChange c.tile c.voq (crossed id n) (tasted f.dev c) := by
  unfold Fill.take
  split
  · exact .inl rfl
  · split
    · exact .inl rfl
    · rename_i c _
      dsimp only
      split
      · exact .inl rfl
      · exact .inr ⟨c, _, rfl⟩

theorem moves_tasted (d : Dev) (c : Copy) : Moves [.tel] OffMaster d (tasted d c) := by
  unfold tasted
  split
  · exact moves_taste ..
  · exact .refl d

theorem moves_crossed (d : Dev) (id n : Nat) : Moves [.buf] rs d (crossed id n d) := moves_setCopy d (by simp) id _

theorem moves_take (f : Fill) (id : Nat) : Moves [.tel, .buf] OffMaster f.dev (f.take id).dev := by
  obtain same | ⟨c, n, crosses⟩ := take_cases f id
  · rw [same]
    exact .refl _
  · rw [crosses]
    have left : Moves [.buf] OffMaster _ (voqChange c.tile c.voq (crossed id n) (tasted f.dev c)) :=
      counts_voqChange (by simp) (fun _ => offMaster_voqCount) _ _ (moves_crossed _ id n)
    exact ((moves_tasted f.dev c).mono (by simp) fun _ h => h).trans (left.mono (by simp) fun _ h => h)

theorem slotted_takes (l : List Nat) (f : Fill) : Slotted f.dev (l.foldl Fill.take f).dev := by
  induction l generalizing f with
  | nil => exact .refl _
  | cons id l ih => exact (Slotted.of_moves (moves_take f id) (by simp)).trans (ih _)

theorem moves_discarded (d : Dev) (n : Nat) : Moves [.buf, .egr, .host] OffMaster d (discardCopy d n) :=
  counts_discardCopy (by simp) (fun _ => offMaster_voqCount) (by simp) (by simp) d n

theorem slotted_fillGroup (fuel n u ready : Nat) (tc6 : Bool) (f : Fill) : Slotted f.dev (fillGroup fuel n u ready tc6 f).dev := by
  induction fuel generalizing f with
  | zero => exact .refl _
  | succ fuel ih =>
    unfold fillGroup
    split
    · exact .refl _
    · dsimp only
      split
      · exact .refl _
      · split
        · exact .refl _
        · split
          · exact .refl _
          · split
            · have counted : Moves [.buf, .egr, .host] OffMaster f.dev (tcnt f.dev n Reg.dropOverage) :=
                moves_tcnt f.dev (offMaster_tile n (by decide) (by decide))
              refine .trans ?_ (ih _)
              exact Slotted.of_moves (counted.trans (moves_discarded _ _)) (by simp)
            · refine .trans ?_ (ih _)
              exact (Slotted.of_moves (moves_take f _) (by simp)).trans ⟨rfl, rfl, rfl⟩

/-- A bunch is on its way. -/
def inFlight (d : Dev) (g : Grant) (l : List BunchPiece) : Dev :=
  d.onTrl fun t => { t with flight := t.flight ++ [{ src := g.src, dst := g.dst, pieces := l }] }

/-- It is counted at its tile. -/
def bunchSent (d : Dev) (g : Grant) (l : List BunchPiece) (bytes : Nat) : Dev :=
  let d := cnt (inFlight d g l) (Reg.trSrcBunch (g.src / 8))
  if bytes < 2048 then cnt d Reg.trBunchPart else d

/-- TC7 copies of a grant's pair, oldest first (R317). -/
def tc7First (d : Dev) (g : Grant) : List Nat :=
  (sortBy (arrivedAt d) ((bound d (g.src / 8) (g.dst / 8)).filter fun e => tc7Waits e.2 && copyReady d e.2)).map (·.1)

/-- Copies of a grant's pair that go on (R316). -/
def goingOn (d : Dev) (g : Grant) : List Nat :=
  ((bound d (g.src / 8) (g.dst / 8)).filter fun e => continuing e.2 && decide (e.2.part ≠ .tc7)).map (·.1)

/-- What a grant's bunch is filled with. -/
def bunchFilled (d : Dev) (g : Grant) : Fill :=
  let fuel := 1 + (bound d (g.src / 8) (g.dst / 8)).length
  fillGroup fuel (g.src / 8) (g.dst / 8) g.ready false (fillGroup fuel (g.src / 8) (g.dst / 8) g.ready true
    ((goingOn d g).foldl Fill.take ((tc7First d g).foldl Fill.take { dev := d })))

theorem sendBunch_eq (d : Dev) (g : Grant) : sendBunch d g =
    if (bunchFilled d g).pieces = [] then cnt (bunchFilled d g).dev Reg.trBunchEmpty
    else bunchSent (bunchFilled d g).dev g (bunchFilled d g).pieces (bunchFilled d g).bytes := rfl

theorem slotted_cnt (d : Dev) {a : Nat} (ha : a ≠ Reg.trSlots) : Slotted d (cnt d a) :=
  ⟨by rw [cnt_trl], by rw [cnt_trl], rd_cnt_ne _ ha.symm⟩

theorem slotted_bunchSent (d : Dev) (g : Grant) (l : List BunchPiece) (bytes : Nat) :
    Slotted d (bunchSent d g l bytes) := by
  have under : Reg.trSrcBunch (g.src / 8) ≠ Reg.trSlots := by simp only [Reg.trSrcBunch, Reg.trSlots]; omega
  have sent : Slotted d (inFlight d g l) := ⟨rfl, rfl, rfl⟩
  have counted := sent.trans (slotted_cnt _ under)
  unfold bunchSent
  dsimp only
  split
  · exact counted.trans (slotted_cnt _ (by decide))
  · exact counted

theorem slotted_bunchFilled (d : Dev) (g : Grant) : Slotted d (bunchFilled d g).dev :=
  ((slotted_takes _ { dev := d }).trans (slotted_takes _ _)).trans ((slotted_fillGroup ..).trans (slotted_fillGroup ..))

theorem slotted_sendBunch (d : Dev) (g : Grant) : Slotted d (sendBunch d g) := by
  have filled := slotted_bunchFilled d g
  rw [sendBunch_eq]
  split
  · exact filled.trans (slotted_cnt _ (by decide))
  · exact filled.trans (slotted_bunchSent ..)

theorem slotted_transfer (l : List Grant) (d : Dev) : Slotted d (l.foldl sendBunch d) := .foldl l slotted_sendBunch d

/-! ## Errors met on the way out (R245, R313) -/

/-- Cells of a chain that no link leads to any more. -/
theorem moves_loseCells (d : Dev) (n id i : Nat) (l : List Nat) : Moves [.buf, .egr, .host] rs d (loseCells d n id i l) :=
  (moves_cellsStray d n l).mono (by simp) (fun _ h => h) |>.trans (moves_setCopy _ (by simp) id _)

theorem moves_condemnCopy (d : Dev) (n : Nat) (l : List Nat) : Moves [.buf, .egr, .host] OffMaster d (condemnCopy d n l) :=
  counts_condemnCopy (by simp) (fun _ => offMaster_voqCount) (by simp) (by simp) offMaster_mirDrop d n l

theorem moves_cellErr (n : Nat) (beyond : List Nat) (d : Dev) (e : CellErr) :
    Moves [.buf, .egr, .host] OffMaster d (cellErr n beyond d e) := by
  have counted (d : Dev) {o : Nat} (least : 0x2000 ≤ o) (most : o < 0x10_0000) : Moves [.buf, .egr, .host] OffMaster d (tcnt d n o) :=
    moves_tcnt d (offMaster_tile n least most)
  unfold cellErr
  split
  · exact counted d (by decide) (by decide)
  · refine (counted d (o := Reg.cellEccUncorr) (by decide) (by decide)).trans ?_
    dsimp only
    split
    · exact .refl _
    · split
      · exact (moves_loseCells ..).trans (moves_condemnCopy ..)
      · exact moves_condemnCopy ..

theorem moves_slotErr (was sent d : Dev) (e : CellErr) : Moves [.buf, .egr, .host] OffMaster d (slotErr was sent d e) := by
  unfold slotErr
  split
  · exact .ite (moves_cellErr ..) (.refl d)
  · exact .refl d

/-! ## A slot -/

theorem moves_dropDown_master (d : Dev) (n id : Nat) : Moves [.buf, .egr, .host] OffMaster d (dropDown d n id) := by
  unfold dropDown
  split
  · exact .refl d
  · rename_i c _
    refine Moves.trans ?_ (moves_discarded _ id)
    split
    · exact moves_cnt d (offMaster_mirDrop ..)
    · exact moves_tcnt d (offMaster_tile n (by decide) (by decide))

theorem moves_dropDeadHeads (d : Dev) : Moves [.buf, .egr, .host] OffMaster d (dropDeadHeads d) :=
  .foldl _ (fun d _ _ => moves_dropDown_master d _ _) d

/-- The matches in the making, one for each of five slots. -/
def padded (d : Dev) : Dev := d.onTrl fun t => { t with matching := padMatch t.matching }

/-- The device whose match goes on: dead heads are gone and held tiles counted. -/
def slotOpened (d : Dev) : Dev :=
  cntAdd (dropDeadHeads (padded d)) Reg.trHoldCnt ((List.range 16).filter (landHeld (dropDeadHeads (padded d)))).length

/-- What the slot's own match has transferred. -/
def slotSent (d : Dev) : Dev := (bySource (matchAt d 0)).foldl sendBunch d

/-- The slot is over: its match is used up, and the reports are those made in it. -/
def slotOver (d : Dev) (req vecs free : Tab Nat) : Dev := d.onTrl fun t => { t with
  matching := t.matching.drop 1, req, readyRep := vecs, freeRep := free, slot := t.slot + 1 }

theorem trellisSlot_eq (errs : List CellErr) (d : Dev) : ∃ req vecs free, trellisSlot errs d =
    xoffExits (cnt (slotOver (errs.foldl (slotErr (matchStages (slotOpened d)) (slotSent (matchStages (slotOpened d))))
      (slotSent (matchStages (slotOpened d)))) req vecs free) Reg.trSlots) := ⟨_, _, _, rfl⟩

theorem length_padMatch {l : List (List Grant)} (h : l.length ≤ 5) : (padMatch l).length = 5 := by
  simp only [padMatch, List.length_append, List.length_replicate]
  omega

theorem slotted_slotOpened (d : Dev) : Slotted (padded d) (slotOpened d) := by
  refine (Slotted.of_moves (moves_dropDeadHeads _) (by simp)).trans ?_
  exact Slotted.of_moves (ps := []) (moves_cntAdd _ _ (by decide)) (by simp)

/-- What a slot leaves of the master's matches and of the count. -/
theorem trellisSlot_counts (errs : List CellErr) (d : Dev) (h : d.trl.matching.length ≤ 5) :
    (trellisSlot errs d).trl.slot = d.trl.slot + 1 ∧ rd (trellisSlot errs d) Reg.trSlots = (rd d Reg.trSlots + 1) % two32 ∧
      (trellisSlot errs d).trl.matching.length = 4 := by
  obtain ⟨req, vecs, free, run⟩ := trellisSlot_eq errs d
  rw [run]
  have opened := slotted_slotOpened d
  generalize slotOpened d = o at *
  have matched := (matched_matchStages o).slotted
  generalize matchStages o = m at *
  have sent : Slotted m (slotSent m) := slotted_transfer _ m
  have met : Slotted (slotSent m) (errs.foldl (slotErr m (slotSent m)) (slotSent m)) :=
    .of_moves (.foldl errs (fun d e _ => moves_slotErr m _ d e) _) (by simp)
  have kept := opened.trans (matched.trans (sent.trans met))
  generalize errs.foldl (slotErr m (slotSent m)) (slotSent m) = e at *
  have exits : Moves [.buf, .egr] (fun _ => False) _ (xoffExits (cnt (slotOver e req vecs free) Reg.trSlots)) :=
    moves_xoffExits _ (by simp) (by simp)
  have trl : (xoffExits (cnt (slotOver e req vecs free) Reg.trSlots)).trl = (slotOver e req vecs free).trl :=
    (exits.parts .trl (by simp)).trans (cnt_trl ..)
  obtain ⟨slot, len, count⟩ := kept
  refine ⟨?_, ?_, ?_⟩
  · rw [trl, slotOver, Dev.onTrl_trl, slot]
    rfl
  · rw [exits.regs _ id, rd_cnt_self, slotOver, rd_onTrl, count]
    rfl
  · rw [trl, slotOver, Dev.onTrl_trl, List.length_drop, len, padded, Dev.onTrl_trl, length_padMatch h]

theorem trellisTurn_alive (live : alive d = true) (errs : List CellErr) : trellisTurn errs d = trellisSlot errs d := by
  have phase := of_decide_eq_true live
  rw [trellisTurn, if_pos (by tauto)]

theorem trellisSlot_ends (errs : List CellErr) (live : alive s.dev = true) (len : s.dev.trl.matching.length ≤ 5) :
    Ends (.trellisSlot errs) s fun t =>
      t.trl.slot = s.dev.trl.slot + 1 ∧ rd t Reg.trSlots = (rd s.dev Reg.trSlots + 1) % two32 ∧ t.trl.matching.length = 4 := by
  refine ends_of_runIf (f := trellisTurn errs) rfl rfl ?_
  rw [trellisTurn_alive (d := begun s) live]
  have counts := trellisSlot_counts errs (begun s) len
  rw [settle_trl, rd_settle _ (by decide)]
  exact counts

/-! ## A TC7 copy that is alone crosses whole (R317) -/

variable {id : Nat} {c : Copy} {x : Frame} {g : Grant} {b : Nat}

theorem flatMap_range_one {α : Type} (n k : Nat) (y : α) :
    ((List.range n).flatMap fun i => if k = i then [y] else []) = if k < n then [y] else [] := by
  induction n with
  | zero => rfl
  | succ n ih =>
    rw [List.range_succ, List.flatMap_append, ih, List.flatMap_singleton]
    by_cases lt : k < n
    · rw [if_pos lt, if_neg (by omega), if_pos (by omega), List.append_nil]
    · by_cases eq : k = n
      · rw [if_neg lt, if_pos eq, if_pos (by omega), List.nil_append]
      · rw [if_neg lt, if_neg eq, if_neg (by omega), List.nil_append]

theorem bySource_one (hg : g.src < 128) : bySource [g] = [g] := by
  have each (c : Nat) : [g].filter (fun g => decide (g.src = c)) = if g.src = c then [g] else [] := by
    by_cases h : g.src = c <;> simp [h]
  simp only [bySource, each, flatMap_range_one, if_pos hg]

/-- How a copy is taken into a bunch (R311, R312). -/
theorem take_some {f : Fill} {k n : Nat} (room : f.full = false) (copy : copyOf f.dev id = some c)
    (fit : fitCells 32 c.sent c.cells (heldLen f.dev c) f.n f.bytes 0 = (k, n, b)) (some : k ≠ 0) : f.take id =
      { dev := voqChange c.tile c.voq (crossed id k) (tasted f.dev c), n, bytes := b
        pieces := f.pieces ++
          [{ copy := id, frame := c.frame, mirror := c.mirror.isSome, first := c.sent, cells := k, bytes := b - f.bytes }]
        full := decide (c.sent + k < c.cells) } := by
  simp only [Fill.take, room, copy, fit, some]
  rfl

theorem starters_tc7 {l : List (Nat × Copy)} (tc7 : ∀ e ∈ l, e.2.part = .tc7) (v : Nat) : starters d l v = [] := by
  have none : l.filter (fun e => decide (e.2.voq = v ∧ e.2.loc = .voq ∧ e.2.part ≠ .tc7)) = [] :=
    List.filter_eq_nil_iff.2 fun e he => by simp [tc7 e he]
  rw [starters, none]
  rfl

theorem startable_tc7 (tc7 : ∀ e ∈ d.buf.copies, e.2.part = .tc7) (n u ready : Nat) (tc6 : Bool) : startable d n u ready tc6 = [] := by
  refine List.filter_eq_nil_iff.2 fun v _ => ?_
  rw [starters_tc7 (l := bound d n u) (fun e he => tc7 e (List.mem_filter.1 he).1) v]
  simp

/-- Where only TC7 waits, the turns of the VOQs add nothing. -/
theorem fillGroup_tc7 {f : Fill} (tc7 : ∀ e ∈ f.dev.buf.copies, e.2.part = .tc7) (fuel n u ready : Nat) (tc6 : Bool) :
    fillGroup fuel n u ready tc6 f = f := by
  have none (last : Option Nat) : nextVoq last [] = none := by cases last <;> rfl
  cases fuel with
  | zero => rfl
  | succ fuel =>
    unfold fillGroup
    rw [startable_tc7 tc7]
    split
    · rfl
    · simp only [none]

theorem copies_freeRacks (l : List Rack) (d : Dev) : (l.foldl freeRack d).buf.copies = d.buf.copies := by
  induction l generalizing d with
  | nil => rfl
  | cons r l ih => exact (ih _).trans rfl

theorem copies_endSpill (k v : Nat) (left : Bool) (none : ∀ e ∈ d.buf.copies, e.2.loc ≠ .staging) :
    (endSpill d k v left).buf.copies = d.buf.copies := by
  unfold endSpill
  dsimp only
  split
  · rfl
  · rw [(sameFlow_checkSpill ..).copies, Dev.onBuf_buf]
    dsimp only
    rw [copies_freeRacks]
    refine (List.map_congr_left fun e he => ?_).trans (List.map_id _)
    rw [if_neg fun ⟨_, _, staging⟩ => none e he staging]
    rfl

theorem copies_voqChange {f : Dev → Dev} (k v : Nat) (none : ∀ e ∈ (f d).buf.copies, e.2.loc ≠ .staging) :
    (voqChange k v f d).buf.copies = (f d).buf.copies := by
  unfold voqChange
  dsimp only
  split
  · rw [copies_endSpill, tcnt, cnt_buf]
    rwa [tcnt, cnt_buf]
  · exact copies_endSpill _ _ _ none

theorem sameFlow_leaveXoff (d : Dev) (p c : Nat) : SameFlow d (leaveXoff d p c) :=
  .ite ((sameFlow_onBuf d _).trans (sameFlow_sendPfc ..)) (.refl d)

theorem sameFlow_xoffExits (d : Dev) : SameFlow d (xoffExits d) :=
  foldl_keeps_prop (P := SameFlow d) (fun _ _ h => h.trans (sameFlow_leaveXoff ..)) _ (.refl d)

/-- The copy when it has crossed whole. -/
def crossedWhole (c : Copy) : Copy := { c with sent := c.cells, loc := .crossing, chain := c.chain.drop c.cells }

theorem copies_crossed (copies : d.buf.copies = [(id, c)]) (loc : c.loc = .voq) (unsent : c.sent = 0) :
    (crossed id c.cells d).buf.copies = [(id, crossedWhole c)] := by
  simp [crossed, setCopy, copies, tfind, tins, crossedWhole, loc, unsent]

/-- The copy is alone in the device, waits whole and may cross. -/
structure AloneReady (d : Dev) (g : Grant) (id : Nat) (c : Copy) : Prop where
  alone : d.buf.copies = [(id, c)]
  bound : bound d (g.src / 8) (g.dst / 8) = [(id, c)]
  waits : tc7Waits c = true
  ready : copyReady d c = true
  tc7 : c.part = .tc7
  loc : c.loc = .voq
  unsent : c.sent = 0

/-- The piece that it makes. -/
def wholePiece (id : Nat) (c : Copy) (b : Nat) : BunchPiece :=
  { copy := id, frame := c.frame, mirror := c.mirror.isSome, first := 0, cells := c.cells, bytes := b }

theorem bunchFilled_alone (h : AloneReady d g id c) (cells : 1 ≤ c.cells)
    (fit : fitCells 32 0 c.cells (heldLen d c) 0 0 0 = (c.cells, c.cells, b)) :
    (bunchFilled d g).dev.buf.copies = [(id, crossedWhole c)] ∧ (bunchFilled d g).pieces = [wholePiece id c b] ∧
      (bunchFilled d g).dev.trl = d.trl := by
  obtain ⟨alone, bound, waits, ready, tc7, loc, unsent⟩ := h
  have copy : copyOf d id = some c := by rw [copyOf, alone, tfind, if_pos rfl]
  have first : tc7First d g = [id] := by simp [tc7First, bound, waits, ready, sortBy, insertBy]
  have rest : goingOn d g = [] := by simp [goingOn, bound, continuing, unsent]
  have taken := take_some (f := { dev := d }) (n := c.cells) (k := c.cells) rfl copy (by rw [unsent]; exact fit) (by omega)
  have tasted := moves_tasted d c
  have copies := copies_crossed (d := Machine.tasted d c) (by rw [tasted.buf (by simp), alone]) loc unsent
  have whole : (voqChange c.tile c.voq (crossed id c.cells) (Machine.tasted d c)).buf.copies = [(id, crossedWhole c)] := by
    rw [copies_voqChange, copies]
    rw [copies]
    simp [crossedWhole]
  have trl : (Fill.take { dev := d } id).dev.trl = d.trl := (moves_take { dev := d } id).parts .trl (by simp)
  have filled : bunchFilled d g = Fill.take { dev := d } id := by
    have only : ∀ e ∈ (Fill.take { dev := d } id).dev.buf.copies, e.2.part = .tc7 := by
      rw [taken, whole]
      simp [crossedWhole, tc7]
    rw [bunchFilled, first, rest]
    dsimp only [List.foldl_cons, List.foldl_nil]
    rw [fillGroup_tc7 only, fillGroup_tc7 only]
  refine ⟨?_, ?_, ?_⟩
  · rw [filled, taken, whole]
  · rw [filled, taken, unsent]
    rfl
  · rw [filled, trl]

theorem sendBunch_alone (h : AloneReady d g id c) (cells : 1 ≤ c.cells)
    (fit : fitCells 32 0 c.cells (heldLen d c) 0 0 0 = (c.cells, c.cells, b)) :
    (sendBunch d g).buf.copies = [(id, crossedWhole c)] ∧
      (sendBunch d g).trl.flight = d.trl.flight ++ [{ src := g.src, dst := g.dst, pieces := [wholePiece id c b] }] := by
  obtain ⟨copies, pieces, trl⟩ := bunchFilled_alone h cells fit
  have sent (e : Dev) (l : List BunchPiece) (n : Nat) : (bunchSent e g l n).buf = e.buf ∧
      (bunchSent e g l n).trl.flight = e.trl.flight ++ [{ src := g.src, dst := g.dst, pieces := l }] := by
    unfold bunchSent
    dsimp only
    split <;> simp only [cnt_buf, cnt_trl, inFlight, Dev.onTrl_buf, Dev.onTrl_trl, and_self]
  rw [sendBunch_eq, if_neg (by simp [pieces])]
  obtain ⟨buf, flight⟩ := sent (bunchFilled d g).dev (bunchFilled d g).pieces (bunchFilled d g).bytes
  rw [buf, flight, copies, trl, pieces]
  exact ⟨rfl, rfl⟩

theorem dropDeadHeads_none (alone : d.buf.copies = [(id, c)]) (live : portDead d c.port = false) : dropDeadHeads d = d := by
  simp [dropDeadHeads, alone, live]

/-- Before the transfer nothing of a device without dead heads has changed but its match. -/
theorem slotOpened_alone (alone : d.buf.copies = [(id, c)]) (live : portDead d c.port = false) :
    (slotOpened d).buf = d.buf ∧ (slotOpened d).trl = (padded d).trl := by
  rw [slotOpened, dropDeadHeads_none (d := padded d) alone live, cntAdd_buf, cntAdd_trl]
  exact ⟨rfl, rfl⟩

theorem matchAt_padded {l : List Grant} (head : d.trl.matching.head? = some l) : matchAt (padded d) 0 = l := by
  obtain ⟨r, e⟩ := List.head?_eq_some_iff.1 head
  simp [matchAt, padded, padMatch, e]

theorem heldLen_congr (h : SameFlow d t) (c : Copy) : heldLen t c = heldLen d c := by
  simp only [heldLen, copyBytes, h.frameOf]

theorem trellisSlot_alone (head : s.dev.trl.matching.head? = some [g]) (live : alive s.dev = true)
    (alone : s.dev.buf.copies = [(id, c)]) (tc7 : c.part = .tc7) (loc : c.loc = .voq)
    (unsent : c.sent = 0) (full : c.lifeline = false) (linked : portDead s.dev c.port = false) (frame : frameOf s.dev c.frame = some x)
    (tail : x.tailIn = true) (good : x.fcsOk = true) (hg : g.src < 128) (src : g.src / 8 = c.tile) (dst : g.dst / 8 = tileOf c.port)
    (cells : 1 ≤ c.cells) (fit : fitCells 32 0 c.cells (heldLen s.dev c) 0 0 0 = (c.cells, c.cells, b)) :
    Ends (.trellisSlot []) s fun t =>
      t.trl.flight = s.dev.trl.flight ++ [{ src := g.src, dst := g.dst, pieces :=
          [{ copy := id, frame := c.frame, mirror := c.mirror.isSome, first := 0, cells := c.cells, bytes := b }] }] ∧
        copyOf t id = some { c with sent := c.cells, loc := .crossing, chain := c.chain.drop c.cells } := by
  refine ends_of_runIf (f := trellisTurn []) rfl rfl ?_
  rw [trellisTurn_alive (d := begun s) live]
  obtain ⟨req, vecs, free, run⟩ := trellisSlot_eq [] (begun s)
  rw [run, List.foldl_nil]
  obtain ⟨openBuf, openTrl⟩ := slotOpened_alone (d := begun s) alone linked
  have matched := matched_matchStages (slotOpened (begun s))
  have buf : (matchStages (slotOpened (begun s))).buf = s.dev.buf := (matched.moves.buf (by simp)).trans openBuf
  have flight : (matchStages (slotOpened (begun s))).trl.flight = s.dev.trl.flight := by
    rw [matched.flight, openTrl]
    rfl
  have first : matchAt (matchStages (slotOpened (begun s))) 0 = [g] := by
    rw [matched.first, matchAt, openTrl]
    exact matchAt_padded (d := begun s) head
  generalize matchStages (slotOpened (begun s)) = m at *
  have flow : SameFlow s.dev m := .of_buf buf
  have ready : AloneReady m g id c := by
    refine ⟨buf ▸ alone, ?_, ?_, ?_, tc7, loc, unsent⟩
    · simp [bound, buf, alone, src, dst, full]
    · simp [tc7Waits, tc7, loc, unsent]
      omega
    · simp [copyReady, flow.frameOf, frame, tail, good]
  obtain ⟨copies, sent⟩ := sendBunch_alone ready cells (by rw [heldLen_congr flow]; exact fit)
  have transfer : slotSent m = sendBunch m g := by rw [slotSent, first, bySource_one hg, List.foldl_cons, List.foldl_nil]
  rw [transfer]
  generalize sendBunch m g = w at *
  have exits : Moves [.buf, .egr] (fun _ => False) _ (xoffExits (cnt (slotOver w req vecs free) Reg.trSlots)) :=
    moves_xoffExits _ (by simp) (by simp)
  refine ⟨?_, ?_⟩
  · rw [settle_trl, show (xoffExits _).trl = _ from exits.parts .trl (by simp), cnt_trl, slotOver, Dev.onTrl_trl]
    exact sent.trans (by rw [flight]; rfl)
  · rw [copyOf, settle_buf, (sameFlow_xoffExits _).copies, cnt_buf, slotOver, Dev.onTrl_buf, copies, tfind, if_pos rfl]
    rfl

/-- Settles O51: the transfer leaves the match, and the match leaves the transfer; a copy that is alone is its bunch; what a bunch does that
lands is what its pieces do. -/
theorem slotsSendBunchesThatLand : Obligations.SlotsSendBunchesThatLand := by
  intro s
  refine ⟨fun errs live len _ => trellisSlot_ends errs live len, ?_, fun u k hu find => ⟨?_, ?_, ?_, ?_⟩⟩
  · intro id c x g b live head _ alone _ _ tc7 loc unsent full linked frame tail good hg src dst cells fit
    exact trellisSlot_alone head live alone tc7 loc unsent full linked frame tail good hg src dst cells fit
  · exact fun q c errs one copy room other => bunchLand_joins hu find one copy room other
  · exact fun q e one room copy first last link bad => bunchLand_corrected hu find one room copy first last link bad
  · exact fun q c errs one copy tc7 full => bunchLand_refused hu find errs one copy tc7 full
  · exact fun errs _ => bunchLand_discarded hu find errs

end Sys2Proof.Machine
end

section
/-! The list that GATE_LIST_SET leaves (R380): one that waits for T_new beside the list in force, or none and every gate open. -/

namespace Sys2Proof.Machine

open Sys2Proof

variable {d : Dev} {s : State} {ch p n : Nat} {sl : Slot} {l : List Byte}

/-- The list of a payload (Table 12-12). -/
def payloadList (l : List Byte) : GateList := ⟨le l 4 8, le l 12 4, le l 16 4, (elements 8 (l.drop 24)).map parseGate⟩

/-- T_new of the list of a payload that comes now. -/
def payloadStart (d : Dev) (l : List Byte) : Nat := tNew (le l 4 8) (le l 12 4) (extTime d)

/-- A device whose port p has list g waiting for extended time u. -/
def listWaits (d : Dev) (p : Nat) (g : GateList) (u : Nat) : Dev :=
  setFlag (setEgr d p fun e => { e with pending := some (g, u) }) (stsAddr p) 9 true

/-- What GATE_LIST_SET gives for a good list. -/
def waitDone (d : Dev) (p : Nat) (l : List Byte) : Res :=
  { dev := putCfg (listWaits d p (payloadList l) (payloadStart d l)) 42 p (l.drop 4), payload := toLe 8 (payloadStart d l), vint := true }

/-- What it gives with `GATE_EN` 0. -/
def stopDone (d : Dev) (p : Nat) : Res :=
  { dev := delCfg (stopGates d p) 42 p [], payload := toLe 8 (extTime d), vint := true }

theorem gateListSetRes_waits (hp : p = le sl.payload 0 2) (hn : n = le sl.payload 2 2) (len : sl.len = 24 + 8 * n)
    (head : gateHeadOk sl.payload = true) (en : le sl.payload 20 1 = 1) (ok : gateListOk sl.payload n = true) :
    gateListSetRes d sl = waitDone d p sl.payload := by
  subst hp hn
  obtain ⟨times, good⟩ : gateTimesOk sl.payload (le sl.payload 2 2) = true ∧ badGate sl.payload = none := by simpa [gateListOk] using ok
  simp [gateListSetRes, len, head, en, times, good, loadGates, waitDone, listWaits, payloadList, payloadStart]

theorem gateListSetRes_stops (hp : p = le sl.payload 0 2) (hn : n = le sl.payload 2 2) (len : sl.len = 24 + 8 * n)
    (head : gateHeadOk sl.payload = true) (en : le sl.payload 20 1 = 0) (bare : n = 0) : gateListSetRes d sl = stopDone d p := by
  subst hp
  simp [gateListSetRes, len, head, en, ← hn, bare, stopDone]

theorem moves_listWaits (d : Dev) (p : Nat) (g : GateList) (u : Nat) : Moves [.egr] (· ∈ [stsAddr p]) d (listWaits d p g u) :=
  (moves_setEgr d p _ (by simp)).trans (moves_setFlag _ 9 true (by simp))

theorem moves_stopGates (d : Dev) (p : Nat) : Moves [.egr] (· ∈ [stsAddr p, Reg.egr p + Reg.eCfg]) d (stopGates d p) :=
  ((moves_setEgr d p _ (by simp)).trans (moves_setFlag _ 0 false (by simp))).trans
    ((moves_setFld _ 0 11 0xFF (by simp)).trans (moves_setFlag _ 12 false (by simp)))

theorem egrOf_listWaits (d : Dev) (p : Nat) (g : GateList) (u : Nat) :
    egrOf (listWaits d p g u) p = { egrOf d p with pending := some (g, u) } := by
  rw [listWaits, egrOf_setFlag, egrOf_setEgr_self]

theorem egrOf_listWaits_ne (s : State) (g : GateList) (u : Nat) {q : Nat} (h : q ≠ p) :
    egrOf (listWaits (begun s) p g u) q = egrOf s.dev q := by
  rw [listWaits, egrOf_setFlag, egrOf_setEgr_ne _ _ h, egrOf_begun]

theorem egrOf_stopGates (d : Dev) (p : Nat) :
    egrOf (stopGates d p) p = { egrOf d p with gates := none, pending := none, cycleAt := 0, entry := 0 } := by
  simp only [stopGates, egrOf_setFlag, egrOf_setFld, egrOf_setFlag, egrOf_setEgr_self]

theorem egrOf_stopGates_ne (s : State) {q : Nat} (h : q ≠ p) : egrOf (stopGates (begun s) p) q = egrOf s.dev q := by
  simp only [stopGates, egrOf_setFlag, egrOf_setFld, egrOf_setFlag, egrOf_setEgr_ne _ _ h, egrOf_begun]

theorem flag_listWaits (d : Dev) (p : Nat) (g : GateList) (u : Nat) : flag (listWaits d p g u) (stsAddr p) 9 = true :=
  flag_setFlag_self _ _ _ _ (by decide)

/-- The low bits of a field. -/
theorem fld_low (d : Dev) (a lo : Nat) {v w : Nat} (h : v ≤ w) : fld d a lo v = fld d a lo w % 2 ^ v := by
  rw [fld, fld, bits, bits, Nat.mod_mod_of_dvd _ (Nat.pow_dvd_pow 2 h)]

/-- The gates open and the list is off (R380). -/
theorem stopGates_open (d : Dev) (p : Nat) :
    fld (stopGates d p) (stsAddr p) 0 8 = 0xFF ∧ flag (stopGates d p) (Reg.egr p + Reg.eCfg) 0 = false := by
  have ne : Reg.egr p + Reg.eCfg ≠ stsAddr p := by simp [stsAddr, Reg.eCfg, Reg.eSts]
  constructor
  · rw [stopGates, setFlag, fld_setFld_other _ _ 12 1 _ 0 8 (by decide) (by decide), fld_low _ _ _ (w := 11) (by decide),
      fld_setFld_self _ _ _ _ _ (by decide)]
    rfl
  · rw [stopGates, flag_setFlag_ne _ _ _ _ ne, flag, rd_setFld_ne _ _ _ _ ne]
    exact flag_setFlag_self _ _ _ _ (by decide)

theorem egrOf_putCfg (d : Dev) (ty i : Nat) (v : List Byte) (q : Nat) : egrOf (putCfg d ty i v) q = egrOf d q := rfl
theorem egrOf_delCfg (d : Dev) (ty i : Nat) (v : List Byte) (q : Nat) : egrOf (delCfg d ty i v) q = egrOf d q := rfl
theorem rd_putCfg (d : Dev) (ty i : Nat) (v : List Byte) (a : Nat) : rd (putCfg d ty i v) a = rd d a := rfl
theorem rd_delCfg (d : Dev) (ty i : Nat) (v : List Byte) (a : Nat) : rd (delCfg d ty i v) a = rd d a := rfl

/-- How the command ends with a result that moved gate state of port p alone. -/
theorem gateListSet_ends {r : Res} {rl : List Nat} (hc : ch < 16) (hs : Served s.dev ch sl) (ha : Accepted s.dev ch sl 0x403 0)
    (len : (decide (sl.len = 24) || headedLen 24 8 1024 sl) = true) (hp : p < 512) (run : gateListSetRes (begun s) sl = r)
    (moved : Moves [.egr, .host] (· ∈ rl) (begun s) r.dev) (own : ∀ a ∈ rl, a = stsAddr p ∨ a = Reg.egr p + Reg.eCfg)
    (ok : r.status = 0 ∧ r.detail = 0xFFFF ∧ r.reason = 0) : Ends (.gateListSet ch) s fun t =>
      AnsweredOk s.dev t ch sl r.payload ∧ (∀ q, egrOf t q = egrOf r.dev q) ∧
        (∀ o < 0x80, rd t (Reg.egr p + o) = rd r.dev (Reg.egr p + o)) ∧ OnlyRegsBeside ch rl s.dev t := by
  obtain ⟨status, detail, reason⟩ := ok
  have mailbox (o : Nat) (ho : o < 0x100) : Reg.chan ch + o ∉ rl := fun m => by
    have := own _ m
    simp only [stsAddr, Reg.chan, Reg.egr, Reg.tile, Reg.eSts, Reg.eCfg] at this
    omega
  have served := served_of_moves hs moved (by simp) (by simp) mailbox
  refine ends_cmd (op := 0x403) (fl := 0) (flags := 0) rfl (decide_eq_true hc) hc hs ha rfl len rfl ?_
  rw [run]
  obtain ⟨answered, -, -, regs, -⟩ := completed_of_moves hc hs moved (by simp) (by simp) mailbox reason
  rw [status, detail] at answered
  refine ⟨answered, egrOf_complete hc served, fun o ho => ?_, regs rl fun _ h => h⟩
  obtain ⟨low, high⟩ := egr_range hp ho
  exact rd_complete_tile hc served (by omega) high

theorem gateListSet_waits (hc : ch < 16) (hs : Served s.dev ch sl) (ha : Accepted s.dev ch sl 0x403 0) (hp : p = le sl.payload 0 2)
    (hn : n = le sl.payload 2 2) (len : sl.len = 24 + 8 * n) (head : gateHeadOk sl.payload = true) (en : le sl.payload 20 1 = 1)
    (ok : gateListOk sl.payload n = true) : Ends (.gateListSet ch) s fun t =>
      AnsweredOk s.dev t ch sl (toLe 8 (payloadStart s.dev sl.payload)) ∧
        (egrOf t p).pending = some (payloadList sl.payload, payloadStart s.dev sl.payload) ∧
        (egrOf t p).gates = (egrOf s.dev p).gates ∧ flag t (stsAddr p) 9 = true ∧
        (∀ q, q ≠ p → egrOf t q = egrOf s.dev q) ∧ OnlyRegsBeside ch [stsAddr p] s.dev t := by
  obtain ⟨h512, -, -⟩ := of_decide_eq_true head
  rw [← hp] at h512
  obtain ⟨least, most, -⟩ := of_decide_eq_true (Bool.and_eq_true_iff.1 ok).1
  have counted : headedLen 24 8 1024 sl = true := by simp only [headedLen, len, decide_eq_true_eq]; omega
  have moved : Moves [.egr, .host] (· ∈ [stsAddr p]) (begun s) (waitDone (begun s) p sl.payload).dev :=
    ((moves_listWaits ..).mono (by simp) fun _ h => h).trans (moves_putCfg _ _ _ _ (by simp))
  refine Ends.imp (gateListSet_ends hc hs ha (by simp [counted]) h512 (gateListSetRes_waits hp hn len head en ok) moved
    (fun a h => .inl (by simpa using h)) ⟨rfl, rfl, rfl⟩) fun t ⟨answered, egr, reg, regs⟩ => ?_
  have start : payloadStart (begun s) sl.payload = payloadStart s.dev sl.payload := rfl
  have sts := reg Reg.eSts (by decide)
  simp only [waitDone, start, egrOf_putCfg, rd_putCfg] at answered egr sts
  have mine := (egr p).trans (egrOf_listWaits ..)
  refine ⟨answered, by rw [mine], by rw [mine]; rfl, ?_, fun q hq => (egr q).trans (egrOf_listWaits_ne _ _ _ hq), regs⟩
  exact (congrArg (bit · 9) sts).trans (flag_listWaits ..)

theorem gateListSet_stops (hc : ch < 16) (hs : Served s.dev ch sl) (ha : Accepted s.dev ch sl 0x403 0) (hp : p = le sl.payload 0 2)
    (hn : n = le sl.payload 2 2) (len : sl.len = 24 + 8 * n) (head : gateHeadOk sl.payload = true) (en : le sl.payload 20 1 = 0)
    (bare : n = 0) : Ends (.gateListSet ch) s fun t =>
      AnsweredOk s.dev t ch sl (toLe 8 (extTime s.dev)) ∧ (egrOf t p).gates = none ∧ (egrOf t p).pending = none ∧
        fld t (stsAddr p) 0 8 = 0xFF ∧ flag t (Reg.egr p + Reg.eCfg) 0 = false ∧
        (∀ q, q ≠ p → egrOf t q = egrOf s.dev q) ∧ OnlyRegsBeside ch [stsAddr p, Reg.egr p + Reg.eCfg] s.dev t := by
  obtain ⟨h512, -, -⟩ := of_decide_eq_true head
  rw [← hp] at h512
  have moved : Moves [.egr, .host] (· ∈ [stsAddr p, Reg.egr p + Reg.eCfg]) (begun s) (stopDone (begun s) p).dev :=
    ((moves_stopGates ..).mono (by simp) fun _ h => h).trans (moves_delCfg _ _ _ _ (by simp))
  refine Ends.imp (gateListSet_ends hc hs ha (by simp [len, bare]) h512 (gateListSetRes_stops hp hn len head en bare) moved
    (fun a h => by simpa using h) ⟨rfl, rfl, rfl⟩) fun t ⟨answered, egr, reg, regs⟩ => ?_
  have sts := reg Reg.eSts (by decide)
  have cfg := reg Reg.eCfg (by decide)
  simp only [stopDone, egrOf_delCfg, rd_delCfg] at answered egr sts cfg
  have mine := (egr p).trans (egrOf_stopGates ..)
  obtain ⟨opened, off⟩ := stopGates_open (begun s) p
  refine ⟨answered, by rw [mine], by rw [mine], ?_, ?_, fun q hq => (egr q).trans (egrOf_stopGates_ne _ hq), regs⟩
  · exact (congrArg (bits · 0 8) sts).trans opened
  · exact (congrArg (bit · 0) cfg).trans off

/-- Settles O17: a good list waits beside the one in force, and a stop ends both and opens every gate. -/
theorem gateListSetWaitsOrStops : Obligations.GateListSetWaitsOrStops := by
  rintro s ch p n _ sl hc hs ha rfl hp hn len - head
  exact ⟨gateListSet_waits hc hs ha hp hn len head, gateListSet_stops hc hs ha hp hn len head⟩

end Sys2Proof.Machine
end

section
/-! What an entry of a gate list does to a port's transmissions (R384, R385): the fragments it ends, and the place of the list,
which they leave. -/

namespace Sys2Proof.Machine

open Sys2Proof

variable {d t u : Dev} {p id i : Nat}

/-! ## The wire gives way to the gates -/

/-- Egress states of a port whose lists stand at the same place. -/
structure SameGates (e f : EgrPort) : Prop where
  gates : f.gates = e.gates
  pending : f.pending = e.pending
  cycleAt : f.cycleAt = e.cycleAt
  entry : f.entry = e.entry

theorem SameGates.refl (e : EgrPort) : SameGates e e := ⟨rfl, rfl, rfl, rfl⟩

theorem SameGates.trans {e f g : EgrPort} (h : SameGates e f) (k : SameGates f g) : SameGates e g :=
  ⟨k.gates.trans h.gates, k.pending.trans h.pending, k.cycleAt.trans h.cycleAt, k.entry.trans h.entry⟩

/-- The registers that counting a transmission or a hold writes. -/
abbrev CountReg (p a : Nat) : Prop := OfPort p a ∨ a = Reg.egr p + Reg.eHoldCnt

/-- From d to t transmissions of port p gave way to its gates: the list's place and its bits of `EGR_STS` stayed, and so did the other
ports where the preempted frame is the port's own. -/
structure GaveWay (p : Nat) (d t : Dev) : Prop where
  moves : Moves [.buf, .egr] (fun a => CountReg p a ∨ a = stsAddr p) d t
  place : SameGates (egrOf d p) (egrOf t p)
  states : fld t (stsAddr p) 0 8 = fld d (stsAddr p) 0 8
  waits : flag t (stsAddr p) 9 = flag d (stsAddr p) 9
  stands : flag t (stsAddr p) 10 = flag d (stsAddr p) 10
  own : OwnPreempt d p → OwnPreempt t p ∧ ∀ q, q ≠ p → egrOf t q = egrOf d q

theorem GaveWay.refl (p : Nat) (d : Dev) : GaveWay p d d := ⟨.refl d, .refl _, rfl, rfl, rfl, fun h => ⟨h, fun _ _ => rfl⟩⟩

theorem GaveWay.trans (h : GaveWay p d t) (k : GaveWay p t u) : GaveWay p d u :=
  ⟨h.moves.trans k.moves, h.place.trans k.place, k.states.trans h.states, k.waits.trans h.waits, k.stands.trans h.stands,
    fun own => have ⟨ownT, atT⟩ := h.own own
      have ⟨ownU, atU⟩ := k.own ownT
      ⟨ownU, fun q hq => (atU q hq).trans (atT q hq)⟩⟩

theorem GaveWay.ite {c : Prop} [Decidable c] (h : GaveWay p d t) (k : GaveWay p d u) : GaveWay p d (if c then t else u) := by
  split
  · exact h
  · exact k

theorem ownPreempt_congr (egr : (egrOf t p).preempt = (egrOf d p).preempt) (buf : t.buf = d.buf) (own : OwnPreempt d p) : OwnPreempt t p :=
  fun id c sends copy => own id c (egr ▸ sends) (by rwa [copyOf, buf, ← copyOf] at copy)

theorem stsAddr_not_countReg (p : Nat) : ¬CountReg p (stsAddr p) := by
  simp only [CountReg, OfPort, stsAddr, Reg.egr, Reg.tile, Reg.port, Reg.eSts, Reg.eHoldCnt]
  omega

theorem gaveWay_counts (h : Moves [] (CountReg p) d t) : GaveWay p d t where
  moves := h.mono (by simp) fun _ => .inl
  place := by rw [h.egr (by simp)]; exact .refl _
  states := h.fld (stsAddr_not_countReg p) ..
  waits := h.flag (stsAddr_not_countReg p) _
  stands := h.flag (stsAddr_not_countReg p) _
  own own := ⟨ownPreempt_congr (by rw [h.egr (by simp)]) (h.buf (by simp)) own, fun q _ => h.egr (by simp) q⟩

/-- Hold and the mark of a preempted frame that waits are bits of their own. -/
theorem gaveWay_setFlag (d : Dev) (p : Nat) (b : Bool) (hi : i = 8 ∨ i = 12) : GaveWay p d (setFlag d (stsAddr p) i b) where
  moves := moves_setFlag d i b (.inr rfl)
  place := .refl _
  states := fld_setFld_other _ _ _ _ _ _ _ (by decide) (by omega)
  waits := flag_setFlag_other _ _ _ _ _ (by decide) (by omega)
  stands := flag_setFlag_other _ _ _ _ _ (by decide) (by omega)
  own own := ⟨own, fun _ _ => rfl⟩

theorem gaveWay_setEgr (d : Dev) (p : Nat) (f : EgrPort → EgrPort) (place : SameGates (egrOf d p) (f (egrOf d p)))
    (same : (f (egrOf d p)).preempt = (egrOf d p).preempt) : GaveWay p d (setEgr d p f) where
  moves := moves_setEgr d p f (by simp)
  place := by rwa [egrOf_setEgr_self]
  states := rfl
  waits := rfl
  stands := rfl
  own own := ⟨ownPreempt_congr (d := d) (by rwa [egrOf_setEgr_self]) rfl own, fun _ hq => egrOf_setEgr_ne d f hq⟩

theorem gaveWay_setCopy (d : Dev) (p j : Nat) {g : Copy → Copy} (port : ∀ c, (g c).port = c.port) : GaveWay p d (setCopy d j g) where
  moves := moves_setCopy d (by simp) j g
  place := .refl _
  states := rfl
  waits := rfl
  stands := rfl
  own own := by
    refine ⟨fun id c sends copy => ?_, fun _ _ => rfl⟩
    rw [copyOf_setCopy] at copy
    split at copy
    · obtain ⟨c0, found, rfl⟩ := Option.map_eq_some_iff.1 copy
      rename_i same
      exact (port c0).trans (own id c0 sends (same ▸ found))
    · exact own id c sends copy

theorem sameGates_without (id : Nat) (e : EgrPort) : SameGates e (without id e) := by
  constructor <;> rw [without]

/-- A copy leaves the device with its place in its port's egress. -/
theorem removeCopy_eq {c : Copy} (copy : copyOf d id = some c) : removeCopy d id =
    sweepFrame (setEgr (d.onBuf fun b => { b with copies := tdel b.copies id }) c.port (without id)) c.frame := by
  unfold removeCopy without
  rw [copy]

theorem egrOf_removeCopy {c : Copy} (copy : copyOf d id = some c) (q : Nat) :
    egrOf (removeCopy d id) q = if q = c.port then without id (egrOf d q) else egrOf d q := by
  rw [removeCopy_eq copy, (moves_sweepFrame (ps := [.buf]) (rs := fun _ => False) _ (by simp) c.frame).egr (by simp)]
  split
  · rename_i same
    rw [same, egrOf_setEgr_self]
    rfl
  · rename_i other
    rw [egrOf_setEgr_ne _ _ other]
    rfl

theorem gaveWay_removeCopy {c : Copy} (sends : (egrOf d p).preempt = some id) (copy : copyOf d id = some c) :
    GaveWay p d (removeCopy d id) := by
  have moved (rs : Nat → Prop) : Moves [.buf, .egr] rs d (removeCopy d id) := moves_removeCopy d id (by simp) (by simp)
  have reg : rd (removeCopy d id) (stsAddr p) = rd d (stsAddr p) := (moved fun _ => False).regs _ not_false
  refine ⟨moved _, ?_, congrArg (bits · 0 8) reg, congrArg (bit · 9) reg, congrArg (bit · 10) reg, fun own => ?_⟩
  · rw [egrOf_removeCopy copy]
    split
    · exact sameGates_without id _
    · exact .refl _
  · have port := own id c sends copy
    refine ⟨fun j k sendsJ => ?_, fun q hq => by rw [egrOf_removeCopy copy, if_neg (by rwa [port])]⟩
    rw [egrOf_removeCopy copy, if_pos port.symm, without, if_pos sends] at sendsJ
    cases sendsJ

/-! ## Fragments end (R76, R83) -/

/-- A preemption is a cut at some byte, or none. -/
theorem preemptNow_cases (d : Dev) (p : Nat) : preemptNow d p = d ∨ ∃ j n lead out,
    preemptNow d p = pcnt (setCopy (putOut (fresh d).2 p lead out) j (cutAt n)) p Reg.txMmPreempt := by
  unfold preemptNow
  dsimp only
  split
  · exact .inl rfl
  · split
    · exact .inl rfl
    · split
      · exact .inl rfl
      · exact .inr ⟨_, _, _, _, rfl⟩

theorem own_countReg (p : Nat) {o : Nat} (h : o < 0x1000) : CountReg p (Reg.port p + o) := .inl ⟨Nat.le_add_right .., by omega⟩

theorem gaveWay_pcnt (d : Dev) (p : Nat) {o : Nat} (h : o < 0x1000) : GaveWay p d (pcnt d p o) :=
  gaveWay_counts (moves_pcnt d (own_countReg p h) (own_countReg p (by decide)))

theorem gaveWay_putOut (d : Dev) (p : Nat) (lead out : List Byte) : GaveWay p d (putOut d p lead out) :=
  gaveWay_setEgr d p _ ⟨rfl, rfl, rfl, rfl⟩ rfl

theorem gaveWay_preemptNow (d : Dev) (p : Nat) : GaveWay p d (preemptNow d p) := by
  obtain same | ⟨j, n, lead, out, cut⟩ := preemptNow_cases d p
  · rw [same]
    exact .refl p d
  · rw [cut]
    exact (gaveWay_counts (moves_fresh d)).trans ((gaveWay_putOut _ p lead out).trans
      ((gaveWay_setCopy _ p j (g := cutAt n) fun _ => rfl).trans (gaveWay_pcnt _ p (o := Reg.txMmPreempt) (by decide))))

/-- A preemptable transmission whose counts are made and whose last bytes are on the wire. -/
def lastSent (d : Dev) (p : Nat) (c : Copy) : Dev :=
  let l := copyBytes d c
  let e := if c.corked then pcnt48 (pcnt d p Reg.txCorked) p Reg.txBytesAll l.length else countSent d p l
  setEgr (putOut e p (wireLead true (egrOf e p).smd c.frags) ((if c.corked then corkFcs l else l).drop c.fragBytes)) p
    fun e => { e with smd := (e.smd + 1) % 4 }

theorem endCopy_eq (d : Dev) (p id : Nat) (c : Copy) : endCopy d p id c true = removeCopy (lastSent d p c) id := rfl

/-- The counts of a transmission that ends. -/
theorem moves_lastCounts (d : Dev) (p : Nat) (c : Copy) (l : List Byte) : Moves [] (CountReg p) d
    (if c.corked then pcnt48 (pcnt d p Reg.txCorked) p Reg.txBytesAll l.length else countSent d p l) := by
  have half := own_countReg p (o := Reg.pHalfEvc) (by decide)
  have corked := moves_pcnt (ps := []) d (own_countReg p (o := Reg.txCorked) (by decide)) half
  refine .ite (corked.trans ?_) ((moves_countSent (ps := []) d p l).mono (by simp) fun _ => .inl)
  exact moves_pcnt48 _ _ (own_countReg p (o := Reg.txBytesAll) (by decide)) (own_countReg p (o := Reg.txBytesAll + 4) (by decide)) half

theorem lastSent_gaveWay (d : Dev) (p : Nat) (c : Copy) :
    GaveWay p d (lastSent d p c) ∧ (egrOf (lastSent d p c) p).preempt = (egrOf d p).preempt ∧ (lastSent d p c).buf = d.buf := by
  have counted := moves_lastCounts d p c (copyBytes d c)
  unfold lastSent
  dsimp only
  generalize (if c.corked then _ else _) = e at counted ⊢
  refine ⟨(gaveWay_counts counted).trans ((gaveWay_putOut _ p _ _).trans (gaveWay_setEgr _ p _ ⟨rfl, rfl, rfl, rfl⟩ rfl)), ?_,
    counted.buf (by simp)⟩
  rw [egrOf_setEgr_self, putOut, egrOf_setEgr_self, counted.egr (by simp)]

theorem gaveWay_endCopy {c : Copy} (sends : (egrOf d p).preempt = some id) (copy : copyOf d id = some c) :
    GaveWay p d (endCopy d p id c true) := by
  obtain ⟨gave, preempt, buf⟩ := lastSent_gaveWay d p c
  rw [endCopy_eq]
  exact gave.trans (gaveWay_removeCopy (preempt.trans sends) (by rw [copyOf, buf]; exact copy))

theorem gaveWay_clearWire (d : Dev) (p : Nat) : GaveWay p d (clearWire d p) := by
  have cut := gaveWay_preemptNow d p
  unfold clearWire
  dsimp only
  split
  · exact cut
  · split
    · exact cut
    · rename_i id sends _ c copy
      exact .ite (cut.trans (gaveWay_endCopy sends copy)) cut

/-- An entry's states are its gates' and what the transmissions do that they meet. -/
theorem gaveWay_applyEntry (d : Dev) (p : Nat) (x : GateEnt) : GaveWay p (setFld d (stsAddr p) 0 8 x.gates) (applyEntry d p x) := by
  have flag8 (e : Dev) (b : Bool) : GaveWay p e (setFlag e (stsAddr p) 8 b) := gaveWay_setFlag e p b (.inl rfl)
  have hold (e : Dev) : GaveWay p e (cnt (setFlag e (stsAddr p) 8 true) (Reg.egr p + Reg.eHoldCnt)) :=
    (flag8 e true).trans (gaveWay_counts (moves_cnt _ (.inr rfl)))
  have clear (e : Dev) := gaveWay_clearWire e p
  unfold applyEntry
  dsimp only
  refine GaveWay.trans (.trans (.ite (.refl p _) (.ite ?_ (.ite (flag8 _ false) (.refl p _)))) (.ite (clear _) (.refl p _)))
    (gaveWay_setFlag _ p _ (.inr rfl))
  exact .trans (.ite (.refl p _) (hold _)) (clear _)

end Sys2Proof.Machine
end

section
/-! The events of a gate list (R377, R379 to R382): where the list moves, and the entry that is then in force. -/

namespace Sys2Proof.Machine

open Sys2Proof

variable {d e t : Dev} {s : State} {p c v : Nat} {l : GateList}

/-! ## The list moves -/

/-- The registers of a port that tell of its list. -/
def ListReg (p a : Nat) : Prop := a ∈ [Reg.egr p + Reg.eCfg, stsAddr p, Reg.egr p + Reg.eGateSwitchEvc, Reg.egr p + Reg.eGateCycle]

/-- From d to e no more than the place of port p's lists moved. -/
structure ListMoved (p : Nat) (d e : Dev) : Prop where
  moves : Moves [.egr] (ListReg p) d e
  preempt : (egrOf e p).preempt = (egrOf d p).preempt
  others : ∀ q, q ≠ p → egrOf e q = egrOf d q

theorem ListMoved.trans (h : ListMoved p d e) (k : ListMoved p e t) : ListMoved p d t :=
  ⟨h.moves.trans k.moves, k.preempt.trans h.preempt, fun q hq => (k.others q hq).trans (h.others q hq)⟩

theorem listMoved_regs (h : Moves [] (ListReg p) d e) : ListMoved p d e :=
  ⟨h.mono (by simp) fun _ r => r, by rw [h.egr (by simp)], fun q _ => h.egr (by simp) q⟩

theorem listMoved_setEgr (d : Dev) (p : Nat) (f : EgrPort → EgrPort) (same : (f (egrOf d p)).preempt = (egrOf d p).preempt) :
    ListMoved p d (setEgr d p f) :=
  ⟨moves_setEgr d p f (by simp), by rwa [egrOf_setEgr_self], fun _ hq => egrOf_setEgr_ne d f hq⟩

theorem listMoved_setFlag (d : Dev) (p i : Nat) (b : Bool) : ListMoved p d (setFlag d (stsAddr p) i b) :=
  listMoved_regs (moves_setFlag d i b (by simp [ListReg]))

theorem flag_setFld_above (d : Dev) (a x : Nat) {w i : Nat} (h : i < 32) (above : w ≤ i) : flag (setFld d a 0 w x) a i = flag d a i := by
  simp only [flag, setFld, rd_wr_self]
  rw [show two32 = 2 ^ 32 from rfl, bit_mod _ _ _ h, bit_setBits, if_neg (by omega)]

/-- From d, by way of e where the list had moved, the states of entry x have come into force. -/
structure InForce (p : Nat) (x : GateEnt) (d e t : Dev) : Prop where
  place : SameGates (egrOf e p) (egrOf t p)
  states : fld t (stsAddr p) 0 8 = x.gates % 256
  waits : flag t (stsAddr p) 9 = flag e (stsAddr p) 9
  stands : flag t (stsAddr p) 10 = flag e (stsAddr p) 10
  counts : ∀ o ∈ [Reg.eCfg, Reg.eGateSwitchEvc, Reg.eGateCycle], rd t (Reg.egr p + o) = rd e (Reg.egr p + o)
  others : OwnPreempt d p → ∀ q, q ≠ p → egrOf t q = egrOf d q
  parts : OnlyParts [.egr, .buf] d t

theorem inForce_settle (moved : ListMoved p (begun s) e) (x : GateEnt) : InForce p x s.dev e (settle (applyEntry e p x)) := by
  have gave := gaveWay_applyEntry e p x
  generalize applyEntry e p x = t at gave
  have ne : stsAddr p ≠ Reg.irqMsgCnt := by simp only [stsAddr, Reg.egr, Reg.tile, Reg.irqMsgCnt]; omega
  have set : ListMoved p e (setFld e (stsAddr p) 0 8 x.gates) := listMoved_regs (moves_setFld e 0 8 x.gates (by simp [ListReg]))
  refine ⟨?_, ?_, ?_, ?_, fun o ho => ?_, fun own q hq => ?_, ?_⟩
  · rw [egrOf_settle]
    exact gave.place
  · rw [fld_settle _ _ _ ne, gave.states, fld_setFld_self _ _ _ _ _ (by decide)]
    rfl
  · rw [flag_settle _ _ ne, gave.waits]
    exact flag_setFld_above e (stsAddr p) x.gates (by decide) (by decide)
  · rw [flag_settle _ _ ne, gave.stands]
    exact flag_setFld_above e (stsAddr p) x.gates (by decide) (by decide)
  · have far : Reg.egr p + o ≠ Reg.irqMsgCnt ∧ ¬(CountReg p (Reg.egr p + o) ∨ Reg.egr p + o = stsAddr p) ∧
        Reg.egr p + o ≠ stsAddr p := by
      simp only [List.mem_cons, List.not_mem_nil, or_false, Reg.eCfg, Reg.eGateSwitchEvc, Reg.eGateCycle] at ho
      simp only [CountReg, OfPort, stsAddr, Reg.egr, Reg.tile, Reg.port, Reg.irqMsgCnt, Reg.eSts, Reg.eHoldCnt]
      omega
    obtain ⟨irq, count, sts⟩ := far
    rw [rd_settle _ irq, gave.moves.regs _ count, rd_setFld_ne _ _ _ _ sts]
  · obtain ⟨-, stay⟩ := gave.own (ownPreempt_congr ((moved.trans set).preempt) ((moved.trans set).moves.buf (by simp)) own)
    rw [egrOf_settle, stay q hq, (moved.trans set).others q hq, egrOf_begun]
  · exact (((moved.trans set).moves.mono (rs' := fun _ => True) (by simp) fun _ _ => trivial).trans
      (gave.moves.mono (by simp) fun _ _ => trivial)).onlyParts

/-! ## An entry of the running list begins -/

/-- A device whose list has moved to entry i of the cycle that starts at c. -/
def entryBegun (d : Dev) (p c i : Nat) : Dev :=
  setFlag (setEgr (if c = (egrOf d p).cycleAt then d else cnt d (Reg.egr p + Reg.eGateCycle)) p fun e => { e with cycleAt := c, entry := i })
    (stsAddr p) 10 false

theorem enterEntry_eq (d : Dev) (p : Nat) (l : GateList) (c i : Nat) :
    enterEntry d p l c i = applyEntry (entryBegun d p c i) p (l.entries.getD i noList) := rfl

theorem cycleCounted_moves (d : Dev) (p c : Nat) :
    Moves [] (ListReg p) d (if c = (egrOf d p).cycleAt then d else cnt d (Reg.egr p + Reg.eGateCycle)) :=
  .ite (.refl d) (moves_cnt d (by simp [ListReg]))

theorem egrOf_entryBegun (d : Dev) (p c i : Nat) : egrOf (entryBegun d p c i) p = { egrOf d p with cycleAt := c, entry := i } := by
  rw [entryBegun, egrOf_setFlag, egrOf_setEgr_self, (cycleCounted_moves d p c).egr (by simp)]

theorem listMoved_entryBegun (d : Dev) (p c i : Nat) : ListMoved p d (entryBegun d p c i) :=
  (listMoved_regs (cycleCounted_moves d p c)).trans ((listMoved_setEgr _ p _ rfl).trans (listMoved_setFlag _ p 10 false))

theorem rd_entryBegun (d : Dev) (p : Nat) {c : Nat} (i : Nat) (new : c ≠ (egrOf d p).cycleAt) :
    rd (entryBegun d p c i) (Reg.egr p + Reg.eGateCycle) = (rd d (Reg.egr p + Reg.eGateCycle) + 1) % two32 := by
  have ne : Reg.egr p + Reg.eGateCycle ≠ stsAddr p := by simp [stsAddr, Reg.eGateCycle, Reg.eSts]
  rw [entryBegun, rd_setFlag_ne _ _ _ ne, rd_setEgr, if_neg new, rd_cnt_self]

/-- From d to t entry i of list l, in the cycle that starts at c, has come into force at port p (R377). -/
structure EntryEntered (p : Nat) (l : GateList) (c i : Nat) (d t : Dev) : Prop where
  gates : (egrOf t p).gates = (egrOf d p).gates
  pending : (egrOf t p).pending = (egrOf d p).pending
  stands : flag t (stsAddr p) 10 = false
  place : (egrOf t p).entry = i ∧ (egrOf t p).cycleAt = c ∧ fld t (stsAddr p) 0 8 = (l.entries.getD i noList).gates % 256
  counts : c ≠ (egrOf d p).cycleAt → rd t (Reg.egr p + Reg.eGateCycle) = (rd d (Reg.egr p + Reg.eGateCycle) + 1) % two32
  others : OwnPreempt d p → ∀ q, q ≠ p → egrOf t q = egrOf d q
  parts : OnlyParts [.egr, .buf] d t

theorem entryEntered_settle (s : State) (p : Nat) (l : GateList) (c i : Nat) :
    EntryEntered p l c i s.dev (settle (enterEntry (begun s) p l c i)) := by
  have force := inForce_settle (s := s) (listMoved_entryBegun (begun s) p c i) (l.entries.getD i noList)
  rw [← enterEntry_eq] at force
  have egr := egrOf_entryBegun (begun s) p c i
  obtain ⟨gates, pending, cycleAt, entry⟩ := force.place
  rw [egr] at gates pending cycleAt entry
  refine ⟨gates, pending, ?_, ⟨entry, cycleAt, force.states⟩, fun new => ?_, force.others, force.parts⟩
  · rw [force.stands, entryBegun, flag_setFlag_self _ _ _ _ (by decide)]
  · rw [force.counts Reg.eGateCycle (by simp), rd_entryBegun (begun s) p i new, rd_begun]

/-! ## What is due first (R379, R380) -/

/-- A cycle is not extended where no list is pending. -/
theorem extended_none (h : (egrOf d p).pending = none) (l : GateList) (c : Nat) : extended (egrOf d p) l c = false := by
  rw [extended, h]

theorem extended_some {y : GateList × Nat} (h : (egrOf d p).pending = some y) (l : GateList) (c : Nat) :
    extended (egrOf d p) l c = decide ((egrOf d p).cycleAt < c ∧ c < y.2 ∧ y.2 - c < l.ext) := by
  obtain ⟨_, _⟩ := y
  rw [extended, h]

/-- When the entry in force at port p ends in list l. -/
def entryStop (d : Dev) (p : Nat) (l : GateList) : Nat := (egrOf d p).cycleAt + entryEnds (egrOf d p) l

theorem entryEnd_goes (h : entryEnds (egrOf d p) l = l.cycle → flag d (stsAddr p) 10 = true →
    extended (egrOf d p) l (entryStop d p l) = false) : entryEnd d p l = some (entryStop d p l) := by
  unfold entryEnd
  refine if_neg fun all => ?_
  simp only [Bool.and_eq_true, decide_eq_true_eq] at all
  obtain ⟨⟨stands, ext⟩, last⟩ := all
  exact Bool.false_ne_true ((h last stands).symm.trans ext)

/-- The next event of port p is the end of an entry of the running list l. -/
structure StepNext (p : Nat) (l : GateList) (d : Dev) : Prop where
  gates : (egrOf d p).gates = some l
  goes : entryEnds (egrOf d p) l = l.cycle → flag d (stsAddr p) 10 = true → extended (egrOf d p) l (entryStop d p l) = false
  first : ∀ y, (egrOf d p).pending = some y → entryStop d p l < y.2

theorem gateDue_step (h : StepNext p l d) : gateDue d p = some (entryStop d p l, false) := by
  simp only [gateDue, h.gates, Option.bind_some, entryEnd_goes h.goes]
  cases pending : (egrOf d p).pending with
  | none => rfl
  | some y => exact if_neg (Nat.not_le.2 (h.first y pending))

theorem gateEvent_steps (h : StepNext p l d) (due : entryStop d p l ≤ extTime d) : gateEvent p d = gateStep d p l := by
  have there : reachExt d (entryStop d p l) = d := if_pos (.inl due)
  simp only [gateEvent, gateDue_step h, there, if_neg (Nat.not_lt.2 due), gateNext, h.gates]
  rfl

theorem gateStep_next (h : entryEnds (egrOf d p) l < l.cycle) :
    gateStep d p l = enterEntry d p l (egrOf d p).cycleAt ((egrOf d p).entry + 1) := if_pos h

theorem gateStep_cycle (h : l.cycle ≤ entryEnds (egrOf d p) l) (begins : extended (egrOf d p) l (entryStop d p l) = false) :
    gateStep d p l = enterEntry d p l (entryStop d p l) 0 := by
  rw [gateStep, if_neg (Nat.not_lt.2 h)]
  exact if_neg fun stands => Bool.false_ne_true (begins.symm.trans stands)

theorem gateStep_stands (h : l.cycle ≤ entryEnds (egrOf d p) l) (stands : extended (egrOf d p) l (entryStop d p l) = true) :
    gateStep d p l = applyEntry (setFlag d (stsAddr p) 10 true) p (lastEnt l) := by
  rw [gateStep, if_neg (Nat.not_lt.2 h)]
  exact if_pos stands

/-- The next entry of the cycle comes into force, or the first of the next cycle where that begins. -/
theorem gateEvent_enters (hp : p < 512) (next : StepNext p l (begun s)) (due : entryStop s.dev p l ≤ extTime s.dev)
    (begins : l.cycle ≤ entryEnds (egrOf s.dev p) l → extended (egrOf s.dev p) l (entryStop s.dev p l) = false) :
    Ends (.gateEvent p) s fun t =>
      (entryEnds (egrOf s.dev p) l < l.cycle ∧ EntryEntered p l (egrOf s.dev p).cycleAt ((egrOf s.dev p).entry + 1) s.dev t) ∨
        (l.cycle ≤ entryEnds (egrOf s.dev p) l ∧ EntryEntered p l (entryStop s.dev p l) 0 s.dev t) := by
  refine ends_of_runIf (f := gateEvent p) rfl (decide_eq_true hp) ?_
  rw [gateEvent_steps next due]
  by_cases h : entryEnds (egrOf s.dev p) l < l.cycle
  · rw [gateStep_next (d := begun s) h]
    exact .inl ⟨h, entryEntered_settle s p l _ _⟩
  · have ends := Nat.le_of_not_lt h
    rw [gateStep_cycle (d := begun s) ends (begins ends)]
    exact .inr ⟨ends, entryEntered_settle s p l _ _⟩

/-- The last cycle before T_new stands (R381). -/
theorem gateEvent_stands (hp : p < 512) (next : StepNext p l (begun s)) (due : entryStop s.dev p l ≤ extTime s.dev)
    (h : l.cycle ≤ entryEnds (egrOf s.dev p) l) (stands : extended (egrOf s.dev p) l (entryStop s.dev p l) = true) :
    Ends (.gateEvent p) s fun t =>
      flag t (stsAddr p) 10 = true ∧ SameGates (egrOf s.dev p) (egrOf t p) ∧ fld t (stsAddr p) 0 8 = (lastEnt l).gates % 256 ∧
        (OwnPreempt s.dev p → ∀ q, q ≠ p → egrOf t q = egrOf s.dev q) ∧ OnlyParts [.egr, .buf] s.dev t := by
  refine ends_of_runIf (f := gateEvent p) rfl (decide_eq_true hp) ?_
  rw [gateEvent_steps next due, gateStep_stands (d := begun s) h stands]
  have force := inForce_settle (s := s) (listMoved_setFlag (begun s) p 10 true) (lastEnt l)
  have place := force.place
  rw [egrOf_setFlag, egrOf_begun] at place
  refine ⟨?_, place, force.states, force.others, force.parts⟩
  rw [force.stands, flag_setFlag_self _ _ _ _ (by decide)]

/-! ## The pending list comes into force (R380) -/

/-- A pending list is due where no event of the running one comes before. -/
theorem gateDue_switch (pending : (egrOf d p).pending = some (l, v))
    (first : ∀ o w, (egrOf d p).gates = some o → entryEnd d p o = some w → v ≤ w) : gateDue d p = some (v, true) := by
  simp only [gateDue, pending]
  cases next : (egrOf d p).gates.bind fun o => entryEnd d p o with
  | none => rfl
  | some w =>
    obtain ⟨o, gates, ends⟩ := Option.bind_eq_some_iff.1 next
    exact if_pos (first o w gates ends)

theorem listMoved_takeList (d : Dev) (p : Nat) (l : GateList) (v : Nat) : ListMoved p d (takeList d p l v) :=
  (listMoved_setEgr d p _ rfl).trans (listMoved_regs (((moves_setFlag _ 0 true (by simp [ListReg])).trans
    ((moves_setFlag _ 9 false (by simp [ListReg])).trans (moves_setFlag _ 10 false (by simp [ListReg])))).trans
      ((moves_cnt _ (by simp [ListReg])).trans (moves_cnt _ (by simp [ListReg])))))

theorem egrOf_takeList (d : Dev) (p : Nat) (l : GateList) (v : Nat) :
    egrOf (takeList d p l v) p = { egrOf d p with gates := some l, pending := none, cycleAt := v, entry := 0 } := by
  simp only [takeList, egrOf_cnt, egrOf_setFlag, egrOf_setEgr_self]

/-- A device whose port p runs the list that waited, before the switch is counted. -/
def listTaken (d : Dev) (p : Nat) (l : GateList) (v : Nat) : Dev :=
  setFlag (setFlag (setFlag (setEgr d p fun e => { e with gates := some l, pending := none, cycleAt := v, entry := 0 })
    (Reg.egr p + Reg.eCfg) 0 true) (stsAddr p) 9 false) (stsAddr p) 10 false

theorem takeList_eq (d : Dev) (p : Nat) (l : GateList) (v : Nat) : takeList d p l v =
    cnt (cnt (listTaken d p l v) (Reg.egr p + Reg.eGateSwitchEvc)) (Reg.egr p + Reg.eGateCycle) := rfl

theorem egrReg_ne (p : Nat) {o q : Nat} (h : o ≠ q) : Reg.egr p + o ≠ Reg.egr p + q := fun e => h (Nat.add_left_cancel e)

theorem rd_listTaken (d : Dev) (p : Nat) (l : GateList) (v : Nat) {o : Nat} (cfg : o ≠ Reg.eCfg) (sts : o ≠ Reg.eSts) :
    rd (listTaken d p l v) (Reg.egr p + o) = rd d (Reg.egr p + o) := by
  have apart : Reg.egr p + o ≠ stsAddr p := egrReg_ne p sts
  rw [listTaken, rd_setFlag_ne _ _ _ apart, rd_setFlag_ne _ _ _ apart, rd_setFlag_ne _ _ _ (egrReg_ne p cfg), rd_setEgr]

/-- The switch is counted, and begins a cycle. -/
theorem takeList_counts (d : Dev) (p : Nat) (l : GateList) (v : Nat) :
    rd (takeList d p l v) (Reg.egr p + Reg.eGateSwitchEvc) = (rd d (Reg.egr p + Reg.eGateSwitchEvc) + 1) % two32 ∧
      rd (takeList d p l v) (Reg.egr p + Reg.eGateCycle) = (rd d (Reg.egr p + Reg.eGateCycle) + 1) % two32 := by
  rw [takeList_eq]
  constructor
  · rw [rd_cnt_ne _ (egrReg_ne p (by decide)), rd_cnt_self, rd_listTaken d p l v (by decide) (by decide)]
  · rw [rd_cnt_self, rd_cnt_ne _ (egrReg_ne p (by decide)), rd_listTaken d p l v (by decide) (by decide)]

theorem flag_takeList (d : Dev) (p : Nat) (l : GateList) (v i : Nat) {o : Nat} (switch : o ≠ Reg.eGateSwitchEvc)
    (cycle : o ≠ Reg.eGateCycle) :
    flag (takeList d p l v) (Reg.egr p + o) i = flag (listTaken d p l v) (Reg.egr p + o) i := by
  rw [takeList_eq, flag, rd_cnt_ne _ (egrReg_ne p cycle), rd_cnt_ne _ (egrReg_ne p switch), flag]

/-- The marks of a pending list and of an extension go, and `GATE_EN` is 1. -/
theorem takeList_flags (d : Dev) (p : Nat) (l : GateList) (v : Nat) :
    flag (takeList d p l v) (stsAddr p) 9 = false ∧ flag (takeList d p l v) (stsAddr p) 10 = false ∧
      flag (takeList d p l v) (Reg.egr p + Reg.eCfg) 0 = true := by
  have apart : Reg.egr p + Reg.eCfg ≠ stsAddr p := egrReg_ne p (by decide)
  have sts (i : Nat) : flag (takeList d p l v) (stsAddr p) i = flag (listTaken d p l v) (stsAddr p) i :=
    flag_takeList d p l v i (by decide) (by decide)
  rw [sts, sts, flag_takeList d p l v 0 (by decide) (by decide), listTaken]
  refine ⟨?_, ?_, ?_⟩
  · rw [flag_setFlag_other _ _ _ _ _ (by decide) (by decide), flag_setFlag_self _ _ _ _ (by decide)]
  · rw [flag_setFlag_self _ _ _ _ (by decide)]
  · rw [flag_setFlag_ne _ _ _ _ apart, flag_setFlag_ne _ _ _ _ apart, flag_setFlag_self _ _ _ _ (by decide)]

theorem gatesRun_none (h : NoGateDue d p) (fuel : Nat) : gatesRun fuel d p = d := by
  cases fuel with
  | zero => rfl
  | succ fuel =>
    unfold gatesRun
    split
    · rfl
    · rename_i n sw due
      exact if_pos (h n sw due)

/-- One event is due, and none after it. -/
theorem gatesRun_once {sw : Bool} (due : gateDue d p = some (v, sw)) (now : v ≤ extTime d) (last : NoGateDue (gateNext d p sw) p)
    (fuel : Nat) : gatesRun (fuel + 1) d p = gateNext d p sw := by
  simp only [gatesRun, due, if_neg (Nat.not_lt.2 now)]
  exact gatesRun_none last fuel

theorem entryEnds_congr {e f : EgrPort} (h : f.entry = e.entry) (l : GateList) : entryEnds f l = entryEnds e l := by
  simp only [entryEnds, h]

/-- Extended time is none of what the list and the transmissions write. -/
theorem extTime_switchList (d : Dev) (p : Nat) (l : GateList) (v : Nat) : extTime (switchList d p l v) = extTime d := by
  have gave := gaveWay_applyEntry (takeList d p l v) p (l.entries.getD 0 noList)
  have taken := listMoved_takeList d p l v
  have kept {a : Nat} (low : a < 0x80_0000) : rd (switchList d p l v) a = rd d a := by
    have far : ¬(CountReg p a ∨ a = stsAddr p) ∧ a ≠ stsAddr p ∧ ¬ListReg p a := by
      simp only [ListReg, List.mem_cons, List.not_mem_nil, or_false, CountReg, OfPort, stsAddr, Reg.egr, Reg.tile, Reg.port]
      omega
    obtain ⟨count, sts, list⟩ := far
    rw [switchList, gave.moves.regs a count, rd_setFld_ne _ _ _ _ sts, taken.moves.regs a list]
  rw [extTime, extTime, kept (by decide), kept (by decide)]

/-- After the switch the first entry's end is the next event (R377). -/
theorem noGateDue_switchList (ahead : extTime d < v + entryEnds {} l) : NoGateDue (switchList d p l v) p := by
  obtain ⟨gates, pending, cycleAt, entry⟩ := (gaveWay_applyEntry (takeList d p l v) p (l.entries.getD 0 noList)).place
  rw [egrOf_setFld, egrOf_takeList, ← switchList] at gates pending cycleAt entry
  have stop : entryStop (switchList d p l v) p l = v + entryEnds {} l := by rw [entryStop, cycleAt, entryEnds_congr (e := {}) entry]
  have next : StepNext p l (switchList d p l v) :=
    ⟨gates, fun _ _ => extended_none pending .., fun y waits => by
      rw [pending] at waits
      cases waits⟩
  intro w sw due
  rw [gateDue_step next, stop] at due
  cases due
  rwa [extTime_switchList]

theorem gatesDue_switches (pending : (egrOf d p).pending = some (l, v))
    (first : ∀ o w, (egrOf d p).gates = some o → entryEnd d p o = some w → v ≤ w) (now : v ≤ extTime d)
    (ahead : extTime d < v + entryEnds {} l) : gatesDue d p = switchList d p l v := by
  have switch : gateNext d p true = switchList d p l v := by
    simp only [gateNext, pending]
    rfl
  have last : NoGateDue (gateNext d p true) p := switch ▸ noGateDue_switchList ahead
  rw [← switch, gatesDue]
  simp only [pending, ← Nat.add_assoc]
  exact gatesRun_once (gateDue_switch pending first) now last _

theorem gateListSwitch_switches (hp : p < 512) (pending : (egrOf s.dev p).pending = some (l, v))
    (first : ∀ o w, (egrOf s.dev p).gates = some o → entryEnd s.dev p o = some w → v ≤ w) (now : v ≤ extTime s.dev)
    (ahead : extTime s.dev < v + entryEnds {} l) : Ends (.gateListSwitch p) s fun t =>
      (egrOf t p).gates = some l ∧ (egrOf t p).pending = none ∧ flag t (stsAddr p) 9 = false ∧ flag t (stsAddr p) 10 = false ∧
        flag t (Reg.egr p + Reg.eCfg) 0 = true ∧ (egrOf t p).entry = 0 ∧ (egrOf t p).cycleAt = v ∧
        fld t (stsAddr p) 0 8 = (l.entries.getD 0 noList).gates % 256 ∧
        rd t (Reg.egr p + Reg.eGateSwitchEvc) = (rd s.dev (Reg.egr p + Reg.eGateSwitchEvc) + 1) % two32 ∧
        rd t (Reg.egr p + Reg.eGateCycle) = (rd s.dev (Reg.egr p + Reg.eGateCycle) + 1) % two32 ∧
        (OwnPreempt s.dev p → ∀ q, q ≠ p → egrOf t q = egrOf s.dev q) ∧ OnlyParts [.egr, .buf] s.dev t := by
  refine ends_of_runIf (f := gateListSwitch p) rfl (decide_eq_true hp) ?_
  have there : reachExt (begun s) v = begun s := if_pos (.inl now)
  have run : gateListSwitch p (begun s) = switchList (begun s) p l v := by
    simp only [gateListSwitch, egrOf_begun, pending, there]
    exact (if_neg (Nat.not_lt.2 now)).trans (gatesDue_switches (d := begun s) pending first now ahead)
  have force := inForce_settle (s := s) (listMoved_takeList (begun s) p l v) (l.entries.getD 0 noList)
  rw [← switchList, ← run] at force
  obtain ⟨waits, stands, on⟩ := takeList_flags (begun s) p l v
  obtain ⟨switches, cycles⟩ := takeList_counts (begun s) p l v
  obtain ⟨gates, pending, cycleAt, entry⟩ := force.place
  rw [egrOf_takeList] at gates pending cycleAt entry
  have counts := force.counts
  refine ⟨gates, pending, force.waits.trans waits, force.stands.trans stands, ?_, entry, cycleAt, force.states,
    (counts _ (by simp)).trans switches, (counts _ (by simp)).trans cycles, force.others, force.parts⟩
  exact (congrArg (bit · 0) (counts Reg.eCfg (by simp))).trans on

/-! ## The statement -/

section
variable {n : Nat} (hp : p < 512) (gates : (egrOf s.dev p).gates = some l) (hn : n = entryEnds (egrOf s.dev p) l)
  (hc : c = (egrOf s.dev p).cycleAt) (due : c + n ≤ extTime s.dev)
include hp gates hn hc due

theorem gateEvent_alone (alone : (egrOf s.dev p).pending = none) : Ends (.gateEvent p) s fun t =>
    (egrOf t p).gates = some l ∧
      (n < l.cycle → (egrOf t p).entry = (egrOf s.dev p).entry + 1 ∧ (egrOf t p).cycleAt = c ∧
        fld t (stsAddr p) 0 8 = (l.entries.getD ((egrOf s.dev p).entry + 1) noList).gates % 256) ∧
      (l.cycle ≤ n → 0 < n → (egrOf t p).entry = 0 ∧ (egrOf t p).cycleAt = c + n ∧
        fld t (stsAddr p) 0 8 = (l.entries.getD 0 noList).gates % 256 ∧
        rd t (Reg.egr p + Reg.eGateCycle) = (rd s.dev (Reg.egr p + Reg.eGateCycle) + 1) % two32) ∧
      (OwnPreempt s.dev p → ∀ q, q ≠ p → egrOf t q = egrOf s.dev q) ∧ OnlyParts [.egr, .buf] s.dev t := by
  subst hn hc
  have next : StepNext p l (begun s) := ⟨gates, fun _ _ => extended_none alone .., fun y waits => by
    rw [egrOf_begun, alone] at waits
    cases waits⟩
  refine Ends.imp (gateEvent_enters hp next due fun _ => extended_none alone ..) fun t moved => ?_
  rcases moved with ⟨h, entered⟩ | ⟨h, entered⟩
  · exact ⟨entered.gates.trans gates, fun _ => entered.place, fun ends => absurd h (Nat.not_lt.2 ends), entered.others, entered.parts⟩
  · obtain ⟨entry, cycleAt, states⟩ := entered.place
    exact ⟨entered.gates.trans gates, fun under => absurd under (Nat.not_lt.2 h),
      fun _ pos => ⟨entry, cycleAt, states, entered.counts (by simp only [entryStop]; omega)⟩, entered.others, entered.parts⟩

theorem gateEvent_waiting {y : GateList × Nat} (pending : (egrOf s.dev p).pending = some y) (first : c + n < y.2)
    (apart : n < l.cycle ∨ (n = l.cycle ∧ 0 < n ∧ l.ext ≤ y.2 - (c + n))) : Ends (.gateEvent p) s fun t =>
      (egrOf t p).gates = some l ∧ (egrOf t p).pending = some y ∧ flag t (stsAddr p) 10 = false ∧
        (n < l.cycle → (egrOf t p).entry = (egrOf s.dev p).entry + 1 ∧ (egrOf t p).cycleAt = c ∧
          fld t (stsAddr p) 0 8 = (l.entries.getD ((egrOf s.dev p).entry + 1) noList).gates % 256) ∧
        (n = l.cycle → (egrOf t p).entry = 0 ∧ (egrOf t p).cycleAt = c + n ∧
          fld t (stsAddr p) 0 8 = (l.entries.getD 0 noList).gates % 256) ∧
        (OwnPreempt s.dev p → ∀ q, q ≠ p → egrOf t q = egrOf s.dev q) ∧ OnlyParts [.egr, .buf] s.dev t := by
  subst hn hc
  have begins (h : l.cycle ≤ entryEnds (egrOf s.dev p) l) : extended (egrOf s.dev p) l (entryStop s.dev p l) = false := by
    rw [extended_some pending, decide_eq_false_iff_not, entryStop]
    omega
  have next : StepNext p l (begun s) := by
    refine ⟨gates, fun h _ => begins h.ge, fun z waits => ?_⟩
    cases pending.symm.trans waits
    exact first
  refine Ends.imp (gateEvent_enters hp next due begins) fun t moved => ?_
  rcases moved with ⟨h, entered⟩ | ⟨h, entered⟩
  · exact ⟨entered.gates.trans gates, entered.pending.trans pending, entered.stands, fun _ => entered.place,
      fun ends => absurd ends h.ne, entered.others, entered.parts⟩
  · exact ⟨entered.gates.trans gates, entered.pending.trans pending, entered.stands, fun under => absurd under (Nat.not_lt.2 h),
      fun _ => entered.place, entered.others, entered.parts⟩

theorem gateEvent_extends {y : GateList × Nat} (pending : (egrOf s.dev p).pending = some y) (ends : n = l.cycle) (pos : 0 < n)
    (first : c + n < y.2) (near : y.2 - (c + n) < l.ext) (plain : flag s.dev (stsAddr p) 10 = false) : Ends (.gateEvent p) s fun t =>
      flag t (stsAddr p) 10 = true ∧ (egrOf t p).gates = some l ∧ (egrOf t p).pending = some y ∧
        (egrOf t p).entry = (egrOf s.dev p).entry ∧ (egrOf t p).cycleAt = c ∧
        fld t (stsAddr p) 0 8 = (lastEnt l).gates % 256 ∧
        (OwnPreempt s.dev p → ∀ q, q ≠ p → egrOf t q = egrOf s.dev q) ∧ OnlyParts [.egr, .buf] s.dev t := by
  subst hn hc
  have stands : extended (egrOf s.dev p) l (entryStop s.dev p l) = true := by
    rw [extended_some pending, decide_eq_true_eq, entryStop]
    omega
  have next : StepNext p l (begun s) := by
    refine ⟨gates, fun _ on => absurd on (ne_true_of_eq_false plain), fun z waits => ?_⟩
    cases pending.symm.trans waits
    exact first
  refine Ends.imp (gateEvent_stands hp next due ends.ge stands) fun t ⟨on, place, states, others, parts⟩ => ?_
  exact ⟨on, place.gates.trans gates, place.pending.trans pending, place.entry, place.cycleAt, states, others, parts⟩

end

/-- Settles O18: the switch at T_new, and the end of an entry by what waits: nothing, a list that leaves the next cycle its place, or one
that extends the last. -/
theorem gatesFollowTheList : Obligations.GatesFollowTheList := by
  intro s p l hp
  refine ⟨fun u pending first now ahead => gateListSwitch_switches hp pending first now ahead, fun n c gates hn hc due => ⟨?_, ?_, ?_⟩⟩
  · exact gateEvent_alone hp gates hn hc due
  · exact fun y => gateEvent_waiting hp gates hn hc due
  · exact fun y => gateEvent_extends hp gates hn hc due

end Sys2Proof.Machine
end

section
/-! Time that passes, and what the statements of chapter 08 leave out: firmware acknowledges while a capture is made (R479, R819), an
instant of R419 may lie more than half a wrap of `TSU_NS` ahead (R418), and a calendar without `VSTBY` takes no load (R801). -/

namespace Sys2Proof.Machine

open Sys2Proof

variable {d : Dev} {a : Nat}

/-! ## What time leaves of the time-stamping unit -/

theorem moves_onTime {ps : List Piece} {rs : Nat → Prop} (d : Dev) (f : TimeSt → TimeSt) (hp : .time ∈ ps) : Moves ps rs d (d.onTime f) :=
  ⟨fun x hx => by cases x <;> simp_all [Same], fun _ _ => rfl, .refl d, .refl d.buf⟩

/-- Time passing moves the counter's fraction alone of what lies beside the registers. -/
theorem elapse_time (d : Dev) (n : Nat) : ∃ f, (elapse d n).time = { d.time with frac := f } := by
  unfold elapse
  split
  · exact ⟨_, rfl⟩
  · dsimp only
    split <;> exact ⟨_, rfl⟩

theorem reach_time (d : Dev) (u : Nat) : ∃ f, (reach d u).time = { d.time with frac := f } := by
  unfold reach
  split
  · exact ⟨_, rfl⟩
  · rw [show (fwAcks _).time = _ from fwAcks_same _ .time]
    exact elapse_time ..

/-! ## Firmware acknowledges (R819) -/

/-- The registers of a list have firmware acknowledge the pair whose EVC lies at a. -/
def AckDue (l : Tab Word) (a : Nat) : Prop := ∃ e ∈ l, Reg.ackPair e.1 = some a

theorem rd_ackAll_idle (l : Tab Word) (d : Dev) (idle : ¬AckDue l a) : rd (ackAll l d) (a + 4) = rd d (a + 4) := by
  induction l generalizing d with
  | nil => rfl
  | cons e l ih =>
    refine (ih _ fun ⟨x, mem, pair⟩ => idle ⟨x, List.mem_cons_of_mem e mem, pair⟩).trans ?_
    dsimp only
    split
    · rename_i b pair
      exact rd_wr_ne _ _ fun same => idle ⟨e, List.mem_cons_self, pair.trans (congrArg some (Nat.add_right_cancel same).symm)⟩
    · rfl

/-- The ACK comes to the count of its EVC, which is no ACK itself. -/
theorem rd_ackAll_due (l : Tab Word) (d : Dev) (plain : a < 4 ∨ Reg.fwAcked (a - 4) = false) (small : rd d a < two32) (due : AckDue l a) :
    rd (ackAll l d) (a + 4) = rd d a := by
  induction l generalizing d with
  | nil => obtain ⟨_, mem, -⟩ := due; cases mem
  | cons e l ih =>
    have kept := rd_ackAll [e] d plain
    by_cases later : AckDue l a
    · exact (ih _ (kept.trans_lt small) later).trans kept
    · obtain ⟨x, mem, pair⟩ := due
      obtain rfl := (List.mem_cons.1 mem).resolve_right fun m => later ⟨x, m, pair⟩
      refine (rd_ackAll_idle l _ later).trans ?_
      simp only [pair]
      rw [rd_wr_self, Nat.mod_eq_of_lt small]

/-- Firmware that acknowledges has done so wherever an EVC is off its reset value. -/
theorem rd_fwAcks_ack (acks : acking d = true) (evc : Reg.fwAcked a = true) (plain : a < 4 ∨ Reg.fwAcked (a - 4) = false)
    (small : Reg.reset a < two32) (counted : rd d a ≠ Reg.reset a) : rd (fwAcks d) (a + 4) = rd d a := by
  have due : AckDue d.regs a := by
    cases held : tfind d.regs a with
    | none => exact absurd (by rw [rd, held]) counted
    | some w => exact ⟨(a, w), mem_of_tfind held, if_pos evc⟩
  rw [fwAcks, if_pos acks]
  exact rd_ackAll_due d.regs d plain (rd_lt d small) due

/-! ## A capture takes time (R479) -/

/-- Beside its own registers a capture leaves what the ticks before it leave. -/
theorem tsuCapCmd_waits (up : alive d = true) : ∃ n, ∀ a ∉ [Reg.tsuCapNs, Reg.tsuCapWrap, Reg.tsuCapFrac, Reg.tsuCapSeq],
    rd (tsuCapCmd d) a = rd (fwAcks (elapse (fresh d).2 n)) a := by
  refine ⟨2 + (fresh d).1 % 2, fun a other => ?_⟩
  simp only [List.mem_cons, List.not_mem_nil, or_false, not_or] at other
  obtain ⟨ns, wrap, frac, seq⟩ := other
  simp only [tsuCapCmd, up]
  exact (rd_cnt_ne _ seq).trans ((rd_wr_ne _ _ frac).trans ((rd_wr_ne _ _ wrap).trans (rd_wr_ne _ _ ns)))

/-- In those ticks firmware acknowledges the adjustments of the counter that went before. -/
theorem tsuCapCmd_acks (up : alive d = true) (acks : acking d = true) (counted : rd d Reg.tsuAdjEvc ≠ 0) :
    rd (tsuCapCmd d) (Reg.tsuAdjEvc + 4) = rd d Reg.tsuAdjEvc := by
  obtain ⟨n, waits⟩ := tsuCapCmd_waits up
  have boot : (elapse (fresh d).2 n).boot = d.boot := elapse_same (x := .boot) _ n (by decide) (by decide)
  have cc : (elapse (fresh d).2 n).cc = d.cc := elapse_same (x := .cc) _ n (by decide) (by decide)
  have count : rd (elapse (fresh d).2 n) Reg.tsuAdjEvc = rd d Reg.tsuAdjEvc := rd_elapse _ n (by decide) (by decide) (by decide)
  rw [waits _ (by decide), rd_fwAcks_ack (by rwa [acking, boot, cc]) (by decide) (by decide) (by decide) (by rwa [count]), count]

/-- The device in full service, with one adjustment counted and not yet acknowledged. -/
def adjusted : State := { dev := wr { boot := { phase := .full, fwRunning := true } } Reg.tsuAdjEvc 1 }

/-- Refutes O23: while the 2 or 3 ticks of a capture pass, firmware acknowledges the events that went before (R819); the statement has
no register move but the counter's and the capture's own. -/
theorem not_tsuCommandsAct : ¬Obligations.TsuCommandsAct := by
  intro h
  obtain ⟨-, -, -, capture⟩ := h adjusted
  obtain ⟨-, -, -, -, -, -, only⟩ := Ends.effect (f := tsuCapCmd) rfl (capture rfl)
  have kept := only (Reg.tsuAdjEvc + 4) (by decide) (by decide)
  rw [rd_settle _ (by decide), tsuCapCmd_acks rfl rfl (by decide)] at kept
  exact absurd kept (by decide)

/-! ## The instant of a step (R418, R419) -/

theorem extTime_wr {v : Nat} (ns : Reg.tsuNs ≠ a) (wrap : Reg.tsuWrap ≠ a) : extTime (wr d a v) = extTime d := by
  rw [extTime, rd_wr_ne _ _ ns, rd_wr_ne _ _ wrap, extTime]

/-- A time more than half a wrap ahead looks to `TSU_NS` as if it had passed. -/
theorem atOrBeyond_of_far {x : Nat} (far : extTime d + 2 ^ 31 < x) (wrap : x < extTime d + 2 ^ 32) : atOrBeyond d (x % two32) = true := by
  refine decide_eq_true ?_
  simp only [sub32, two32]
  omega

/-- A step so armed is applied at once (log entry 101). -/
theorem armStep_beyond (beyond : atOrBeyond d (rd d Reg.tsuStepAt) = true) : (armStep d).time.stepExt = extTime d := if_pos beyond

/-- `TIME_ADJUST` of a step of 1 ns. -/
def stepSlot : Slot :=
  { opcode := 0x501, flags := 0, len := 24, tag := 0, expVint := 0, rspLen := 0, payload := toLe 4 2 ++ toLe 4 1 ++ zeros 16 }

/-- The command comes 10 µs before the window of R419 closes, so that the first permitted instant is the next window's begin. -/
def windowCloses : State := { dev := wr (atWork stepSlot) Reg.tsuNs (0xC0000000 - 10000) }

/-- That is more than half a wrap ahead. -/
theorem windowCloses_far : extTime (begun windowCloses) + 2 ^ 31 < stepInstant (extTime (begun windowCloses)) ∧
    stepInstant (extTime (begun windowCloses)) < extTime (begun windowCloses) + 2 ^ 32 := by decide

/-- The step is armed for the instant, and counted as due. -/
theorem adjStep_windowCloses : (adjStep (begun windowCloses) stepSlot).dev.time.stepExt = extTime (begun windowCloses) := by
  obtain ⟨far, wrap⟩ := windowCloses_far
  have run : (adjStep (begun windowCloses) stepSlot).dev = armStep (wr (wr (begun windowCloses) Reg.tsuStep 1) Reg.tsuStepAt
      (stepInstant (extTime (begun windowCloses)) % two32)) := rfl
  generalize begun windowCloses = d, stepInstant (extTime (begun windowCloses)) = x at *
  have ext (w : Nat) : extTime (wr (wr d Reg.tsuStep 1) Reg.tsuStepAt w) = extTime d :=
    (extTime_wr (by decide) (by decide)).trans (extTime_wr (by decide) (by decide))
  rw [run, armStep_beyond, ext]
  rw [rd_wr_self, Nat.mod_mod]
  exact atOrBeyond_of_far (by rwa [ext]) (by rwa [ext])

/-- Refutes O22: the first permitted instant may lie more than half a wrap ahead, and a step armed for it is applied in the next tick; the
statement has it wait for the instant, as R418 and R419 do. -/
theorem not_timeAdjustSteersTheCounter : ¬Obligations.TimeAdjustSteersTheCounter := by
  intro h
  have served : Served windowCloses.dev 0 stepSlot := by decide
  have accepted : Accepted windowCloses.dev 0 stepSlot 0x501 0 := by decide
  obtain ⟨-, -, step, -⟩ := h windowCloses 0 stepSlot.payload stepSlot (by decide) served accepted rfl rfl (by decide)
  obtain ⟨-, -, -, -, armed, -⟩ := Ends.effect (f := timeAdjustStep 0) rfl
    (step 1 (by decide) (by decide) (by decide) (by decide) (by decide) (by decide) (by decide))
  have time : (timeAdjustStep 0 (begun windowCloses)).time = (adjStep (begun windowCloses) stepSlot).dev.time := by
    rw [timeAdjustStep, runCmd_eq (by decide) (d := begun windowCloses) served accepted (by decide) (by decide) rfl]
    exact complete_same (x := .time) (by decide) (by decide) (by decide) (by decide) (by decide)
  rw [settle_time, time, adjStep_windowCloses] at armed
  exact absurd (Nat.lt_of_le_of_lt (Nat.le_add_right ..) windowCloses_far.1) armed.not_lt

/-! ## A load without `VSTBY` (R801) -/

/-- The standby domain takes no load while `VSTBY` is absent: time passes, and the load is gone. -/
theorem calLoadApply_unsupplied {u s0 s1 : Nat} {r : List (Nat × Nat × Nat)} (off : d.pins.vstby = false)
    (loads : d.time.calLoads = (u, s0, s1) :: r) :
    ∃ n, calLoadApply d = (reach (fresh d).2 n).onTime fun k => { k with calLoads := r } := by
  refine ⟨u + (61 + (fresh d).1 % 32) * ps_us, ?_⟩
  have pins : (reach (fresh d).2 (u + (61 + (fresh d).1 % 32) * ps_us)).pins = d.pins :=
    reach_same _ _ (x := .pins) (by decide) (by decide)
  rw [calLoadApply, loads]
  exact if_pos (by rw [Dev.onTime_pins]; exact congrArg (!·.vstby) pins |>.trans (congrArg (!·) off))

/-- A possible date and time, 1 January 2000, on its way to a calendar that is not set and has no supply. -/
def loadUnsupplied : State := 
  { dev := { boot := { phase := .full }, pins := { vstby := false }, time := { calLoads := [(0, 0, 33)] } } }

/-- Refutes O24: a load that arrives while `VSTBY` is absent sets nothing (R801); the statement has every possible load applied. -/
theorem not_pulsesAndCalendarFollowTime : ¬Obligations.PulsesAndCalendarFollowTime := by
  intro h
  obtain ⟨-, -, -, -, -, load, -⟩ := h loadUnsupplied
  obtain ⟨-, -, applied, -⟩ := Ends.effect (f := calLoadApply) rfl (load 0 0 33 [] rfl)
  obtain ⟨-, -, set, -⟩ := applied (by decide)
  obtain ⟨n, run⟩ := calLoadApply_unsupplied (d := begun loadUnsupplied) rfl rfl
  obtain ⟨f, time⟩ := reach_time (fresh (begun loadUnsupplied)).2 n
  rw [settle_time, run, Dev.onTime_time, time] at set
  exact absurd (show true = false from set) (by decide)

end Sys2Proof.Machine
end

section
/-! The frequency references (R448 to R461, Table 08-7): the servo's own registers, the state of a reference after a gate, a loss of signal
and its return, and the settings that `REF_SELECT` writes. -/

namespace Sys2Proof.Machine

open Sys2Proof

variable {d t u : Dev} {s : State} {rs : Nat → Prop} {a r q : Nat}

/-! ## What the servo moves -/

/-- The registers that steering and selection write, and those that a notification moves. -/
def servo : List Nat :=
  [Reg.tsuSts, Reg.tsuSlewLeft, Reg.tsuCtl, Reg.tsuIncFrac, Reg.tsuAdjEvc, Reg.selSts, Reg.selEvc, Reg.fwEvc, Reg.ntfLost]

/-- From d to t only registers of `rs` moved, and of the parts the time-stamping unit and the notifications; the references kept their raw
offsets. -/
structure Steers (rs : Nat → Prop) (d t : Dev) : Prop where
  moves : Moves [.time, .host] rs d t
  raw : ∀ q, (refOf t q).raw = (refOf d q).raw

theorem Steers.refl (d : Dev) : Steers rs d d := ⟨.refl d, fun _ => rfl⟩

theorem Steers.trans (h : Steers rs d t) (g : Steers rs t u) : Steers rs d u :=
  ⟨h.moves.trans g.moves, fun q => (g.raw q).trans (h.raw q)⟩

theorem Steers.mono {rs' : Nat → Prop} (h : Steers rs d t) (hr : ∀ a, rs a → rs' a) : Steers rs' d t :=
  ⟨h.moves.mono (fun _ h => h) hr, h.raw⟩

theorem Steers.ite {p : Prop} [Decidable p] (h : Steers rs d t) (g : Steers rs d u) : Steers rs d (if p then t else u) := by
  split
  · exact h
  · exact g

/-- What leaves the references alone. -/
theorem Steers.of_refs (h : Moves [.time, .host] rs d t) (refs : t.time.refs = d.time.refs) : Steers rs d t :=
  ⟨h, fun q => by rw [refOf, refs]; rfl⟩

theorem steers_onTime (d : Dev) {f : TimeSt → TimeSt} (h : (f d.time).refs = d.time.refs) : Steers rs d (d.onTime f) :=
  .of_refs (moves_onTime d f (by simp)) h

theorem steers_wr (d : Dev) (v : Nat) (h : rs a) : Steers rs d (wr d a v) := .of_refs (moves_wr d v h) rfl
theorem steers_setFld (d : Dev) (lo w v : Nat) (h : rs a) : Steers rs d (setFld d a lo w v) := steers_wr d _ h
theorem steers_setFlag (d : Dev) (i : Nat) (b : Bool) (h : rs a) : Steers rs d (setFlag d a i b) := steers_wr d _ h
theorem steers_cnt (d : Dev) (h : rs a) : Steers rs d (cnt d a) := .of_refs (moves_cnt d h) (by rw [cnt_time])
theorem steers_fresh (d : Dev) : Steers rs d (fresh d).2 := .of_refs (moves_fresh d) rfl

theorem note_time (d : Dev) (k : Nat) (l : List Byte) : (note d k l).time = d.time := by
  unfold note; split <;> [rfl; (dsimp only; split <;> simp)]

theorem roundFree_cases (d : Dev) (n m : Int) : (roundFree d n m).2 = d ∨ (roundFree d n m).2 = (fresh d).2 := by
  unfold roundFree
  dsimp only
  split
  · exact .inl rfl
  · exact .inr rfl

theorem steers_roundFree (d : Dev) (n m : Int) : Steers rs d (roundFree d n m).2 := by
  obtain h | h := roundFree_cases d n m <;> rw [h]
  · exact .refl d
  · exact steers_fresh d

theorem steers_avgOf (d : Dev) (l : List Int) : Steers rs d (avgOf d l).2 := by
  unfold avgOf
  split
  · exact .refl d
  · exact steers_roundFree ..

theorem refOf_setRef (d : Dev) (r q : Nat) (f : RefSt → RefSt) : refOf (setRef d r f) q = if q = r then f (refOf d r) else refOf d q :=
  tget_tmod ..

theorem moves_setRef (d : Dev) (r : Nat) (f : RefSt → RefSt) : Moves [.time, .host] rs d (setRef d r f) := moves_onTime d _ (by simp)

/-- A reference's entry beside its raw offsets. -/
theorem steers_setRef (d : Dev) (r : Nat) {f : RefSt → RefSt} (raw : (f (refOf d r)).raw = (refOf d r).raw) :
    Steers rs d (setRef d r f) where
  moves := moves_setRef d r f
  raw q := by rw [refOf_setRef]; split <;> simp_all

section
variable (own : ∀ a ∈ servo, rs a)
include own

theorem steers_note (d : Dev) (k : Nat) (l : List Byte) : Steers rs d (note d k l) :=
  .of_refs (moves_note d k l (by simp) (own _ (by simp [servo])) (own _ (by simp [servo]))) (by rw [note_time])

theorem steers_loadInc (d : Dev) : Steers rs d (loadInc d) := (steers_onTime d rfl).trans (steers_cnt _ (own _ (by simp [servo])))

theorem steers_steerInc (d : Dev) (inc : Nat) : Steers rs d (steerInc d inc) :=
  (steers_setFld d 0 4 _ (own _ (by simp [servo]))).trans ((steers_wr _ _ (own _ (by simp [servo]))).trans (steers_loadInc own _))

theorem steers_steerTo (d : Dev) (o : Int) : Steers rs d (steerTo d o) := (steers_roundFree d _ _).trans (steers_steerInc own _ _)

theorem steers_steerFree (d : Dev) : Steers rs d (steerFree d) := (steers_fresh d).trans (steers_steerInc own _ _)

theorem steers_endSlew (d : Dev) : Steers rs d (endSlew d) :=
  .ite ((steers_onTime d rfl).trans ((steers_wr _ _ (own _ (by simp [servo]))).trans
    ((steers_setFlag _ 1 _ (own _ (by simp [servo]))).trans (steers_cnt _ (own _ (by simp [servo])))))) (.refl d)

theorem steers_beginSlew (d : Dev) (f : Int) (n : Nat) : Steers rs d (beginSlew d f n) :=
  (steers_endSlew own d).trans ((steers_onTime _ rfl).trans
    ((steers_wr _ _ (own _ (by simp [servo]))).trans (steers_setFlag _ 1 _ (own _ (by simp [servo])))))

theorem steers_phaseAlign (d : Dev) : Steers rs d (phaseAlign d) :=
  (steers_fresh d).trans ((steers_fresh _).trans (steers_beginSlew own _ _ _))

theorem steers_freezeBit (d : Dev) : Steers rs d (freezeBit d) := steers_setFlag d 3 _ (own _ (by simp [servo]))

theorem steers_moveTo (d : Dev) (k : Nat) (o : Int) : Steers rs d (moveTo d k o) := by
  have chosen : Steers rs d (cnt (setFld d Reg.selSts 0 3 k) Reg.selEvc) :=
    (steers_setFld d 0 3 _ (own _ (by simp [servo]))).trans (steers_cnt _ (own _ (by simp [servo])))
  have held (e : Dev) : Steers rs e (if k = 4 then steerTo (e.onTime fun t => { t with holdover := some o, holdSince := e.now }) o else e) :=
    .ite ((steers_onTime e rfl).trans (steers_steerTo own _ _)) (.refl e)
  refine chosen.trans ((held _).trans ?_)
  exact (steers_freezeBit own _).trans (Steers.trans (.ite (steers_phaseAlign own _) (.refl _)) (steers_note own _ _ _))

theorem steers_holdNow (d : Dev) : Steers rs d (holdNow d) := .ite (steers_steerTo own d _) (steers_steerTo own d _)

theorem steers_reselect (d : Dev) (enter : Bool) : Steers rs d (reselect d enter) := by
  unfold reselect
  refine .ite (.refl d) ?_
  dsimp only
  split
  · exact .ite (steers_freezeBit own d) (steers_moveTo own d _ _)
  · refine .ite (steers_freezeBit own d) (.ite (.ite ?_ (steers_freezeBit own d)) (steers_moveTo own d _ _))
    exact (steers_holdNow own d).trans (steers_freezeBit own _)

theorem steers_steerGate (d : Dev) (r was : Nat) : Steers rs d (steerGate d r was) :=
  .ite (.refl d) (.ite (steers_steerFree own d) (.ite (steers_steerTo own d _) (.refl d)))

end

/-! ## The state that a reference shows (Table 08-7) -/

/-- `REF_STS` of a reference shows this state, and these runs of gates in window and out of it. -/
structure Shows (d : Dev) (r st i o : Nat) : Prop where
  state : refState d r = st
  inRun : fld d (Reg.refSts r) 4 5 = i
  outRun : fld d (Reg.refSts r) 9 4 = o

theorem Shows.congr {st i o : Nat} (h : Shows d r st i o) (same : rd t (Reg.refSts r) = rd d (Reg.refSts r)) : Shows t r st i o := by
  obtain ⟨state, inRun, outRun⟩ := h
  simp only [refState, fld] at state inRun outRun
  constructor <;> simp only [refState, fld, same, state, inRun, outRun]

/-- The registers by which a reference's state is shown and counted, with the servo's. -/
def Judged (r a : Nat) : Prop := a ∈ servo ∨ a = Reg.refSts r ∨ a = Reg.refStateEvc r

theorem servo_judged (r : Nat) : ∀ a ∈ servo, Judged r a := fun _ h => .inl h

theorem refSts_not_servo (hr : r < 4) : Reg.refSts r ∉ servo :=
  (by decide : ∀ r < 4, Reg.refSts r ∉ servo) r hr

theorem refSts_not_judged (hq : q < 4) (ne : q ≠ r) : ¬Judged r (Reg.refSts q) := by
  rintro (h | h | h)
  · exact refSts_not_servo hq h
  · simp only [Reg.refSts] at h
    omega
  · simp only [Reg.refSts, Reg.refStateEvc] at h
    omega

theorem steers_setRefState (d : Dev) (r st : Nat) : Steers (Judged r) d (setRefState d r st) :=
  .ite (.refl d) ((steers_setFld d 0 2 _ (.inr (.inl rfl))).trans
    ((steers_cnt _ (.inr (.inr rfl))).trans (steers_note (servo_judged r) _ _ _)))

/-- A change of state is shown, and leaves the runs. -/
theorem shows_setRefState {st i o st' : Nat} (h : Shows d r st i o) (hr : r < 4) (small : st' < 4) : Shows (setRefState d r st') r st' i o := by
  obtain ⟨state, inRun, outRun⟩ := h
  unfold setRefState
  split
  case isTrue same => exact ⟨same, inRun, outRun⟩
  case isFalse =>
    have set : Shows (setFld d (Reg.refSts r) 0 2 st') r st' i o :=
      ⟨(fld_setFld_self d _ 0 2 st' (by decide)).trans (Nat.mod_eq_of_lt small),
        (fld_setFld_other d _ 0 2 st' 4 5 (by decide) (by decide)).trans inRun,
        (fld_setFld_other d _ 0 2 st' 9 4 (by decide) (by decide)).trans outRun⟩
    have ne : Reg.refSts r ≠ Reg.refStateEvc r := by simp [Reg.refSts, Reg.refStateEvc]
    refine set.congr (((steers_note (rs := (· ∈ servo)) (fun _ h => h) _ _ _).moves.regs _ (refSts_not_servo hr)).trans ?_)
    exact rd_cnt_ne _ ne

/-- The offset that a reference leaves when it is disqualified: what it froze on, or its average. -/
def leftOffset (d : Dev) (r : Nat) : Int × Dev :=
  if refState d r = 2 then ((refOf d r).frozen, d) else avgOf d ((refOf d r).raw.take 16)

theorem disqualify_eq (d : Dev) (r : Nat) : disqualify d r =
    if refState d r = 0 then d else setRefState (setRef (leftOffset d r).2 r fun x => { x with gone := (leftOffset d r).1 }) r 0 := rfl

theorem steers_leftOffset (d : Dev) (r : Nat) : Steers rs d (leftOffset d r).2 := by
  unfold leftOffset
  split
  · exact .refl d
  · exact steers_avgOf d _

theorem rd_leftOffset (d : Dev) (r a : Nat) : rd (leftOffset d r).2 a = rd d a :=
  (steers_leftOffset (rs := fun _ => False) d r).moves.regs a id

theorem steers_disqualify (d : Dev) (r : Nat) : Steers (Judged r) d (disqualify d r) := by
  rw [disqualify_eq]
  exact .ite (.refl d) ((steers_leftOffset d r).trans ((steers_setRef _ r rfl).trans (steers_setRefState _ r 0)))

theorem shows_disqualify {st i o : Nat} (h : Shows d r st i o) (hr : r < 4) : Shows (disqualify d r) r 0 i o := by
  rw [disqualify_eq]
  split
  case isTrue same => exact ⟨same, h.inRun, h.outRun⟩
  case isFalse => exact shows_setRefState (h.congr (rd_leftOffset d r _)) hr (by decide)

/-! ## A gate is judged (Table 08-7) -/

/-- The state after a gate that leaves these runs in window and out of it. -/
def stateAfter (st i o : Nat) : Nat :=
  if st = 0 ∧ i = 16 then 1
  else if st = 1 ∧ o = 3 then 2
  else if st = 2 ∧ i = 3 then 1
  else if st = 2 ∧ o = 8 then 0
  else st

/-- The runs in window and out of it after one more gate. -/
def runsAfter (d : Dev) (r : Nat) (inWin : Bool) : Nat × Nat :=
  (if inWin then min 16 (fld d (Reg.refSts r) 4 5 + 1) else 0, if inWin then 0 else min 8 (fld d (Reg.refSts r) 9 4 + 1))

/-- The runs are noted. -/
def runsNoted (d : Dev) (r : Nat) (inWin : Bool) : Dev :=
  setFld (setFld d (Reg.refSts r) 4 5 (runsAfter d r inWin).1) (Reg.refSts r) 9 4 (runsAfter d r inWin).2

theorem runsAfter_lt (d : Dev) (r : Nat) (inWin : Bool) : (runsAfter d r inWin).1 < 32 ∧ (runsAfter d r inWin).2 < 16 := by
  cases inWin with
  | true => exact ⟨Nat.lt_of_le_of_lt (Nat.min_le_left ..) (by decide), Nat.zero_lt_succ 15⟩
  | false => exact ⟨Nat.zero_lt_succ 31, Nat.lt_of_le_of_lt (Nat.min_le_left ..) (by decide)⟩

theorem steers_runsNoted (d : Dev) (r : Nat) (inWin : Bool) : Steers (Judged r) d (runsNoted d r inWin) :=
  (steers_setFld d 4 5 _ (.inr (.inl rfl))).trans (steers_setFld _ 9 4 _ (.inr (.inl rfl)))

theorem shows_runsNoted (d : Dev) (r : Nat) (inWin : Bool) :
    Shows (runsNoted d r inWin) r (refState d r) (runsAfter d r inWin).1 (runsAfter d r inWin).2 := by
  obtain ⟨i, o⟩ := runsAfter_lt d r inWin
  refine ⟨?_, ?_, ?_⟩
  · exact (fld_setFld_other _ _ 9 4 _ 0 2 (by decide) (by decide)).trans (fld_setFld_other d _ 4 5 _ 0 2 (by decide) (by decide))
  · refine (fld_setFld_other _ _ 9 4 _ 4 5 (by decide) (by decide)).trans ?_
    exact (fld_setFld_self d _ 4 5 _ (by decide)).trans (Nat.mod_eq_of_lt i)
  · exact (fld_setFld_self _ _ 9 4 _ (by decide)).trans (Nat.mod_eq_of_lt o)

/-- A reference that becomes SUSPECT freezes on the average before the gates that made it so. -/
def suspected (d : Dev) (r : Nat) : Dev :=
  let a := avgOf d (((refOf d r).raw.drop 3).take 16)
  setRefState (setRef a.2 r fun x => { x with frozen := a.1 }) r 2

theorem judgeGate_eq (d : Dev) (r : Nat) (inWin : Bool) : judgeGate d r inWin =
    (if refState (runsNoted d r inWin) r = 0 ∧ (runsAfter d r inWin).1 = 16 then setRefState (runsNoted d r inWin) r 1
    else if refState (runsNoted d r inWin) r = 1 ∧ (runsAfter d r inWin).2 = 3 then suspected (runsNoted d r inWin) r
    else if refState (runsNoted d r inWin) r = 2 ∧ (runsAfter d r inWin).1 = 3 then setRefState (runsNoted d r inWin) r 1
    else if refState (runsNoted d r inWin) r = 2 ∧ (runsAfter d r inWin).2 = 8 then disqualify (runsNoted d r inWin) r
    else runsNoted d r inWin) := rfl

theorem steers_suspected (d : Dev) (r : Nat) : Steers (Judged r) d (suspected d r) :=
  (steers_avgOf d _).trans ((steers_setRef _ r rfl).trans (steers_setRefState _ r 2))

theorem shows_suspected {st i o : Nat} (h : Shows d r st i o) (hr : r < 4) : Shows (suspected d r) r 2 i o :=
  shows_setRefState (h.congr ((steers_avgOf (rs := (· ∈ servo)) d _).moves.regs _ (refSts_not_servo hr))) hr (by decide)

theorem steers_judgeGate (d : Dev) (r : Nat) (inWin : Bool) : Steers (Judged r) d (judgeGate d r inWin) := by
  rw [judgeGate_eq]
  refine (steers_runsNoted d r inWin).trans (.ite (steers_setRefState _ r 1) (.ite (steers_suspected _ r) ?_))
  exact .ite (steers_setRefState _ r 1) (.ite (steers_disqualify _ r) (.refl _))

theorem shows_judgeGate (d : Dev) (hr : r < 4) (inWin : Bool) : Shows (judgeGate d r inWin) r
    (stateAfter (refState d r) (runsAfter d r inWin).1 (runsAfter d r inWin).2) (runsAfter d r inWin).1 (runsAfter d r inWin).2 := by
  have noted := shows_runsNoted d r inWin
  rw [judgeGate_eq, noted.state, stateAfter]
  split
  · exact shows_setRefState noted hr (by decide)
  split
  · exact shows_suspected noted hr
  split
  · exact shows_setRefState noted hr (by decide)
  split
  · exact shows_disqualify noted hr
  · exact noted

/-! ## The end of a gate (R448 to R450) -/

/-- The registers of a reference that passing time leaves. -/
theorem rd_reach_ref (d : Dev) (u : Nat) (hr : r < 4) (ha : a ∈ [Reg.refCfg r, Reg.refSts r, Reg.refGates r]) :
    rd (reach d u) a = rd d a := by
  have idle : ∀ r < 4, ∀ a ∈ [Reg.refCfg r, Reg.refSts r, Reg.refGates r],
      a ≠ Reg.tsuNs ∧ a ≠ Reg.tsuWrap ∧ a ≠ Reg.tsuSlewLeft ∧ Reg.fwAcked (a - 4) = false := by decide
  obtain ⟨ns, wrap, left, plain⟩ := idle r hr a ha
  exact rd_reach d u ns wrap left (.inr plain)

theorem refOf_reach (d : Dev) (u q : Nat) : refOf (reach d u) q = refOf d q := by
  obtain ⟨f, time⟩ := reach_time d u
  rw [refOf, time]
  rfl

/-- The raw offset of a gate is taken, and the next gate begins. -/
def rawTaken (d : Dev) (r : Nat) (raw : Int) : Dev := setRef d r fun x => { x with raw := (raw :: x.raw).take 19, gateAt := d.now }

theorem moves_rawTaken (d : Dev) (r : Nat) (raw : Int) : Moves [.time, .host] rs d (rawTaken d r raw) :=
  moves_setRef d r _

theorem rawTaken_now (d : Dev) (r : Nat) (raw : Int) : (rawTaken d r raw).now = d.now := rfl

/-- The offset and the average of a gate, noted and counted. -/
def gateMeasured (d : Dev) (r : Nat) (raw : Int) : Dev :=
  let o := roundFree d (2 * raw - (median2 d r).getD 0) 2
  let e := wr o.2 (Reg.refOffset r) (unsigned 16 o.1 + 65536 * unsigned 16 raw)
  let a := avgOf e ((refOf e r).raw.take 16)
  cnt (wr a.2 (Reg.refAvg16 r) (unsigned 16 a.1)) (Reg.refGates r)

/-- The registers that a gate's measurement writes. -/
def Measured (r a : Nat) : Prop := a = Reg.refOffset r ∨ a = Reg.refAvg16 r ∨ a = Reg.refGates r

theorem steers_gateMeasured (d : Dev) (r : Nat) (raw : Int) : Steers (Measured r) d (gateMeasured d r raw) :=
  (steers_roundFree d _ 2).trans ((steers_wr _ _ (.inl rfl)).trans ((steers_avgOf _ _).trans
    ((steers_wr _ _ (.inr (.inl rfl))).trans (steers_cnt _ (.inr (.inr rfl))))))

theorem rd_gateMeasured (d : Dev) (r : Nat) (raw : Int) : rd (gateMeasured d r raw) (Reg.refGates r) = (rd d (Reg.refGates r) + 1) % two32 := by
  have off : Reg.refGates r ≠ Reg.refOffset r := by simp [Reg.refGates, Reg.refOffset]
  have avg : Reg.refGates r ≠ Reg.refAvg16 r := by simp [Reg.refGates, Reg.refAvg16]
  have free (e : Dev) (l : List Int) : rd (avgOf e l).2 (Reg.refGates r) = rd e (Reg.refGates r) :=
    (steers_avgOf (rs := fun _ => False) e l).moves.regs _ id
  have rounded : rd (roundFree d (2 * raw - (median2 d r).getD 0) 2).2 (Reg.refGates r) = rd d (Reg.refGates r) :=
    (steers_roundFree (rs := fun _ => False) d _ 2).moves.regs _ id
  rw [gateMeasured, rd_cnt_self, rd_wr_ne _ _ avg, free, rd_wr_ne _ _ off, rounded]

/-- The gate counts as in window. -/
def inWindow (d : Dev) (r : Nat) (raw : Int) : Bool :=
  decide ((2 * raw - (median2 d r).getD 0).natAbs ≤ 2 * fld d (Reg.refCfg r) 12 14)

theorem refGateEnd_eq (raw : Int) (up : alive d = true) (en : refEn d r = true) (signal : flag d (Reg.refSts r) 2 = false)
    (lock : 2 ≤ r → syncLock d r = true) :
    ∃ e m, e = rawTaken (reach d ((refOf d r).gateAt + ps_s)) r raw ∧ m = gateMeasured e r raw ∧
      refGateEnd r raw d = steerGate (reselect (judgeGate m r (inWindow e r raw)) false) r (selected m) := by
  refine ⟨_, _, rfl, rfl, ?_⟩
  have locked : ¬(decide (2 ≤ r) && !syncLock d r) = true := by simpa using lock
  have cfg (e : Dev) : fld (gateMeasured e r raw) (Reg.refCfg r) 12 14 = fld e (Reg.refCfg r) 12 14 := by
    refine (steers_gateMeasured e r raw).moves.fld ?_ 12 14
    simp [Measured, Reg.refCfg, Reg.refOffset, Reg.refAvg16, Reg.refGates]
  rw [inWindow, ← cfg]
  exact (if_neg (by simp [up, en, signal])).trans (if_neg locked)

/-- The median that judges a reference is over the other references alone. -/
theorem median2_congr (same : ∀ k < 4, k ≠ r → rd t (Reg.refCfg k) = rd d (Reg.refCfg k) ∧ rd t (Reg.refSts k) = rd d (Reg.refSts k) ∧
    refOf t k = refOf d k) : median2 t r = median2 d r := by
  have chosen : ((List.range 4).filter fun k => decide (k ≠ r) && refEn t k && decide (refState t k = 1)) =
      (List.range 4).filter fun k => decide (k ≠ r) && refEn d k && decide (refState d k = 1) := by
    refine List.filter_congr fun k mem => ?_
    by_cases own : k = r
    · simp [own]
    · obtain ⟨cfg, sts, -⟩ := same k (List.mem_range.1 mem) own
      have en : refEn t k = refEn d k := by simp only [refEn, flag, cfg]
      have state : refState t k = refState d k := by simp only [refState, fld, sts]
      rw [en, state]
  have offs : (((List.range 4).filter fun k => decide (k ≠ r) && refEn d k && decide (refState d k = 1)).map fun k =>
      ((refOf t k).raw.head?).getD 0) =
      ((List.range 4).filter fun k => decide (k ≠ r) && refEn d k && decide (refState d k = 1)).map fun k => ((refOf d k).raw.head?).getD 0 := by
    refine List.map_congr_left fun k mem => ?_
    simp only [List.mem_filter, List.mem_range, Bool.and_eq_true, decide_eq_true_eq] at mem
    obtain ⟨small, ⟨other, -⟩, -⟩ := mem
    rw [(same k small other).2.2]
  simp only [median2, chosen, offs]

/-- What the raw offset's taking leaves of the registers by which references are judged. -/
theorem rd_rawTaken (d : Dev) (raw : Int) (u : Nat) (hq : q < 4) (ha : a ∈ [Reg.refCfg q, Reg.refSts q, Reg.refGates q]) :
    rd (rawTaken (reach d u) r raw) a = rd d a :=
  ((moves_rawTaken (rs := fun _ => False) _ r raw).regs a id).trans (rd_reach_ref d u hq ha)

theorem refOf_rawTaken (d : Dev) (raw : Int) (u q : Nat) : refOf (rawTaken (reach d u) r raw) q =
    if q = r then { refOf d r with raw := (raw :: (refOf d r).raw).take 19, gateAt := (reach d u).now } else refOf d q := by
  rw [rawTaken, refOf_setRef, refOf_reach, refOf_reach]

theorem inWindow_rawTaken (d : Dev) (raw : Int) (u : Nat) (hr : r < 4) :
    inWindow (rawTaken (reach d u) r raw) r raw = inWindow d r raw := by
  have median : median2 (rawTaken (reach d u) r raw) r = median2 d r := by
    refine median2_congr fun k small other => ⟨rd_rawTaken d raw u small (by simp), rd_rawTaken d raw u small (by simp), ?_⟩
    rw [refOf_rawTaken, if_neg other]
  have window : fld (rawTaken (reach d u) r raw) (Reg.refCfg r) 12 14 = fld d (Reg.refCfg r) 12 14 := by
    simp only [fld, rd_rawTaken d raw u hr (List.mem_cons_self : Reg.refCfg r ∈ _)]
  rw [inWindow, inWindow, median, window]

/-- A gate has been counted and judged, its raw offset kept. -/
structure GateCounted (r : Nat) (raw : Int) (d t : Dev) : Prop where
  gates : rd t (Reg.refGates r) = (rd d (Reg.refGates r) + 1) % two32
  kept : (refOf t r).raw = (raw :: (refOf d r).raw).take 19
  shows : Shows t r (stateAfter (refState d r) (runsAfter d r (inWindow d r raw)).1 (runsAfter d r (inWindow d r raw)).2)
    (runsAfter d r (inWindow d r raw)).1 (runsAfter d r (inWindow d r raw)).2
  others : ∀ q < 4, q ≠ r → rd t (Reg.refSts q) = rd d (Reg.refSts q)
  due : (refOf d r).gateAt + ps_s ≤ t.now
  parts : OnlyParts [.now, .time, .host] d t

theorem refGates_not_judged (hr : r < 4) : ¬Judged r (Reg.refGates r) := by
  have other : ∀ r < 4, Reg.refGates r ∉ servo ∧ Reg.refGates r ≠ Reg.refSts r ∧ Reg.refGates r ≠ Reg.refStateEvc r := by decide
  obtain ⟨own, sts, evc⟩ := other r hr
  rintro (h | h | h)
  · exact own h
  · exact sts h
  · exact evc h

theorem refSts_not_measured (r q : Nat) : ¬Measured r (Reg.refSts q) := by
  simp only [Measured, Reg.refSts, Reg.refOffset, Reg.refAvg16, Reg.refGates]
  omega

theorem refGateEnd_counted (raw : Int) (hr : r < 4) (up : alive d = true) (en : refEn d r = true) (signal : flag d (Reg.refSts r) 2 = false)
    (lock : 2 ≤ r → syncLock d r = true) : GateCounted r raw d (refGateEnd r raw d) := by
  obtain ⟨e, m, he, hm, run⟩ := refGateEnd_eq raw up en signal lock
  have measured : Steers (Measured r) e m := hm ▸ steers_gateMeasured e r raw
  have judged := steers_judgeGate m r (inWindow e r raw)
  have steered : Steers (· ∈ servo) (judgeGate m r (inWindow e r raw)) (refGateEnd r raw d) :=
    run ▸ (steers_reselect (fun _ h => h) _ false).trans (steers_steerGate (fun _ h => h) _ r _)
  have ended : Steers (Judged r) m (refGateEnd r raw d) := judged.trans (steered.mono (servo_judged r))
  have win : inWindow e r raw = inWindow d r raw := by rw [he, inWindow_rawTaken d raw _ hr]
  have sts : rd m (Reg.refSts r) = rd d (Reg.refSts r) := by
    rw [measured.moves.regs _ (refSts_not_measured r r), he]
    exact rd_rawTaken d raw _ hr (by simp)
  have now : (refGateEnd r raw d).now = (reach d ((refOf d r).gateAt + ps_s)).now := by
    rw [show _ = m.now from ended.moves.parts .now (by simp), show _ = e.now from measured.moves.parts .now (by simp), he]
    exact rawTaken_now ..
  constructor
  case gates =>
    rw [ended.moves.regs _ (refGates_not_judged hr), hm, rd_gateMeasured, he]
    rw [rd_rawTaken d raw _ hr (by simp)]
  case kept =>
    rw [ended.raw, measured.raw, he, refOf_rawTaken, if_pos rfl]
  case shows =>
    have shown := (shows_judgeGate m hr (inWindow e r raw)).congr (steered.moves.regs _ (refSts_not_servo hr))
    simpa only [win, refState, runsAfter, fld, sts] using shown
  case others =>
    intro q small other
    rw [ended.moves.regs _ (refSts_not_judged small other), measured.moves.regs _ (refSts_not_measured r q), he]
    exact rd_rawTaken d raw _ small (by simp)
  case due => exact now ▸ (reach_now (d := d) _).1
  case parts =>
    intro x hx
    obtain ⟨n, t, h⟩ := not_mem_three hx
    have other : x ∉ [Piece.time, .host] := by simp [t, h]
    have taken : Same x d e := he ▸ Same.trans (reach_same (d := d) _ n t) ((moves_rawTaken (rs := fun _ => False) _ r raw).parts x other)
    exact Same.trans taken (Same.trans (measured.moves.parts x other) (ended.moves.parts x other))

theorem Shows.settled {st i o : Nat} (h : Shows d r st i o) (hr : r < 4) : Shows (settle d) r st i o :=
  h.congr (rd_settle d ((by decide : ∀ r < 4, Reg.refSts r ≠ Reg.irqMsgCnt) r hr))

/-- What the delivery of interrupts leaves after a gate. -/
theorem GateCounted.settled {raw : Int} (h : GateCounted r raw (begun s) t) (hr : r < 4) : GateCounted r raw s.dev (settle t) := by
  obtain ⟨gates, kept, shown, others, due, parts⟩ := h
  have sts : ∀ q < 4, Reg.refSts q ≠ Reg.irqMsgCnt := by decide
  have count : ∀ q < 4, Reg.refGates q ≠ Reg.irqMsgCnt := by decide
  refine ⟨?_, ?_, shown.settled hr, fun q small other => ?_, ?_, onlyParts_settle parts⟩
  · rw [rd_settle _ (count r hr), gates, rd_begun]
  · rwa [refOf, settle_time]
  · rw [rd_settle _ (sts q small), others q small other, rd_begun]
  · rwa [settle_now]

/-! ## A loss of signal, and its return (R452, R453) -/

theorem flag_setFld_outside (d : Dev) (a x : Nat) {lo w i : Nat} (h : i < 32) (outside : i < lo ∨ lo + w ≤ i) :
    flag (setFld d a lo w x) a i = flag d a i := by
  simp only [flag, setFld, rd_wr_self]
  rw [show two32 = 2 ^ 32 from rfl, bit_mod _ _ _ h, bit_setBits, if_neg (by omega)]

theorem flag_setRefState (d : Dev) (st : Nat) (hr : r < 4) : flag (setRefState d r st) (Reg.refSts r) 2 = flag d (Reg.refSts r) 2 := by
  unfold setRefState
  split
  case isTrue => rfl
  case isFalse =>
    have ne : Reg.refSts r ≠ Reg.refStateEvc r := by simp [Reg.refSts, Reg.refStateEvc]
    refine ((steers_note (rs := (· ∈ servo)) (fun _ h => h) _ _ _).moves.flag (refSts_not_servo hr) 2).trans ?_
    rw [flag, rd_cnt_ne _ ne]
    exact flag_setFld_outside d _ _ (by decide) (.inr (by decide))

theorem flag_disqualify (d : Dev) (hr : r < 4) : flag (disqualify d r) (Reg.refSts r) 2 = flag d (Reg.refSts r) 2 := by
  rw [disqualify_eq]
  split
  case isTrue => rfl
  case isFalse => exact (flag_setRefState _ 0 hr).trans (congrArg (bit · 2) (rd_leftOffset d r _))

/-- The runs of gates begin anew. -/
def runsCleared (d : Dev) (r : Nat) : Dev := setFld (setFld d (Reg.refSts r) 4 5 0) (Reg.refSts r) 9 4 0

theorem steers_runsCleared (d : Dev) (r : Nat) : Steers (Judged r) d (runsCleared d r) :=
  (steers_setFld d 4 5 _ (.inr (.inl rfl))).trans (steers_setFld _ 9 4 _ (.inr (.inl rfl)))

theorem shows_runsCleared (d : Dev) (r : Nat) : Shows (runsCleared d r) r (refState d r) 0 0 := by
  refine ⟨?_, ?_, fld_setFld_self _ _ 9 4 _ (by decide)⟩
  · exact (fld_setFld_other _ _ 9 4 _ 0 2 (by decide) (by decide)).trans (fld_setFld_other d _ 4 5 _ 0 2 (by decide) (by decide))
  · exact (fld_setFld_other _ _ 9 4 _ 4 5 (by decide) (by decide)).trans (fld_setFld_self d _ 4 5 _ (by decide))

theorem flag_runsCleared (d : Dev) (r : Nat) : flag (runsCleared d r) (Reg.refSts r) 2 = flag d (Reg.refSts r) 2 :=
  (flag_setFld_outside _ _ _ (by decide) (.inl (by decide))).trans (flag_setFld_outside d _ _ (by decide) (.inl (by decide)))

theorem markLost_eq (d : Dev) (r : Nat) : markLost d r = disqualify (runsCleared (setFlag d (Reg.refSts r) 2 true) r) r := rfl

theorem steers_markLost (d : Dev) (r : Nat) : Steers (Judged r) d (markLost d r) :=
  (steers_setFlag d 2 true (.inr (.inl rfl))).trans ((steers_runsCleared _ r).trans (steers_disqualify _ r))

theorem shows_markLost (d : Dev) (hr : r < 4) : Shows (markLost d r) r 0 0 0 := shows_disqualify (shows_runsCleared _ r) hr

theorem flag_markLost (d : Dev) (hr : r < 4) : flag (markLost d r) (Reg.refSts r) 2 = true := by
  rw [markLost_eq, flag_disqualify _ hr, flag_runsCleared]
  exact flag_setFlag_self d _ 2 true (by decide)

theorem steers_loseRef (d : Dev) (r : Nat) : Steers (Judged r) d (loseRef d r) :=
  (steers_markLost d r).trans (steers_reselect (servo_judged r) _ false)

theorem rd_loseRef (d : Dev) (hr : r < 4) : rd (loseRef d r) (Reg.refSts r) = rd (markLost d r) (Reg.refSts r) :=
  (steers_reselect (rs := (· ∈ servo)) (fun _ h => h) _ false).moves.regs _ (refSts_not_servo hr)

theorem refLossOfSignal_eq (up : alive d = true) (en : refEn d r = true) (signal : flag d (Reg.refSts r) 2 = false)
    (lock : 2 ≤ r → syncLock d r = false) : refLossOfSignal r d = loseRef d r :=
  if_neg (by simpa [up, en, signal] using lock)

theorem refSignalReturn_eq (lost : flag d (Reg.refSts r) 2 = true) (lock : 2 ≤ r → syncLock d r = true) :
    refSignalReturn r d = setRef (setFlag d (Reg.refSts r) 2 false) r fun x => { x with gateAt := d.now } :=
  if_neg (by simpa [lost] using lock)

theorem moves_refSignalReturn (lost : flag d (Reg.refSts r) 2 = true) (lock : 2 ≤ r → syncLock d r = true) :
    Moves [.time] (· ∈ [Reg.refSts r]) d (refSignalReturn r d) := by
  rw [refSignalReturn_eq lost lock]
  exact (moves_setFlag d 2 false (by simp)).trans (moves_onTime _ _ (by simp))

/-! ## `REF_SELECT` (Table 12-13) -/

/-- The registers of the references that their settings move. -/
def Configured (a : Nat) : Prop := ∃ k < 4, Judged k a ∨ a = Reg.refCfg k

/-- The registers that `REF_SELECT` writes, with those that follow from them. -/
def Selected (a : Nat) : Prop := a = Reg.selCfg ∨ Configured a ∨ a = Reg.refPpsDelay 0 ∨ a = Reg.refPpsDelay 1

theorem servo_selected : ∀ a ∈ servo, Selected a := fun _ h => .inr (.inl ⟨0, by decide, .inl (.inl h)⟩)

theorem judged_place (hr : r < 4) (h : Judged r a) : a < 0x40_0000 ∨ a = Reg.ntfLost := by
  have own : ∀ a ∈ servo, a < 0x40_0000 ∨ a = Reg.ntfLost := by decide
  obtain h | rfl | rfl := h
  · exact own a h
  · left
    simp only [Reg.refSts, Reg.tsu]
    omega
  · left
    simp only [Reg.refStateEvc, Reg.tsu]
    omega

theorem selected_place (h : Selected a) : a < 0x40_0000 ∨ a = Reg.ntfLost := by
  have cfg : ∀ k < 4, Reg.refCfg k < 0x40_0000 := by decide
  obtain rfl | ⟨k, hk, h | rfl⟩ | rfl | rfl := h
  · exact .inl (by decide)
  · exact judged_place hk h
  · exact .inl (cfg k hk)
  · exact .inl (by decide)
  · exact .inl (by decide)

/-- The state and the counts of the mailboxes lie elsewhere. -/
theorem selected_not_chan (ch : Nat) {k : Nat} (hk : k < 0x4C) : ¬Selected (Reg.chan ch + k) := by
  intro h
  have place := selected_place h
  simp only [Reg.chan, Reg.ntfLost] at place
  omega

/-- What follows from a reference's new setting. -/
theorem moves_setRefCfg (d : Dev) (r w : Nat) : Moves [.time, .host] (Judged r) (wr d (Reg.refCfg r) w) (setRefCfg d r w) := by
  have sts : Judged r (Reg.refSts r) := .inr (.inl rfl)
  unfold setRefCfg
  refine .ite ?_ (.ite (steers_markLost _ r).moves (.ite ?_ (.refl _)))
  · exact (moves_setFlag _ 2 _ sts).trans (moves_onTime _ _ (by simp))
  · exact ((steers_runsCleared _ r).trans (steers_disqualify _ r)).moves

theorem refCfg_not_judged (hq : q < 4) : ¬Judged r (Reg.refCfg q) := by
  rintro (h | h | h)
  · exact absurd h ((by decide : ∀ q < 4, Reg.refCfg q ∉ servo) q hq)
  · simp only [Reg.refSts, Reg.refCfg] at h
    omega
  · simp only [Reg.refCfg, Reg.refStateEvc] at h
    omega

theorem rd_setRefCfg (d : Dev) (r w : Nat) (hq : q < 4) :
    rd (setRefCfg d r w) (Reg.refCfg q) = if q = r then w % two32 else rd d (Reg.refCfg q) := by
  have same : Reg.refCfg q = Reg.refCfg r ↔ q = r := by simp [Reg.refCfg]
  rw [(moves_setRefCfg d r w).regs _ (refCfg_not_judged hq), rd_wr]
  simp only [same]

/-- The settings of the references of a list. -/
def refCfgsPut (w : Nat → Nat) (l : List Nat) (d : Dev) : Dev := l.foldl (fun d k => setRefCfg d k (w k)) d

theorem rd_refCfgsPut (w : Nat → Nat) (l : List Nat) (d : Dev) (hr : r < 4) :
    rd (refCfgsPut w l d) (Reg.refCfg r) = if r ∈ l then w r % two32 else rd d (Reg.refCfg r) := by
  induction l generalizing d with
  | nil => rfl
  | cons x l ih =>
    refine (ih _).trans ?_
    rw [rd_setRefCfg d x _ hr]
    by_cases later : r ∈ l
    · simp [later]
    · by_cases now : r = x <;> simp [later, now]

theorem moves_refCfgsPut (w : Nat → Nat) (d : Dev) : Moves [.time, .host] Configured d (refCfgsPut w (List.range 4) d) := by
  refine Moves.foldl _ (fun d k mem => ?_) d
  have small := List.mem_range.1 mem
  refine (moves_wr d _ ⟨k, small, .inr rfl⟩).trans ((moves_setRefCfg d k _).mono (fun _ h => h) fun a h => ?_)
  exact ⟨k, small, .inl h⟩

/-- The settings stand in their registers. -/
def refsSet (d : Dev) (l : List Byte) : Dev :=
  wr (wr (refCfgsPut (fun r => le l (4 + 4 * r) 4) (List.range 4) (wr d Reg.selCfg (le l 0 1 + 2 * le l 1 1 + 4 * le l 2 1)))
    (Reg.refPpsDelay 0) (le l 20 4)) (Reg.refPpsDelay 1) (le l 24 4)

theorem moves_refsSet (d : Dev) (l : List Byte) : Moves [.time, .host] Selected d (refsSet d l) :=
  (moves_wr d _ (.inl rfl)).trans (((moves_refCfgsPut _ _).mono (fun _ h => h) fun _ h => .inr (.inl h)).trans
    ((moves_wr _ _ (.inr (.inr (.inl rfl)))).trans (moves_wr _ _ (.inr (.inr (.inr rfl))))))

/-- The reference is chosen anew under the new settings. -/
theorem steers_putRefs (d : Dev) (l : List Byte) : Steers (· ∈ servo) (refsSet d l) (putRefs d l) :=
  (steers_reselect (fun _ h => h) _ _).trans (.ite (steers_phaseAlign (fun _ h => h) _) (.refl _))

theorem moves_putRefs (d : Dev) (l : List Byte) : Moves [.time, .host] Selected d (putRefs d l) :=
  (moves_refsSet d l).trans ((steers_putRefs d l).moves.mono (fun _ h => h) servo_selected)

/-- The registers show the settings of `REF_SELECT`. -/
structure SettingsShown (l : List Byte) (t : Dev) : Prop where
  select : rd t Reg.selCfg = le l 0 1 + 2 * le l 1 1 + 4 * le l 2 1
  refs : ∀ r < 4, rd t (Reg.refCfg r) = le l (4 + 4 * r) 4
  delay0 : rd t (Reg.refPpsDelay 0) = le l 20 4
  delay1 : rd t (Reg.refPpsDelay 1) = le l 24 4

/-- The registers that the settings stand in. -/
def refSettings : List Nat := [Reg.selCfg, Reg.refPpsDelay 0, Reg.refPpsDelay 1] ++ (List.range 4).map Reg.refCfg

theorem SettingsShown.congr {l : List Byte} (h : SettingsShown l d) (same : ∀ a ∈ refSettings, rd t a = rd d a) : SettingsShown l t := by
  obtain ⟨select, refs, delay0, delay1⟩ := h
  have cfg : ∀ r < 4, Reg.refCfg r ∈ refSettings := by decide
  refine ⟨?_, fun r hr => ?_, ?_, ?_⟩
  · rw [same _ (by decide), select]
  · rw [same _ (cfg r hr), refs r hr]
  · rw [same _ (by decide), delay0]
  · rw [same _ (by decide), delay1]

theorem selCfg_not_configured : ¬Configured Reg.selCfg := by
  have apart : ∀ k < 4, Reg.selCfg ∉ servo ∧ Reg.selCfg ≠ Reg.refSts k ∧
      Reg.selCfg ≠ Reg.refStateEvc k ∧ Reg.selCfg ≠ Reg.refCfg k := by
    decide
  rintro ⟨k, hk, (h | h | h) | h⟩
  · exact (apart k hk).1 h
  · exact (apart k hk).2.1 h
  · exact (apart k hk).2.2.1 h
  · exact (apart k hk).2.2.2 h

theorem settingsShown_refsSet (d : Dev) (l : List Byte) : SettingsShown l (refsSet d l) := by
  have width (off : Nat) : le l off 4 % two32 = le l off 4 := Nat.mod_eq_of_lt (le_lt l off 4)
  refine ⟨?_, fun r hr => ?_, ?_, ?_⟩
  · have small := le_lt l 0 1
    have mode := le_lt l 1 1
    have priority := le_lt l 2 1
    rw [refsSet, rd_wr_ne _ _ (by decide), rd_wr_ne _ _ (by decide), (moves_refCfgsPut _ _).regs _ selCfg_not_configured, rd_wr_self]
    exact Nat.mod_eq_of_lt (by simp only [two32]; omega)
  · have apart : ∀ r < 4, Reg.refCfg r ≠ Reg.refPpsDelay 0 ∧ Reg.refCfg r ≠ Reg.refPpsDelay 1 := by decide
    obtain ⟨first, second⟩ := apart r hr
    rw [refsSet, rd_wr_ne _ _ second, rd_wr_ne _ _ first, rd_refCfgsPut _ _ _ hr, if_pos (List.mem_range.2 hr), width]
  · rw [refsSet, rd_wr_ne _ _ (by decide), rd_wr_self, width]
  · rw [refsSet, rd_wr_self, width]

theorem settingsShown_putRefs (d : Dev) (l : List Byte) : SettingsShown l (putRefs d l) := by
  have apart : ∀ a ∈ refSettings, a ∉ servo := by decide
  exact (settingsShown_refsSet d l).congr fun a h => (steers_putRefs d l).moves.regs a (apart a h)

/-- What `SEL_STS` reads as. -/
def selShown : List Nat := [Reg.selSts, Reg.selCfg, Reg.refCfg 0, Reg.refCfg 1, Reg.refSts 0, Reg.refSts 1]

theorem selWord_congr (regs : ∀ a ∈ selShown, rd t a = rd d a) (now : t.now = d.now) (time : t.time = d.time) : selWord t = selWord d := by
  have sts : rd t Reg.selSts = rd d Reg.selSts := regs _ (by decide)
  have mode : selMode t = selMode d := by simp only [selMode, flag, regs Reg.selCfg (by decide)]
  have input : ∀ r, ppsPhase t r = ppsPhase d r := by
    intro r
    by_cases small : r < 2
    · have cfg : ∀ r < 2, Reg.refCfg r ∈ selShown := by decide
      have state : ∀ r < 2, Reg.refSts r ∈ selShown := by decide
      simp only [ppsPhase, flag, regs _ (cfg r small), regs _ (state r small)]
    · simp [ppsPhase, small]
  have chosen : selected t = selected d := by simp only [selected, fld, sts]
  have state : fld t Reg.selSts 0 4 = fld d Reg.selSts 0 4 := by simp only [fld, sts]
  rw [selWord, selWord, phaseSel, phaseSel, mode, input, chosen, state, now, time]

/-! ## The command -/

section
variable {l : List Byte} {ch : Nat} {sl : Slot}

theorem refSelectRes_ok (ok : refPayloadOk d sl.payload = true) : refSelectRes d sl =
    { dev := putCfg (putRefs d sl.payload) 43 0 sl.payload, payload := toLe 4 (selWord (putCfg (putRefs d sl.payload) 43 0 sl.payload)),
      vint := true } := if_neg (by simp [ok])

theorem moves_refSelectRes (ok : refPayloadOk d sl.payload = true) : Moves [.time, .host] Selected d (refSelectRes d sl).dev := by
  rw [refSelectRes_ok ok]
  exact (moves_putRefs d _).trans (moves_putCfg _ 43 0 _ (by simp))

theorem settingsShown_refSelectRes (ok : refPayloadOk d sl.payload = true) : SettingsShown sl.payload (refSelectRes d sl).dev := by
  rw [refSelectRes_ok ok]
  exact (settingsShown_putRefs d _).congr fun a _ => (moves_putCfg (ps := [.host]) (rs := fun _ => False) _ 43 0 _ (by simp)).regs a id

/-- The body of the command leaves the channel in service. -/
theorem served_refSelectRes (hs : Served d ch sl) (ok : refPayloadOk d sl.payload = true) : Served (refSelectRes d sl).dev ch sl := by
  have moved := moves_refSelectRes ok
  obtain ⟨master, d3, -⟩ := moved.access
  exact Served.of_same hs (moved.parts .boot (by simp)) (moved.parts .chan (by simp)) master d3 (moved.regs _ (selected_not_chan ch (by decide)))

/-- The registers of the references lie beside what completing a command writes. -/
theorem rd_completed {r : Res} (hc : ch < 16) (hs : Served r.dev ch sl) (ha : a ∈ refSettings ++ selShown) :
    rd (settle (complete ch sl r)) a = rd r.dev a := by
  have apart : ∀ a ∈ refSettings ++ selShown, a ≠ Reg.irqMsgCnt ∧ a ≠ Reg.coopBadFree ∧
      a ≠ Reg.coopBadFreeLast ∧ a < 0x40_0000 := by decide
  obtain ⟨irq, bad, last, below⟩ := apart a ha
  have beside : ¬ChanReg ch a := by
    simp only [ChanReg, Reg.chan]
    omega
  rw [rd_settle _ irq, rd_complete hc hs bad last beside]

/-- How `REF_SELECT` ends with settings that it accepts. -/
theorem ends_refSelect (hc : ch < 16) (hs : Served s.dev ch sl) (ha : Accepted s.dev ch sl 0x502 0) (len : sl.len = 28)
    (ok : refPayloadOk s.dev sl.payload = true) : Ends (.refSelect ch) s fun t =>
      AnsweredOk s.dev t ch sl (toLe 4 (selWord t)) ∧ SettingsShown sl.payload t ∧ t.host.vintage = nextVintage s.dev.host.vintage ∧
        OnlyParts [.chan, .cc, .time, .host] s.dev t := by
  refine ends_cmd (op := 0x502) (fl := 0) (flags := 0) rfl (decide_eq_true hc) hc hs ha rfl (by simp [lenIs, len]) rfl ?_
  have okBegun : refPayloadOk (begun s) sl.payload = true := ok
  have served : Served (refSelectRes (begun s) sl).dev ch sl := served_refSelectRes hs okBegun
  have moved := moves_refSelectRes (d := begun s) okBegun
  have result := refSelectRes_ok (d := begun s) okBegun
  obtain ⟨-, -, vintage⟩ := moved.access
  have parted (x : Piece) (hch : x ≠ .chan) (hcc : x ≠ .cc) (hh : x ≠ .host) :
      Same x (refSelectRes (begun s) sl).dev (settle (complete ch sl (refSelectRes (begun s) sl))) :=
    Same.trans (complete_same hc served hch hcc hh) (settle_same _ x)
  have word : selWord (settle (complete ch sl (refSelectRes (begun s) sl))) = selWord (refSelectRes (begun s) sl).dev :=
    selWord_congr (fun a h => rd_completed hc served (List.mem_append_right _ h)) (parted .now (by decide) (by decide) (by decide))
      (parted .time (by decide) (by decide) (by decide))
  have answered := complete_answered s.dev hc served (moved.regs _ (selected_not_chan ch (by decide))) (by rw [result])
  refine ⟨?_, ?_, ?_, ?_⟩
  · rw [word]
    rw [result] at answered ⊢
    exact answered
  · exact (settingsShown_refSelectRes okBegun).congr fun a h => rd_completed hc served (List.mem_append_left _ h)
  · rw [settle_host_vintage, complete_vintage hc served, vintage, result, if_pos rfl, begun_host_vintage]
  · refine complete_onlyParts hc served (by simp) (by simp) (.inr (by simp)) fun x hx => Same.trans (begun_same s x) (moved.parts x ?_)
    simp only [List.mem_cons, List.not_mem_nil, or_false, not_or] at hx ⊢
    exact hx.2.2

end

/-- Settles O25: the measurement of a gate and the servo leave a reference's judgement alone, which Table 08-7 gives; a loss of signal
disqualifies; and the settings of `REF_SELECT` stand, whatever reference is chosen under them. -/
theorem referencesAreQualified : Obligations.ReferencesAreQualified := by
  intro s
  have irq : ∀ r < 4, Reg.refSts r ≠ Reg.irqMsgCnt := by decide
  refine ⟨fun r raw hr up en signal lock => ?_, fun r hr up en signal lock => ?_, fun r hr lost lock => ?_, ?_⟩
  case refine_1 =>
    refine ends_of_runIf rfl (decide_eq_true hr) ?_
    obtain ⟨gates, kept, shown, others, due, parts⟩ := (refGateEnd_counted (d := begun s) raw hr up en signal lock).settled hr
    refine ⟨gates, kept, fun inWin i o hw hi ho => ?_, others, due, parts⟩
    subst hw hi ho
    exact ⟨shown.inRun, shown.outRun, shown.state⟩
  case refine_2 =>
    refine ends_of_runIf rfl (decide_eq_true hr) ?_
    rw [refLossOfSignal_eq (d := begun s) up en signal lock]
    have moved := (steers_loseRef (begun s) r).moves
    obtain ⟨state, inRun, outRun⟩ := ((shows_markLost (begun s) hr).congr (rd_loseRef _ hr)).settled hr
    refine ⟨?_, state, inRun, outRun, fun q small other => moved.rd_ends (irq q small) (refSts_not_judged small other), moved.onlyParts⟩
    rw [flag_settle _ 2 (irq r hr), flag, rd_loseRef _ hr]
    exact flag_markLost _ hr
  case refine_3 =>
    refine ends_of_runIf rfl (decide_eq_true hr) ?_
    have moved := moves_refSignalReturn (d := begun s) lost lock
    refine ⟨?_, ?_, moved.onlyParts, moved.onlyRegs⟩
    · rw [flag_settle _ 2 (irq r hr), refSignalReturn_eq (d := begun s) lost lock]
      exact flag_setFlag_self _ _ 2 false (by decide)
    · rw [refOf, settle_time, refSignalReturn_eq (d := begun s) lost lock]
      exact congrArg RefSt.gateAt ((refOf_setRef ..).trans (if_pos rfl))
  case refine_4 =>
    rintro ch sl _ hc hs ha len rfl ok
    refine Ends.imp (ends_refSelect hc hs ha len ok) fun t ⟨answered, numbers, vintage, parts⟩ => ?_
    obtain ⟨select, refs, delay0, delay1⟩ := numbers
    exact ⟨answered, select, refs, delay0, delay1, vintage, parts⟩

end Sys2Proof.Machine
end

section
/-! Supplies, resets and monitors (R466, R476, R742, R753 to R758, R782, R792, R796, R798): what a reset keeps, how the device starts,
and what the monitors' reports do. -/

namespace Sys2Proof.Machine

open Sys2Proof

variable {d t : Dev} {s : State} {ps : List Piece} {rs : Nat → Prop}

/-! ## Registers of a device in reset -/

theorem tfind_filter {α : Type} (l : Tab α) (p : Nat → Bool) (k : Nat) :
    tfind (l.filter fun e => p e.1) k = if p k then tfind l k else none := by
  induction l with
  | nil => simp [tfind]
  | cons e l ih =>
    obtain ⟨a, v⟩ := e
    by_cases keep : p a = true <;> by_cases here : a = k <;> simp_all [tfind]

/-- A register that a filter keeps holds its value, another one its reset value. -/
theorem rd_filtered {p : Nat → Bool} (h : t.regs = d.regs.filter fun e => p e.1) (a : Nat) :
    rd t a = if p a then rd d a else Reg.reset a := by
  simp only [rd, h, tfind_filter]
  by_cases keep : p a = true <;> simp [keep]

theorem rd_resetDev (d : Dev) (a : Nat) : rd (resetDev d) a = if a = Reg.safeVintage then rd d a else Reg.reset a := by
  simpa using rd_filtered (t := resetDev d) (p := fun a => decide (a = Reg.safeVintage)) rfl a

theorem rd_holdReset (d : Dev) (a : Nat) :
    rd (holdReset d) a = if Reg.isHk a = true ∨ a = Reg.safeVintage then rd d a else Reg.reset a := by
  simpa using rd_filtered (t := holdReset d) (p := fun a => Reg.isHk a || decide (a = Reg.safeVintage)) rfl a

/-- Without bus mastering no message goes out, and none is counted (R656). -/
theorem rd_settle_quiet (off : d.host.busMaster = false) (a : Nat) : rd (settle d) a = rd d a := by
  have none : (firing d).filter (canSend d) = [] := by simp [canSend, off]
  simp only [settle, none, if_true, rd_onHost]

theorem flag_settle_quiet (off : d.host.busMaster = false) (a i : Nat) : flag (settle d) a i = flag d a i := by
  simp only [flag, rd_settle_quiet off]

/-! ## `VSTBY` (R466, R476) -/

theorem moves_onPins (d : Dev) (f : Pins → Pins) (hp : .pins ∈ ps) : Moves ps rs d (d.onPins f) :=
  ⟨fun x hx => by cases x <;> simp_all [Same], fun _ _ => rfl, .refl d, .refl d.buf⟩

/-- `VSTBY` comes or goes: the calendar starts afresh, and a device without `VDD_HK` goes from one power state to the other. -/
def standbyTurns (d : Dev) (v : Bool) (p q : Phase) : Dev :=
  let d := freshStandby (d.onPins fun x => { x with vstby := v })
  if d.boot.phase = p then d.onBoot fun b => { b with phase := q } else d

theorem moves_standbyTurns (d : Dev) (v : Bool) (p q : Phase) :
    Moves [.pins, .time, .boot] (· ∈ []) d (standbyTurns d v p q) :=
  (moves_onPins d _ (by simp)).trans ((moves_onTime _ _ (by simp)).trans (.ite (moves_onBoot _ _ (by simp)) (.refl _)))

theorem standbyTurns_pins (d : Dev) (v : Bool) (p q : Phase) : (standbyTurns d v p q).pins.vstby = v := by
  unfold standbyTurns; dsimp only; split <;> rfl

theorem standbyTurns_time (d : Dev) (v : Bool) (p q : Phase) : (standbyTurns d v p q).time.calNotSet = true ∧
    (standbyTurns d v p q).time.calSec = 0 ∧ (standbyTurns d v p q).time.stbyEpoch = 0 := by
  unfold standbyTurns; dsimp only; split <;> exact ⟨rfl, rfl, rfl⟩

theorem standbyTurns_phase (d : Dev) (v : Bool) (p q : Phase) :
    (standbyTurns d v p q).boot.phase = if d.boot.phase = p then q else d.boot.phase := by
  unfold standbyTurns
  dsimp only
  split
  case isTrue h => exact (if_pos h).symm
  case isFalse h => exact (if_neg h).symm

theorem ends_vstbyApplied (off : s.dev.pins.vstby = false) : Ends .vstbyApplied s fun t =>
    t.pins.vstby = true ∧ t.time.calNotSet = true ∧ t.time.calSec = 0 ∧ t.time.stbyEpoch = 0 ∧
      t.boot.phase = (if s.dev.boot.phase = .off then .standby else s.dev.boot.phase) ∧ OnlyParts [.pins, .time, .boot] s.dev t ∧
      OnlyRegs [] s.dev t := by
  have run : vstbyApplied (begun s) = standbyTurns (begun s) true .off .standby := if_neg (by simp [off])
  have moved := moves_standbyTurns (begun s) true .off .standby
  obtain ⟨notSet, sec, epoch⟩ := standbyTurns_time (begun s) true .off .standby
  refine ends_of_runIf (f := vstbyApplied) rfl rfl ?_
  rw [run, settle_pins, settle_time, settle_boot]
  exact ⟨standbyTurns_pins .., notSet, sec, epoch, standbyTurns_phase .., moved.onlyParts, moved.onlyRegs⟩

theorem ends_vstbyLoss (on : s.dev.pins.vstby = true) : Ends .vstbyLoss s fun t =>
    t.pins.vstby = false ∧ t.time.calNotSet = true ∧ t.time.stbyEpoch = 0 ∧
      t.boot.phase = (if s.dev.boot.phase = .standby then .off else s.dev.boot.phase) ∧ OnlyParts [.pins, .time, .boot] s.dev t ∧
      OnlyRegs [] s.dev t := by
  have run : vstbyLoss (begun s) = standbyTurns (begun s) false .standby .off := if_neg (by simp [on])
  have moved := moves_standbyTurns (begun s) false .standby .off
  obtain ⟨notSet, -, epoch⟩ := standbyTurns_time (begun s) false .standby .off
  refine ends_of_runIf (f := vstbyLoss) rfl rfl ?_
  rw [run, settle_pins, settle_time, settle_boot]
  exact ⟨standbyTurns_pins .., notSet, epoch, standbyTurns_phase .., moved.onlyParts, moved.onlyRegs⟩

/-! ## `VDD_HK` (R742, R754, R782, R796) -/

theorem ends_vddHkUp (down : s.dev.boot.phase = .standby) : Ends .vddHkUp s fun t =>
    t.boot.phase = .reset ∧ t.time.stbyEpoch = (s.dev.time.stbyEpoch + 1) % two32 ∧ t.tel.seq = mramSeq s.dev ∧ t.tel.ring = [] ∧
      t.tel.slots = s.dev.tel.slots ∧ t.safe.cfg = s.dev.safe.cfg ∧ t.safe.proofs = s.dev.safe.proofs ∧
      rd t Reg.safeVintage = rd s.dev Reg.safeVintage ∧ t.boot.monitor = true ∧ t.boot.monitorAt = s.dev.now ∧
      t.boot.invalid = laterRails ∧
      flag t Reg.hkFault 3 = true ∧ ∀ a, a ≠ Reg.safeVintage → a ≠ Reg.hkFault → rd t a = Reg.reset a := by
  have up : ¬(begun s).boot.phase ≠ .standby := not_not.2 down
  have quiet : (vddHkUp (begun s)).host.busMaster = false := by rw [vddHkUp, if_neg up]; rfl
  have regs (a : Nat) (other : a ≠ Reg.hkFault) : rd (vddHkUp (begun s)) a = if a = Reg.safeVintage then rd s.dev a else Reg.reset a := by
    rw [vddHkUp, if_neg up]
    exact (rd_setFlag_ne _ 3 true other).trans (rd_resetDev ..)
  have fault : flag (vddHkUp (begun s)) Reg.hkFault 3 = true := by
    rw [vddHkUp, if_neg up]
    exact flag_setFlag_self _ _ 3 true (by decide)
  refine ends_of_runIf (f := vddHkUp) rfl rfl ?_
  refine ⟨?_, ?_, ?_, ?_, ?_, ?_, ?_, ?_, ?_, ?_, ?_, ?_, fun a safe other => ?_⟩
  case refine_8 => rw [rd_settle_quiet quiet, regs _ (by decide), if_pos rfl]
  case refine_12 => rw [flag_settle_quiet quiet, fault]
  case refine_13 => rw [rd_settle_quiet quiet, regs a other, if_neg safe]
  all_goals simp only [settle_boot, settle_time, settle_safe, settle_tel_seq, settle_tel_ring, settle_tel_slots, vddHkUp, if_neg up]; rfl

theorem ends_standbyEntry (on : hkOn s.dev = true) (fell : s.dev.pins.pwrFailN = false) (served : fallUnserved s.dev = false) :
    Ends .standbyEntry s fun t =>
      t.boot.phase = (if s.dev.pins.vstby then .standby else .off) ∧ t.tel.slots = s.dev.tel.slots ∧ t.safe.cfg = s.dev.safe.cfg ∧
        t.time.calSec = s.dev.time.calSec ∧ ∀ a, a ≠ Reg.safeVintage → rd t a = Reg.reset a := by
  have run : standbyEntry (begun s) = powerDown (begun s) (if s.dev.pins.vstby then .standby else .off) := by
    have on : hkOn (begun s) = true := on
    have served : fallUnserved (begun s) = false := served
    exact if_neg (by simp [on, fell, served])
  refine ends_of_runIf (f := standbyEntry) rfl rfl ?_
  rw [run, settle_boot, settle_tel_slots, settle_safe, settle_time]
  refine ⟨rfl, rfl, rfl, rfl, fun a other => ?_⟩
  rw [rd_settle_quiet rfl]
  exact (rd_resetDev ..).trans (if_neg other)

/-! ## `RESET_N` (R753, R754) -/

theorem ends_resetNFall (on : hkOn s.dev = true) (high : s.dev.pins.resetN = true) : Ends .resetNFall s fun t =>
    t.pins.resetN = false ∧ t.boot.phase = .reset ∧ t.boot.fwRunning = false ∧ t.host.cfg = [] ∧ t.host.vintage = 1 ∧ t.buf = {} ∧
      t.safe.cfg = s.dev.safe.cfg ∧ t.tel.slots = s.dev.tel.slots ∧ t.tel.ring = s.dev.tel.ring ∧ t.tel.seq = s.dev.tel.seq ∧
      rd t Reg.safeVintage = rd s.dev Reg.safeVintage ∧ ∀ a, a ≠ Reg.safeVintage → a ≠ Reg.hkFault → rd t a = Reg.reset a := by
  have run : resetNFall (begun s) =
      setFlag (resetDev ((begun s).onPins fun p => { p with resetN := false })) Reg.hkFault 3 s.dev.boot.monitor := by
    have on : hkOn (begun s) = true := on
    exact if_neg (by simp [on, high])
  have regs (a : Nat) (other : a ≠ Reg.hkFault) : rd (resetNFall (begun s)) a = if a = Reg.safeVintage then rd s.dev a else Reg.reset a := by
    rw [run]
    exact (rd_setFlag_ne _ 3 _ other).trans (rd_resetDev ..)
  have quiet : (resetNFall (begun s)).host.busMaster = false := by rw [run]; rfl
  refine ends_of_runIf (f := resetNFall) rfl rfl ?_
  refine ⟨?_, ?_, ?_, ?_, ?_, ?_, ?_, ?_, ?_, ?_, ?_, fun a safe other => ?_⟩
  case refine_11 => rw [rd_settle_quiet quiet, regs _ (by decide), if_pos rfl]
  case refine_12 => rw [rd_settle_quiet quiet, regs a other, if_neg safe]
  all_goals
    simp only [settle_pins, settle_boot, settle_host_cfg, settle_host_vintage, settle_buf, settle_safe, settle_tel_slots, settle_tel_ring,
      settle_tel_seq, run]
    rfl

/-! ## Release (R413, R414, R484, R755) -/

/-- A list of numbers' values, the default left out, as a table. -/
theorem tget_filterMap {α : Type} [DecidableEq α] (dflt : α) (f : Nat → α) {l : List Nat} {n : Nat} (h : n ∈ l) :
    tget dflt (l.filterMap fun i => if f i = dflt then none else some (i, f i)) n = f n := by
  have find (l : List Nat) : tfind (l.filterMap fun i => if f i = dflt then none else some (i, f i)) n =
      if n ∈ l ∧ f n ≠ dflt then some (f n) else none := by
    induction l with
    | nil => rfl
    | cons x l ih =>
      by_cases here : n = x
      · subst here
        by_cases listed : f n = dflt <;> simp [listed, tfind, ih]
      · by_cases listed : f x = dflt <;> simp [listed, tfind, ih, here, Ne.symm here]
  by_cases listed : f n = dflt <;> simp [tget, find, h, listed]

/-- Each copy of the VID map holds the new one beside the one in force. -/
theorem tget_loadMaps {k n : Nat} (past : Bool) (v : Nat) (l : Tab (Nat × Nat)) (h : n < k) :
    tget (0, 0) (loadMaps k past v l) n = (if past then (tget (0, 0) l n).2 else (tget (0, 0) l n).1, v) :=
  tget_filterMap (0, 0) (fun i => (if past then (tget (0, 0) l i).2 else (tget (0, 0) l i).1, v)) (List.mem_range.2 h)

/-- Of the registers the start writes `TSU_STS` and `HK_BOOT_MS` alone. -/
theorem rd_startUp (d : Dev) (a : Nat) : rd (startUp d) a = rd (wr (wr d Reg.tsuSts 0xFF00) Reg.hkBootMs 0) a := rfl

theorem moves_startUp (d : Dev) :
    Moves [.time, .boot, .cc, .fwd, .safe, .health] (· ∈ [Reg.tsuSts, Reg.hkBootMs]) d (startUp d) where
  parts x hx := by cases x <;> simp_all [Same, startUp, putMaps]
  regs a ha := by
    simp only [List.mem_cons, List.not_mem_nil, or_false, not_or] at ha
    rw [rd_startUp, rd_wr_ne _ _ ha.2, rd_wr_ne _ _ ha.1]
  access := ⟨rfl, rfl, rfl⟩
  cellar := ⟨rfl, rfl⟩

/-- A lane die counts as unaligned from the start on. -/
theorem startUp_unaligned (d : Dev) {k : Nat} (hk : k < 8) : unaligned (settle (startUp d)) k = true := by
  have bits : ∀ k < 8, bit (0xFF00 % two32) (8 + k) = true := by decide
  have since : ∀ k < 8, tget 0 ((List.range 8).map fun k => (k, d.now)) k = d.now := by
    intro k hk
    interval_cases k <;> rfl
  have now : (startUp d).now = d.now := rfl
  have times : (startUp d).time.slaveAt = (List.range 8).map fun k => (k, d.now) := rfl
  rw [unaligned, flag_settle _ _ (by decide), flag, rd_startUp, rd_wr_ne _ _ (by decide), rd_wr_self, bits k hk,
    settle_now, settle_time, times, since k hk, now]
  simp [ps_us]

theorem ends_resetRelease (on : hkOn s.dev = true) (low : s.dev.pins.resetN = false) (free : s.dev.boot.monitor = false) :
    Ends .resetRelease s fun t =>
      t.pins.resetN = true ∧ t.boot.phase = .lifeline ∧ t.boot.releasedAt = s.dev.now ∧ alive t = true ∧ t.safe.cfg = s.dev.safe.cfg ∧
        t.safe.proofs = s.dev.safe.proofs ∧ (∀ n < 16, (tget (0, 0) t.safe.tileVids n).2 = s.dev.safe.cfg.vids) ∧
        (∀ k < 8, unaligned t k = true) ∧ t.buf = s.dev.buf ∧ rd t Reg.hkBootMs = 0 ∧ OnlyRegs [Reg.tsuSts, Reg.hkBootMs] s.dev t := by
  have run : resetRelease (begun s) = startUp ((begun s).onPins fun p => { p with resetN := true }) := by
    have on : hkOn (begun s) = true := on
    exact (if_neg (by simp [on, low])).trans (if_neg (by simp [free]))
  refine ends_of_runIf (f := resetRelease) rfl rfl ?_
  rw [run]
  refine ⟨?_, ?_, ?_, ?_, ?_, ?_, fun n hn => ?_, fun k hk => startUp_unaligned _ hk, ?_, ?_, ?_⟩
  case refine_7 =>
    rw [settle_safe]
    exact congrArg Prod.snd (tget_loadMaps true _ _ hn)
  case refine_9 => rw [rd_settle _ (by decide), rd_startUp, rd_wr_self]; rfl
  case refine_10 =>
    have pins := moves_onPins (ps := .pins :: [.time, .boot, .cc, .fwd, .safe, .health]) (rs := (· ∈ [Reg.tsuSts, Reg.hkBootMs]))
      (begun s) (fun p => { p with resetN := true }) (by simp)
    exact (pins.trans ((moves_startUp _).mono (List.subset_cons_self ..) fun _ h => h)).onlyRegs
  all_goals simp only [alive, settle_pins, settle_boot, settle_safe, settle_buf]; rfl

/-! ## Reports of the monitors (R756, R792, R796) -/

/-- A report's note of the readback and of the rail changes no more than the readings and the rails that count as invalid. -/
theorem noteReadback_eq (d : Dev) (clock : Bool) (n mv : Nat) (fails : Bool) :
    ∃ h, noteReadback d clock n mv fails = { d with health := h } := by
  unfold noteReadback confirmSet
  split
  · exact ⟨_, rfl⟩
  · dsimp only
    split
    · exact ⟨_, rfl⟩
    · split <;> exact ⟨_, rfl⟩

theorem noteReadback_avsFails (d : Dev) (mv : Nat) (fails : Bool) :
    (noteReadback d false 0 mv fails).health.avsFails = if fails then d.health.avsFails + 1 else 0 := by
  cases fails with
  | true => rw [noteReadback_failed]; rfl
  | false =>
    rw [noteReadback_read]
    obtain ⟨h, -⟩ | ⟨h, -⟩ := confirmSet_cases (d.onHealth fun h => { h with avsFails := 0 }) mv <;> rw [h] <;> rfl

/-- A readback within 25 mV of the commanded setpoint confirms it and is no departure; another is judged by the one confirmed before. -/
theorem departs_read (d : Dev) (mv : Nat) : departs (noteReadback d false 0 mv false) false 0 mv false =
    (decide (mv + 25 < coreMv d ∨ coreMv d + 25 < mv) && decide (mv + 25 < d.health.avsSet ∨ d.health.avsSet + 25 < mv)) := by
  have judged (e : Dev) : departs e false 0 mv false = decide (mv + 25 < e.health.avsSet ∨ e.health.avsSet + 25 < mv) := rfl
  have core : coreMv (d.onHealth fun h => { h with avsFails := 0 }) = coreMv d := rfl
  rw [noteReadback_read, judged]
  obtain ⟨run, near⟩ | ⟨run, far⟩ := confirmSet_cases (d.onHealth fun h => { h with avsFails := 0 }) mv
  · rw [run, core] at *
    have set : ¬(mv + 25 < coreMv d ∨ coreMv d + 25 < mv) := by omega
    rw [decide_eq_false set, Bool.false_and]
    exact decide_eq_false set
  · rw [run, core] at *
    rw [decide_eq_true far.symm, Bool.true_and]
    rfl

/-- The messages of the command before have no part in a report. -/
theorem noteReadback_begun (s : State) (clock : Bool) (n mv : Nat) (fails : Bool) :
    (noteReadback (begun s) clock n mv fails).health = (noteReadback s.dev clock n mv fails).health := by
  have confirmed (d e : Dev) (regs : e.regs = d.regs) (health : e.health = d.health) : (confirmSet e mv).health = (confirmSet d mv).health := by
    have core : coreMv e = coreMv d := by simp only [coreMv, fld, rd, regs]
    unfold confirmSet
    rw [core]
    split <;> simp [health]
  cases clock with
  | true => rfl
  | false =>
    by_cases core : n = 0
    · subst core
      cases fails with
      | true => rfl
      | false =>
        rw [noteReadback_read, noteReadback_read]
        exact confirmed _ _ rfl rfl
    · rw [noteReadback_other _ (.inr core), noteReadback_other _ (.inr core), begun_health]

theorem departs_begun (s : State) (clock : Bool) (n mv : Nat) (fails : Bool) :
    departs (noteReadback (begun s) clock n mv fails) clock n mv fails = departs (noteReadback s.dev clock n mv fails) clock n mv fails := by
  simp only [departs, noteReadback_begun]

section
variable {clock fails : Bool} {n mv : Nat} (on : hkOn d = true) (own : ¬(clock = true ∧ (n = 38 ∨ n = 39)))
include on own

theorem monitorDeparture_valid (good : departs (noteReadback d clock n mv fails) clock n mv fails = false) :
    monitorDeparture clock n mv fails d = noteRail (noteReadback d clock n mv fails) clock n false := by
  have pass : ¬((!hkOn d || (clock && decide (n = 38 ∨ n = 39))) = true) := by simpa [on] using own
  exact (if_neg pass).trans ((if_pos (by rw [good]; rfl)).trans (by rw [good]))

/-- What a departure leaves, before its record: everything but the housekeeping die reset, and the cause in `HK_FAULT`. -/
def heldDown (e : Dev) : Dev := setFlag (wr (holdReset e) Reg.hkFault 8) Reg.thermSts 11 false

/-- The device as the report has been noted. -/
def reported (d : Dev) (clock : Bool) (n mv : Nat) (fails : Bool) : Dev := noteRail (noteReadback d clock n mv fails) clock n true

theorem monitorDeparture_departs (bad : departs (noteReadback d clock n mv fails) clock n mv fails = true) :
    ∃ k l, monitorDeparture clock n mv fails d = mramTrigger (bb (heldDown (reported d clock n mv fails)) 41 k l) 7 := by
  have pass : ¬((!hkOn d || (clock && decide (n = 38 ∨ n = 39))) = true) := by simpa [on] using own
  have record (k : Nat) (l : List Byte) : healthEvent (heldDown (reported d clock n mv fails)) k l =
      bb (heldDown (reported d clock n mv fails)) 41 (0x40 + k) l := by
    refine if_pos ?_
    have idle : (heldDown (reported d clock n mv fails)).boot.fwRunning = false := rfl
    rw [show (bb _ _ _ _).boot = _ from (moves_bb (ps := [.tel]) (rs := fun _ => True) _ _ _ _ (by simp) trivial).boot (by simp), idle]
    rfl
  refine ⟨0x40 + if clock then 7 else 6, if clock then toLe 1 n else toLe 1 n ++ zeros 3 ++ toLe 2 mv, ?_⟩
  have run : monitorDeparture clock n mv fails d = mramTrigger (if clock then healthEvent (heldDown (reported d clock n mv fails)) 7 (toLe 1 n)
      else healthEvent (heldDown (reported d clock n mv fails)) 6 (toLe 1 n ++ zeros 3 ++ toLe 2 mv)) 7 := by
    refine (if_neg pass).trans ((if_neg (by rw [bad]; decide)).trans ?_)
    rw [bad]
    rfl
  rw [run]
  cases clock <;> exact congrArg (mramTrigger · 7) (record ..)

end

/-- The report changes no register, and of the rest only readings and rails. -/
theorem reported_eq (d : Dev) (clock : Bool) (n mv : Nat) (fails : Bool) :
    ∃ h b, reported d clock n mv fails = { d with health := h, boot := b } ∧ (clock = false → n ∈ b.invalid) := by
  obtain ⟨h, run⟩ := noteReadback_eq d clock n mv fails
  rw [reported, run]
  cases clock with
  | true => exact ⟨h, d.boot, rfl, fun c => by cases c⟩
  | false => exact ⟨h, _, rfl, fun _ => by simp⟩

theorem rd_heldDown (e : Dev) {a : Nat} (fault : a ≠ Reg.hkFault) (therm : a ≠ Reg.thermSts) :
    rd (heldDown e) a = if Reg.isHk a = true ∨ a = Reg.safeVintage then rd e a else Reg.reset a := by
  rw [heldDown, rd_setFlag_ne _ _ _ therm, rd_wr_ne _ _ fault, rd_holdReset]

theorem bb_slots (d : Dev) (i c : Nat) (l : List Byte) : (bb d i c l).tel.slots = d.tel.slots := by
  unfold bb
  dsimp only
  split <;> simp

theorem wf_monitorDeparture {clock fails : Bool} {n mv : Nat} (known : clock = true ∧ n < 43 ∧ n ≠ 38 ∧ n ≠ 39 ∨ clock = false ∧ n < 11)
    (small : mv < 0x10000) : (Instr.monitorDeparture clock n mv fails).wf = true :=
  decide_eq_true ⟨known.imp (fun ⟨c, number, _⟩ => ⟨c, number⟩) id, small⟩

theorem ends_departure {clock fails : Bool} {n mv : Nat} (known : clock = true ∧ n < 43 ∧ n ≠ 38 ∧ n ≠ 39 ∨ clock = false ∧ n < 11)
    (small : mv < 0x10000) (on : hkOn s.dev = true)
    (bad : departs (noteReadback s.dev clock n mv fails) clock n mv fails = true) : Ends (.monitorDeparture clock n mv fails) s fun t =>
      t.boot.phase = .reset ∧ t.boot.monitor = true ∧ t.boot.monitorAt = s.dev.now ∧ rd t Reg.hkFault = 8 ∧ faultN t = false ∧
        7 ∈ t.tel.trigDue ∧ t.safe.cfg = s.dev.safe.cfg ∧ (clock = false → n ∈ t.boot.invalid) ∧ t.health.tileClk = [] ∧
        t.health.laneEq = [] ∧ (s.dev.safe.loaded = false → t.safe.hk = s.dev.safe.hk) ∧
        t.tel.slots = s.dev.tel.slots ∧ t.host.vintage = 1 ∧
        (∀ a, Reg.isHk a = true → a ≠ Reg.hkFault → a ≠ Reg.thermSts → a ≠ Reg.bbLost → rd t a = rd s.dev a) ∧
        (∀ a, Reg.isHk a = false → a ≠ Reg.safeVintage → rd t a = Reg.reset a) := by
  have own : ¬(clock = true ∧ (n = 38 ∨ n = 39)) := by omega
  rw [← departs_begun] at bad
  obtain ⟨k, l, run⟩ := monitorDeparture_departs (d := begun s) on own bad
  obtain ⟨h, b, noted, rail⟩ := reported_eq (begun s) clock n mv fails
  generalize reported (begun s) clock n mv fails = e at run noted
  subst noted
  have moved := moves_bb (ps := [.tel]) (rs := (· = Reg.bbLost)) (heldDown { begun s with health := h, boot := b }) 41 k l (by simp) rfl
  refine ends_of_runIf (f := monitorDeparture clock n mv fails) rfl (wf_monitorDeparture known small) ?_
  have quiet : (monitorDeparture clock n mv fails (begun s)).host.busMaster = false := by
    rw [run]
    exact moved.access.1
  have regs (a : Nat) (lost : a ≠ Reg.bbLost) :
      rd (settle (monitorDeparture clock n mv fails (begun s))) a = rd (heldDown { begun s with health := h, boot := b }) a := by
    rw [rd_settle_quiet quiet, run]
    exact moved.regs a lost
  have fault : rd (settle (monitorDeparture clock n mv fails (begun s))) Reg.hkFault = 8 := by
    rw [regs _ (by decide), heldDown, rd_setFlag_ne _ _ _ (by decide), rd_wr_self]
    rfl
  obtain ⟨boot, safe, health, vintage⟩ :
      (monitorDeparture clock n mv fails (begun s)).boot = (heldDown { begun s with health := h, boot := b }).boot ∧
      (monitorDeparture clock n mv fails (begun s)).safe = (heldDown { begun s with health := h, boot := b }).safe ∧
      (monitorDeparture clock n mv fails (begun s)).health = (heldDown { begun s with health := h, boot := b }).health ∧
      (monitorDeparture clock n mv fails (begun s)).host.vintage = 1 := by
    rw [run]
    exact ⟨moved.parts .boot (by simp), moved.parts .safe (by simp), moved.parts .health (by simp), moved.access.2.2⟩
  simp only [settle_boot, boot, settle_safe, safe, settle_health, health, settle_host_vintage, vintage]
  refine ⟨rfl, rfl, rfl, fault, ?_, ?_, rfl, rail, rfl, rfl, fun loaded => ?_, ?_, trivial, fun a hk main therm lost => ?_,
    fun a other safe => ?_⟩
  · rw [faultN, fault]; rfl
  · rw [run, settle_tel_trigDue]
    exact List.mem_append_right _ List.mem_cons_self
  · have banks : hkBanks s.dev = s.dev.safe.hk := if_neg (by simp [loaded])
    exact banks
  · rw [run, settle_tel_slots]
    exact bb_slots ..
  · rw [regs a lost, rd_heldDown _ main therm, if_pos (.inl hk)]
    rfl
  · have block (b : Nat) (hk : Reg.isHk b = true) : a ≠ b := fun e => by rw [e, hk] at other; cases other
    rw [regs a (block _ rfl), rd_heldDown _ (block _ rfl) (block _ rfl), if_neg (by simp [other, safe])]

/-- A report of nothing amiss notes its readback and its rail alone. -/
theorem ends_noDeparture {clock fails : Bool} {n mv : Nat} (known : clock = true ∧ n < 43 ∧ n ≠ 38 ∧ n ≠ 39 ∨ clock = false ∧ n < 11)
    (small : mv < 0x10000) (on : hkOn s.dev = true)
    (good : departs (noteReadback s.dev clock n mv fails) clock n mv fails = false) : Ends (.monitorDeparture clock n mv fails) s fun t =>
      t.health = (noteReadback s.dev clock n mv fails).health ∧ (n = 0 → t.health.avsFails = if fails then s.dev.health.avsFails + 1 else 0) ∧
        t.boot = { s.dev.boot with
          invalid := s.dev.boot.invalid.filter (· ≠ n)
          monitorAt := if s.dev.boot.invalid ≠ [] ∧ s.dev.boot.invalid.filter (· ≠ n) = [] then s.dev.now else s.dev.boot.monitorAt } ∧
        OnlyParts [.health, .boot] s.dev t ∧ OnlyRegs [] s.dev t := by
  have own : ¬(clock = true ∧ (n = 38 ∨ n = 39)) := by omega
  have rail : clock = false := by
    cases clock with
    | false => rfl
    | true => cases good
  subst rail
  have health := noteReadback_begun s false n mv fails
  rw [← departs_begun] at good
  have run := monitorDeparture_valid (d := begun s) on own good
  rw [noteRail_valid] at run
  refine ends_of_runIf (f := monitorDeparture false n mv fails) rfl (wf_monitorDeparture known small) ?_
  rw [run, settle_health, settle_boot, Dev.onBoot_health, health]
  refine ⟨rfl, fun core => ?_, ?_, ?_, ?_⟩
  · subst core
    exact noteReadback_avsFails ..
  all_goals obtain ⟨h, noted⟩ := noteReadback_eq (begun s) false n mv fails
  · rw [noted]; rfl
  · rw [noted]
    exact onlyParts_settle fun x hx => by cases x <;> simp_all [Same]
  · intro a count _
    rw [noted, rd_settle _ count]
    rfl

/-! ## The end of a departure, and `PWR_FAIL_N` (R756, R798) -/

theorem monitorRelease_runs (held : d.boot.monitor = true) (high : d.pins.resetN = true) (valid : d.boot.invalid = []) :
    ∃ e : Dev, d.boot.monitorAt + 10 * ps_ms ≤ e.now ∧
      monitorRelease d = startUp (setFlag (e.onBoot fun b => { b with monitor := false }) Reg.hkFault 3 false) :=
  ⟨reach d (d.boot.monitorAt + 10 * ps_ms), (reach_now d _).1, if_neg (by simp [held, high, valid])⟩

theorem ends_monitorRelease (held : s.dev.boot.monitor = true) (high : s.dev.pins.resetN = true) (valid : s.dev.boot.invalid = []) :
    Ends .monitorRelease s fun t => s.dev.boot.monitorAt + 10 * ps_ms ≤ t.now ∧ t.boot.monitor = false ∧ t.boot.phase = .lifeline ∧
      flag t Reg.hkFault 3 = false := by
  obtain ⟨e, waited, run⟩ := monitorRelease_runs (d := begun s) held high valid
  refine ends_of_runIf (f := monitorRelease) rfl rfl ?_
  rw [run, settle_boot, settle_now, flag_settle _ _ (by decide)]
  refine ⟨waited, rfl, rfl, ?_⟩
  exact ((moves_startUp _).flag (by decide) 3).trans (flag_setFlag_self _ _ 3 false (by decide))

theorem ends_pwrFailFall (on : hkOn s.dev = true) (high : s.dev.pins.pwrFailN = true) : Ends .pwrFailFall s fun t =>
    t.pins.pwrFailN = false ∧ 1 ∈ t.tel.trigDue ∧ OnlyParts [.pins, .tel] s.dev t ∧ OnlyRegs [] s.dev t := by
  have run : pwrFailFall (begun s) = mramTrigger ((begun s).onPins fun p => { p with pwrFailN := false }) 1 := by
    have on : hkOn (begun s) = true := on
    exact if_neg (by simp [on, high])
  have moved : Moves [.pins, .tel] (· ∈ []) (begun s) (pwrFailFall (begun s)) :=
    run ▸ (moves_onPins _ _ (by simp)).trans (moves_onTel _ _ (by simp))
  refine ends_of_runIf (f := pwrFailFall) rfl rfl ⟨?_, ?_, moved.onlyParts, moved.onlyRegs⟩
  · rw [run, settle_pins]; rfl
  · rw [run, settle_tel_trigDue]
    exact List.mem_append_right _ List.mem_cons_self

theorem ends_pwrFailRise (on : hkOn s.dev = true) : Ends .pwrFailRise s fun t =>
    t.pins.pwrFailN = true ∧ OnlyParts [.pins] s.dev t ∧ OnlyRegs [] s.dev t := by
  have run : pwrFailRise (begun s) = (begun s).onPins fun p => { p with pwrFailN := true } := by
    have on : hkOn (begun s) = true := on
    exact if_neg (by simp [on])
  have moved : Moves [.pins] (· ∈ []) (begun s) (pwrFailRise (begun s)) := run ▸ moves_onPins _ _ (by simp)
  refine ends_of_runIf (f := pwrFailRise) rfl rfl ⟨?_, moved.onlyParts, moved.onlyRegs⟩
  rw [run, settle_pins]
  rfl

/-- Settles O58: clause by clause, the supplies, `RESET_N`, the monitors' reports and `PWR_FAIL_N`. -/
theorem suppliesAndResetsActAsStated : Obligations.SuppliesAndResetsActAsStated := by
  intro s
  refine ⟨ends_vstbyApplied, ends_vstbyLoss, ends_vddHkUp, ends_standbyEntry, ends_resetNFall, ends_resetRelease, ?_,
    departs_failed s.dev, departs_read s.dev, ends_monitorRelease, ends_pwrFailFall, ends_pwrFailRise⟩
  rintro clock n mv fails _ known small on rfl
  exact ⟨ends_noDeparture known small on, ends_departure known small on⟩

end Sys2Proof.Machine
end
